-- ==== Sys2Proof/Word.lean ====
section
/-! DEFINITION. The words of the RW2280: widths and numbers the manual fixes (00 section 6, 11). -/

namespace Sys2Proof

/-- One byte. -/
abbrev Byte := BitVec 8
/-- An address of the request and memory links: 40 bits (00 section 5.1). -/
abbrev Addr := BitVec 40
/-- The 64 bytes of a line or slot; byte i is bits 8i to 8i+7 (11.1, 11.2). -/
abbrev LineData := BitVec 512
/-- A byte mask: bit i enables byte i of the line (11.2). -/
abbrev ByteMask := BitVec 64
/-- An epoch number: 48 bits, 0 means none (00 section 4). -/
abbrev Epoch := BitVec 48
/-- A slot sequence, anchor generation, format count or store generation: 32 bits, modulo 2^32. -/
abbrev Count32 := BitVec 32
/-- A stream, 0 to 15 (R137). -/
abbrev StreamId := Fin 16
/-- A journal context, 0 to 7 (R19). -/
abbrev CtxId := Fin 8
/-- A request tag, 0 to 63 (R138). -/
abbrev Tag := BitVec 6
/-- An operation slot, 0 to 31 (R126). -/
abbrev SlotNo := Fin 32
/-- An issue number, modulo 4,096 (R126). -/
abbrev IssueNo := BitVec 12

end Sys2Proof
end

