-- ==== Sys2Proof/Config.lean ====
section
/-! DEFINITION. What is fixed of one part: the items of a configuration image (R167), their defaults, the
capacities of 00 section 6, and the free values the manual leaves open. -/

namespace Sys2Proof

/-- What a window does to writes (R1, R2). -/
inductive WindowKind where
  | journaled | direct | readOnly
deriving DecidableEq, Repr

/-- One entry of the window table (R1). The size field of a configuration item is 6 bytes (11.3). -/
structure Window where
  valid : Bool
  base : Addr
  size : BitVec 48
  kind : WindowKind
  writers : BitVec 16
deriving DecidableEq, Repr

/-- A level of the journal item: AUTO or a number of slots (R61). -/
inductive Level where
  | auto
  | slots (n : BitVec 32)
deriving DecidableEq, Repr

/-- The configuration items of one context (R23). The idle interval is in units of 10 µs. -/
structure CtxConfig where
  quota : BitVec 16
  idleInterval : BitVec 16
deriving DecidableEq, Repr

/-- The journal item (R61). -/
structure JournalConfig where
  areaBase : Addr
  ringSize : BitVec 32
  anchorStride : Level
  pauseLevel : Level
  resumeLevel : Level
  groupThreshold : BitVec 8
  groupTimer : BitVec 8
deriving DecidableEq, Repr

/-- The timing item, in µs (R167). -/
structure TimingConfig where
  conflictWait : BitVec 16
  captureStall : BitVec 16
  downstream : BitVec 16
deriving DecidableEq, Repr

/-- One full set of configuration: staged, active or stored (R167). -/
structure Image where
  windows : Vector Window 16
  bindings : Vector (Option CtxId) 16
  ctxs : Vector CtxConfig 8
  journal : JournalConfig
  timing : TimingConfig
deriving DecidableEq, Repr

namespace Config

/-- An entry of the default window table: not valid (R167). Base 0, size 0, JOURNALED and an empty writer set are the
MODEL'S CHOICE (DESIGN CHOICE, log 29): R18 and R167 give no value of these fields, and READ_CONFIG shows them. -/
def defaultWindow : Window := ⟨false, 0, 0, .journaled, 0⟩

/-- The defaults of a blank store (R167). -/
def defaults : Image where
  windows := Vector.replicate 16 defaultWindow
  bindings := Vector.replicate 16 none
  ctxs := Vector.replicate 8 ⟨256, 0⟩
  journal := ⟨0, 0, .auto, .auto, .auto, 8, 20⟩
  timing := ⟨1000, 2000, 100⟩

/-- Depth of a stream's queue (00 section 6). -/
abbrev queueDepth : Nat := 4
/-- Held entries (R87). -/
abbrev heldCapacity : Nat := 64
/-- Tracking entries (R41). -/
abbrev trackCapacity : Nat := 2048
/-- Slots of the staging buffer, and of the longest burst (R70, R73). -/
abbrev stagingCapacity : Nat := 16
/-- Restore slots of a rollback, and recovery writes in flight (R111, R159). -/
abbrev restoreSlots : Nat := 8
/-- Entries of the recovery epoch table (R158). -/
abbrev epochTableCapacity : Nat := 8
/-- Pass-over count at which a class must be granted (R130). -/
abbrev passOverLimit : Nat := 16
/-- Largest outstanding-write count (R137). -/
abbrev outstandingLimit : Nat := 65535
/-- Smallest ring size other than 0 (R61). -/
abbrev ringMin : Nat := 1024
/-- Largest ring size (R61). -/
abbrev ringMax : Nat := 4194304
/-- Longest time of a store programming in µs (R171). -/
abbrev programmingLimit : Nat := 25000

/-- FREE VALUE (log 2): the n-th choice that no rule makes (order of retries, slot of a grant, an abandoned bank). -/
opaque freeChoice : Nat → Nat
/-- FREE VALUE (log 7): the vendor code of IDENTIFY, which the manual does not state. -/
opaque vendorCode : Nat
/-- FREE VALUE (log 7): the part code of IDENTIFY, which the manual does not state. -/
opaque partCode : Nat
/-- FREE VALUE (log 7): the revision of IDENTIFY, which the manual does not state. -/
opaque revision : Nat
/-- FREE VALUE (log 7): the width in bits of a field of a payload, by payload and place in it. -/
opaque fieldWidth : Nat → Nat → Nat
/-- FREE VALUE (log 7): the code of a value that 11 gives no code, by payload, place and the value's number. -/
opaque fieldCode : Nat → Nat → Nat → Nat
/-- FREE VALUE (log 7): how a list of streams stands in its field. -/
opaque streamListCode : List StreamId → Nat
/-- FREE VALUE (log 7): what a payload holds in the place of a field it does not report. -/
opaque unreportedBits : Nat → Nat → Nat
/-- FREE VALUE (log 7): the bytes of a payload, from the widths and bits of its fields. -/
opaque payloadLayout : Nat → List (Nat × Nat) → List Byte
/-- FREE VALUE (log 31): the unreserved space reported while the slots in use and the reservations exceed the ring size,
from those three numbers. -/
opaque overfullSpace : Nat → Nat → Nat → Nat
/-- FREE VALUE (log 10): whether the first of two counts exactly 2^31 apart is ahead of the second. -/
opaque halfwayAhead : Count32 → Count32 → Bool
/-- FREE VALUE (log 11): the line of a computed byte address at or above 2^40. -/
opaque overrunLine : Nat → Addr

end Config

end Sys2Proof
end

