-- ==== Sys2Proof/Syntax.lean ====
section
/-! DEFINITION. The commands of the RW2280: one constructor for each row of spec/opcode_table.json. -/

namespace Sys2Proof

/-- The identifier every completion carries: slot number and issue number (R126). -/
structure OpId where
  slot : SlotNo
  issue : IssueNo
deriving DecidableEq, Repr

/-- A completion of the downstream link (R125). -/
inductive Completion where
  | data (d : LineData)
  | persisted
  | error
deriving DecidableEq, Repr

/-- How the programming of a store bank ends (R171). -/
inductive ProgrammingEnd where
  | verified
  | programmingFault
  | readBackMismatch
  | limitElapsed
deriving DecidableEq, Repr

/-- The commands, row by row of the table. A management command carries its frame's sequence number and
argument bytes (R164); a completion carries its identifier and kind (R128). -/
inductive Instr where
  | read (stream : StreamId) (tag : Tag) (addr : Addr)
  | write (stream : StreamId) (tag : Tag) (addr : Addr) (mask : ByteMask) (data : LineData)
  | barrier (stream : StreamId) (tag : Tag)
  | upstreamCommit (stream : StreamId) (tag : Tag)
  | identify (seq : Byte) (args : List Byte)
  | readStatus (seq : Byte) (args : List Byte)
  | readContext (seq : Byte) (args : List Byte)
  | readEvents (seq : Byte) (args : List Byte)
  | ackEvents (seq : Byte) (args : List Byte)
  | setEventMask (seq : Byte) (args : List Byte)
  | readConfig (seq : Byte) (args : List Byte)
  | writeConfig (seq : Byte) (args : List Byte)
  | apply (seq : Byte) (args : List Byte)
  | load (seq : Byte) (args : List Byte)
  | store (seq : Byte) (args : List Byte)
  | storeProgrammingEnd (how : ProgrammingEnd)
  | managementCommit (seq : Byte) (args : List Byte)
  | abort (seq : Byte) (args : List Byte)
  | clearFault (seq : Byte) (args : List Byte)
  | forceRetire (seq : Byte) (args : List Byte)
  | format (seq : Byte) (args : List Byte)
  | warmReset (seq : Byte) (args : List Byte)
  | commandFrameRejected (frame : List Byte)
  | resetNLow
  | coldReset (powerUp : Bool)
  | powerFailNotice (asserted : Bool)
  | idleTimerExpiry (ctx : CtxId)
  | groupTimerExpiry
  | conflictWaitExpiry (stream : StreamId)
  | captureStallExpiry (stream : StreamId)
  | downstreamTimeout (slot : SlotNo)
  | strayCompletion (id : OpId) (kind : Completion)
  | passThroughReadDone (id : OpId) (kind : Completion)
  | directWriteDone (id : OpId) (kind : Completion)
  | captureReadDone (id : OpId) (kind : Completion)
  | releaseWriteDone (id : OpId) (kind : Completion)
  | detachedWriteDone (id : OpId) (kind : Completion)
  | slotBurstDone (id : OpId) (kind : Completion)
  | anchorWriteDone (id : OpId) (kind : Completion)
  | restoreReadDone (id : OpId) (kind : Completion)
  | restoreWriteDone (id : OpId) (kind : Completion)
  | recoveryReadDone (id : OpId) (kind : Completion)
  | recoveryWriteDone (id : OpId) (kind : Completion)
deriving DecidableEq, Repr

end Sys2Proof
end

