-- ==== Sys2Proof/Machine/Layout.lean ====
section
/-! DEFINITION. Record and frame layouts (spec/11): bytes, CRC-32, CRC-8, header slots, anchor copies, the judging of
a management frame. -/

namespace Sys2Proof.Machine

/-! ## Bytes -/

/-- Byte i of a line or slot (11.2). -/
def lineByte (d : LineData) (i : Nat) : Byte := d.extractLsb' (8 * i) 8

/-- Bytes 0 to n-1 of a line or slot. -/
def lineBytes (d : LineData) (n : Nat) : List Byte := (List.range n).map (lineByte d)

/-- The n bytes of a number, least significant first (11: every multi-byte field is little-endian). -/
def leBytes : Nat → Nat → List Byte
  | 0, _ => []
  | n + 1, x => BitVec.ofNat 8 x :: leBytes n (x / 256)

/-- The number that little-endian bytes spell. -/
def leNat : List Byte → Nat
  | [] => 0
  | b :: bs => b.toNat + 256 * leNat bs

/-! ## CRC-32 of ring slots and anchor copies (R175) -/

/-- One bit of the reflected CRC-32. -/
def crc32Bit (c : BitVec 32) : BitVec 32 :=
  if c.getLsbD 0 then (c >>> 1) ^^^ 0xEDB88320#32 else c >>> 1

/-- One byte of the CRC-32, least significant bit first. -/
def crc32Byte (c : BitVec 32) (b : Byte) : BitVec 32 :=
  crc32Bit (crc32Bit (crc32Bit (crc32Bit (crc32Bit (crc32Bit (crc32Bit (crc32Bit (c ^^^ b.setWidth 32))))))))

/-- CRC-32 of a byte string: register from FFFFFFFFh, result XORed with FFFFFFFFh (R175). -/
def crc32 (bs : List Byte) : BitVec 32 := bs.foldl crc32Byte 0xFFFFFFFF#32 ^^^ 0xFFFFFFFF#32

/-! ## CRC-8 of frames and responses (R176) -/

/-- One bit of the CRC-8, polynomial 07h. -/
def crc8Bit (c : Byte) : Byte := if c.getLsbD 7 then (c <<< 1) ^^^ 0x07#8 else c <<< 1

/-- One byte of the CRC-8, most significant bit first. -/
def crc8Byte (c b : Byte) : Byte :=
  crc8Bit (crc8Bit (crc8Bit (crc8Bit (crc8Bit (crc8Bit (crc8Bit (crc8Bit (c ^^^ b))))))))

/-- CRC-8 of a byte string: register from 00h, no final XOR (R176). -/
def crc8 (bs : List Byte) : Byte := bs.foldl crc8Byte 0#8

/-! ## Header slots (11.1) -/

/-- The three kinds of record (R63). -/
inductive RecordKind where
  | undo | commit | retire
deriving DecidableEq, Repr

/-- The code of a record kind (11.1). -/
def RecordKind.code : RecordKind → Byte
  | .undo => 1#8
  | .commit => 2#8
  | .retire => 3#8

/-- The kind a header names, when byte 0 is 01h to 03h and byte 1 is 0 to 7 (R175). -/
def headerKind (h : LineData) : Option RecordKind :=
  if (lineByte h 1).toNat < 8 then
    if lineByte h 0 = 1#8 then some .undo
    else if lineByte h 0 = 2#8 then some .commit
    else if lineByte h 0 = 3#8 then some .retire
    else none
  else none

/-- The context field of a header, byte 1. -/
def headerCtx (h : LineData) : CtxId := Fin.ofNat 8 (lineByte h 1).toNat
/-- The slot sequence of a header, offset 4. -/
def headerSeq (h : LineData) : Count32 := h.extractLsb' 32 32
/-- The epoch number of a header, offset 8. -/
def headerEpoch (h : LineData) : Epoch := h.extractLsb' 64 48
/-- The line address field of a header, offset 16, as read. -/
def headerLine (h : LineData) : Addr := h.extractLsb' 128 40
/-- The stored check of a header slot or an anchor copy, offset 60. -/
def storedCheck (h : LineData) : BitVec 32 := h.extractLsb' 480 32

/-- The check of a header: format count, bytes 0 to 59, and the data slot for UNDO (R175). -/
def headerCheck (formatCount : Count32) (h : LineData) (data : Option LineData) : BitVec 32 :=
  crc32 (leBytes 4 formatCount.toNat ++ lineBytes h 60 ++ (data.map (lineBytes · 64)).getD [])

/-- Places a value at a byte offset of a slot that holds zero there. -/
def placeAt (offset : Nat) {w : Nat} (x : BitVec w) (d : LineData) : LineData :=
  d ||| (x.setWidth 512 <<< (8 * offset))

/-- A header slot as the Journal Writer stages it (R71, 11.1). A marker carries zero in the line field. -/
def buildHeader (formatCount : Count32) (k : RecordKind) (c : CtxId) (seq : Count32) (e : Epoch) (line : Addr)
    (data : Option LineData) : LineData :=
  let h := placeAt 0 k.code (placeAt 1 (BitVec.ofNat 8 c.val) (placeAt 4 seq (placeAt 8 e (placeAt 16 line 0))))
  placeAt 60 (headerCheck formatCount h data) h

/-! ## Anchor copies (11.1) -/

/-- The fields of an anchor copy. -/
structure AnchorFields where
  generation : Count32
  headIdx : BitVec 32
  headSeq : Count32
  nextEpoch : Epoch
  ringSize : BitVec 32
  formatCount : Count32
deriving DecidableEq, Repr

/-- The fields of an anchor copy as read. -/
def readAnchor (d : LineData) : AnchorFields where
  generation := d.extractLsb' 0 32
  headIdx := d.extractLsb' 32 32
  headSeq := d.extractLsb' 64 32
  nextEpoch := d.extractLsb' 96 48
  ringSize := d.extractLsb' 160 32
  formatCount := d.extractLsb' 192 32

/-- An anchor copy with its check (R78, R175). -/
def buildAnchor (f : AnchorFields) : LineData :=
  let d := placeAt 0 f.generation (placeAt 4 f.headIdx (placeAt 8 f.headSeq (placeAt 12 f.nextEpoch
    (placeAt 20 f.ringSize (placeAt 24 f.formatCount 0)))))
  placeAt 60 (crc32 (lineBytes d 60)) d

/-- A ring size of R61 other than 0: a power of two from 1,024 to 4,194,304. -/
def legalRingSize (n : Nat) : Bool :=
  decide (Config.ringMin ≤ n) && decide (n ≤ Config.ringMax) && decide (2 ^ Nat.log2 n = n)

/-- A copy is valid when its check matches, its ring size is legal and its head index is below it (R76). -/
def anchorValid (d : LineData) : Bool :=
  let f := readAnchor d
  (storedCheck d == crc32 (lineBytes d 60)) && legalRingSize f.ringSize.toNat
    && decide (f.headIdx.toNat < f.ringSize.toNat)

/-- One count is ahead of another modulo 2^32 (R76, R156, R171). Exactly 2^31 apart is left free (log 10). -/
def aheadOf (a b : Count32) : Bool :=
  let d := (a - b).toNat
  if d = 0 then false
  else if d < 2 ^ 31 then true
  else if d = 2 ^ 31 then Config.halfwayAhead a b
  else false

/-! ## Management frames (11.3, R164) -/

/-- The management commands, in the order of the code table. -/
inductive CommandCode where
  | identify | readStatus | readContext | readEvents | ackEvents | setEventMask | readConfig | writeConfig | apply
  | load | store | commit | abort | clearFault | forceRetire | format | warmReset
deriving DecidableEq, Repr

/-- The command a code byte names (11.3). -/
def commandOfCode (b : Byte) : Option CommandCode :=
  match b.toNat with
  | 0x01 => some .identify
  | 0x02 => some .readStatus
  | 0x03 => some .readContext
  | 0x04 => some .readEvents
  | 0x05 => some .ackEvents
  | 0x06 => some .setEventMask
  | 0x10 => some .readConfig
  | 0x11 => some .writeConfig
  | 0x12 => some .apply
  | 0x13 => some .load
  | 0x14 => some .store
  | 0x20 => some .commit
  | 0x21 => some .abort
  | 0x22 => some .clearFault
  | 0x23 => some .forceRetire
  | 0x30 => some .format
  | 0x3F => some .warmReset
  | _ => none

/-- What the first three tests of R164 make of a frame. -/
inductive FrameVerdict where
  | frameError (seq : Byte)
  | unknownCommand (seq : Byte)
  | command (c : CommandCode) (seq : Byte) (args : List Byte)
deriving DecidableEq, Repr

/-- The sequence number a FRAME_ERROR response echoes: byte 1, or 0 when the frame is shorter than two bytes (R164). -/
def echoedSeq : List Byte → Byte
  | _ :: s :: _ => s
  | _ => 0#8

/-- The tests of R164 up to the command code: length, then CRC-8, then the code. -/
def judgeFrame (f : List Byte) : FrameVerdict :=
  match f with
  | code :: seq :: len :: rest =>
    if decide (len.toNat ≤ 48) && decide (f.length = 4 + len.toNat) then
      if rest.getLast? = some (crc8 f.dropLast) then
        match commandOfCode code with
        | some c => .command c seq rest.dropLast
        | none => .unknownCommand seq
      else .frameError seq
    else .frameError seq
  | _ => .frameError (echoedSeq f)

end Sys2Proof.Machine
end

