-- ==== Sys2Proof/Machine/State.lean ====
section
/-! DEFINITION. The state of the RW2280, block by block, as plain data. -/

namespace Sys2Proof.Machine

/-! ## Request Port (spec/08) -/

/-- Statuses of the upstream link (11.2). -/
inductive UpStatus where
  | okay | unmapped | readOnly | notPermitted | unbound | malformed | capacity | conflictTimeout | journalFull
  | journalUnavailable | contextFaulted | memory | aborted | power
deriving DecidableEq, Repr

/-- The four request kinds (R138). -/
inductive RequestKind where
  | read (addr : Addr)
  | write (addr : Addr) (mask : ByteMask) (data : LineData)
  | barrier
  | commit
deriving DecidableEq, Repr

/-- A request in a stream's queue (R138). -/
structure Request where
  tag : Tag
  kind : RequestKind
deriving DecidableEq, Repr

/-- Responses on the upstream link, with the restart indication (R140, R149). -/
inductive Response where
  | data (tag : Tag) (status : UpStatus) (bytes : Option LineData)
  | ack (tag : Tag) (status : UpStatus)
  | done (tag : Tag) (status : UpStatus)
  | restart
deriving DecidableEq, Repr

/-- The causes of a stall (R147). -/
inductive StallCause where
  | recovering | formatting | restoring | context | conflict | capture | heldFull
deriving DecidableEq, Repr

/-- How far the current request has got. -/
inductive Phase where
  /-- The queue is empty. -/
  | idle
  /-- To be handled, or classified again, within the event in progress. -/
  | fresh
  /-- Stalled, with the stall record's cause (R147). -/
  | stalled (cause : StallCause)
  /-- A READ whose data is being obtained (R141). -/
  | reading
  /-- A BARRIER that waits, with the lines of R145. -/
  | barrier (lines : List Addr)
  /-- A COMMIT among the commit waiters (R146). -/
  | commitWaiter
  /-- A WRITE held while the outstanding-write count is 65,535 (R142). -/
  | countHold
deriving DecidableEq, Repr

/-- A conflict-wait record (R53), with the epoch of the entry waited on (R55). -/
structure ConflictWait where
  line : Addr
  ctx : CtxId
  epoch : Epoch
  deadline : Nat
deriving DecidableEq, Repr

/-- Why an accepted write was lost (R143). -/
inductive LossReason where
  | memory | contextFaulted
deriving DecidableEq, Repr

/-- One stream record (R137). `sent` lists the responses sent on the stream, oldest first (log 21). -/
structure StreamRec where
  queue : List Request
  phase : Phase
  conflict : Option ConflictWait
  captureStall : Option Nat
  outstanding : Nat
  loss : Option LossReason
  sent : List Response
deriving DecidableEq, Repr

/-- The Request Port. -/
structure RequestPort where
  streams : Vector StreamRec 16
deriving DecidableEq, Repr

/-! ## Epoch Controller (spec/02, spec/06) -/

/-- Context states (R20). -/
inductive CtxState where
  | idle | opened | draining | marking | rollback | faulted
deriving DecidableEq, Repr

/-- Downstream status of a failed operation (R127). -/
inductive DownStatus where
  | error | timeout
deriving DecidableEq, Repr

/-- Fault kinds (R35). -/
inductive FaultKind where
  | captureReadFailed | releaseWriteFailed | journalFailed | restoreReadFailed | restoreWriteFailed
deriving DecidableEq, Repr

/-- A fault record (R35). -/
structure FaultRecord where
  kind : FaultKind
  epoch : Epoch
  line : Option Addr
  stream : Option StreamId
  status : Option DownStatus
deriving DecidableEq, Repr

/-- The abort outcome field (R19). -/
inductive AbortOutcome where
  | restored | failed | forced
deriving DecidableEq, Repr

/-- A ring pointer: slot index with its sequence (R62, R65). -/
structure RingPtr where
  idx : Nat
  seq : Count32
deriving DecidableEq, Repr

/-- Mode of a rollback (R111). -/
inductive RollbackMode where
  | restore | retireOnly
deriving DecidableEq, Repr

/-- Phase of a rollback (R111). -/
inductive RollbackPhase where
  | quiesce | restore | retire
deriving DecidableEq, Repr

/-- The operation a restore slot has in flight (R111). -/
inductive RestoreOp where
  | idle | read | write
deriving DecidableEq, Repr

/-- An occupied restore slot (R111). -/
structure RestoreSlot where
  line : Addr
  pos : RingPtr
  oldData : Option LineData
  op : RestoreOp
deriving DecidableEq, Repr

/-- A rollback record (R111); `slots` lists the occupied ones of its 8 restore slots. -/
structure Rollback where
  mode : RollbackMode
  phase : RollbackPhase
  slots : List RestoreSlot
  linesRestored : Nat
deriving DecidableEq, Repr

/-- A context record (R19). The tracked-line count, quota and idle interval are views (log 24). The idle timer is
kept as the time it expires at. -/
structure Context where
  state : CtxState
  epoch : Option Epoch
  undoCount : Nat
  idleTimer : Option Nat
  waiters : List StreamId
  mgmtWaiter : Bool
  fault : Option FaultRecord
  abortOutcome : Option AbortOutcome
  rollback : Option Rollback
deriving DecidableEq, Repr

/-- The Epoch Controller (R19, R26). -/
structure EpochController where
  ctxs : Vector Context 8
  counter : Epoch
deriving DecidableEq, Repr

/-! ## Line Tracking Table (spec/03) -/

/-- Entry states (R42). -/
inductive TrackState where
  | capturing | logged | restoring | restored
deriving DecidableEq, Repr

/-- A tracking entry (R41). `capture` is the identity of the capture it caused (R45) and `stream` the stream of its
first touch (R35). -/
structure TrackEntry where
  line : Addr
  ctx : CtxId
  epoch : Epoch
  state : TrackState
  pos : Option RingPtr
  capture : Nat
  stream : StreamId
deriving DecidableEq, Repr

/-! ## Journal Writer (spec/04) -/

/-- Journal states (R82). -/
inductive JournalState where
  | unformatted | formatting | recovering | ready | failed | safe
deriving DecidableEq, Repr

/-- Reasons kept with UNFORMATTED and FAILED (R82). -/
inductive JournalReason where
  | noArea | noAnchor | geometryChanged
  | recordWriteFailed | anchorWriteFailed | epochExhausted | ringInconsistent | recoveryReadFailed | recoveryWriteFailed
deriving DecidableEq, Repr

/-- An entry of the live-epoch list (R68). -/
structure LiveEpoch where
  epoch : Epoch
  ctx : CtxId
  first : RingPtr
deriving DecidableEq, Repr

/-- What a staged slot holds: the header or data slot of the UNDO record of a capture, or a marker. -/
inductive SlotUse where
  | undoHeader (capture : Nat)
  | undoData (capture : Nat)
  | marker (kind : RecordKind) (ctx : CtxId) (epoch : Epoch)
deriving DecidableEq, Repr

/-- An occupied slot of the staging buffer (R70). -/
structure StagedSlot where
  bytes : LineData
  pos : RingPtr
  inFlight : Bool
  use : SlotUse
deriving DecidableEq, Repr

/-- A marker waiting for a buffer slot (R70). -/
structure MarkerRequest where
  kind : RecordKind
  ctx : CtxId
deriving DecidableEq, Repr

/-- Who placed a durability demand (R72). -/
inductive DemandSource where
  | barrier (s : StreamId)
  | drain (c : CtxId)
  | rollback (c : CtxId)
deriving DecidableEq, Repr

/-- A standing durability demand: the sequence of the staged slot it names (R72). -/
structure Demand where
  seq : Count32
  source : DemandSource
deriving DecidableEq, Repr

/-- The group timer (R72). -/
inductive GroupTimer where
  | stopped
  | running (expires : Nat)
  | due
deriving DecidableEq, Repr

/-- The two anchor copies (R76). -/
inductive AnchorCopy where
  | a | b
deriving DecidableEq, Repr

/-- The anchor state (R76); the anchored head is the Journal Writer's pointer. -/
structure AnchorState where
  genA : Count32
  genB : Count32
  suspectA : Bool
  suspectB : Bool
  failures : Nat
  busy : Bool
  formatCount : Count32
deriving DecidableEq, Repr

/-- The Journal Writer (R61 to R86). `formatWaits`: copy A of a FORMAT waits for an earlier anchor write (R84). -/
structure JournalWriter where
  state : JournalState
  reason : Option JournalReason
  notice : Bool
  tail : RingPtr
  durable : RingPtr
  head : RingPtr
  anchored : RingPtr
  reserved : Nat
  live : List LiveEpoch
  staging : List StagedSlot
  promises : List Nat
  captureQueue : List Nat
  markerQueue : List MarkerRequest
  demands : List Demand
  groupTimer : GroupTimer
  pause : Bool
  anchor : AnchorState
  formatWaits : Bool
deriving DecidableEq, Repr

/-! ## Held Write Queue (spec/05) -/

/-- States of a held entry (R88). -/
inductive HeldState where
  | waitLog | ready | issued
deriving DecidableEq, Repr

/-- A held entry (R87). -/
structure HeldEntry where
  stream : StreamId
  contributors : List (StreamId × Nat)
  ctx : CtxId
  line : Addr
  mask : ByteMask
  data : LineData
  state : HeldState
  loss : Bool
deriving DecidableEq, Repr

/-- A detached write (R99, R123). -/
structure Detached where
  line : Addr
  mask : ByteMask
  data : LineData
  contributors : List (StreamId × Nat)
deriving DecidableEq, Repr

/-- The overlay record of an outstanding journaled read, named by the reading stream (R100). -/
structure Overlay where
  stream : StreamId
  line : Addr
  mask : ByteMask
  data : LineData
deriving DecidableEq, Repr

/-- The Held Write Queue (R87, R99, R100). -/
structure HeldQueue where
  entries : List HeldEntry
  detached : List Detached
  overlays : List Overlay
deriving DecidableEq, Repr

/-! ## Memory Port (spec/07) -/

/-- The four downstream operations (R125). -/
inductive MemOp where
  | lineRead (line : Addr)
  | lineWrite (line : Addr) (mask : ByteMask) (data : LineData)
  | slotBurst (first : Addr) (slots : List LineData)
  | anchorWrite (line : Addr) (bytes : LineData)
deriving DecidableEq, Repr

/-- The six classes of the arbiter, the first the highest (R129). -/
inductive MemClass where
  | anchor | burst | restore | capture | release | passThrough
deriving DecidableEq, Repr

/-- What an anchor write is for: an update with the copy, generation and head it carries (R78), FORMAT's copies (R84),
the finish step's copies (R160). -/
inductive AnchorPurpose where
  | update (copy : AnchorCopy) (gen : Count32) (head : RingPtr)
  | formatA
  | formatB
  | finishFirst
  | finishSecond
deriving DecidableEq, Repr

/-- What a recovery read is for (R156, R157, R159). -/
inductive RecoveryRead where
  | anchor (copy : AnchorCopy)
  | header
  | dataSlot
deriving DecidableEq, Repr

/-- The owner to which the end of an operation goes (R132). `stale` is a burst or anchor write left to end by FORMAT
(R84) and `dropped` a restore read left to end by it (R123); `orphan` is an operation left by a warm reset (R136). -/
inductive Owner where
  | passRead (stream : StreamId) (journaled : Bool)
  | directWrite (stream : StreamId)
  | capture (id : Nat)
  | release (line : Addr)
  | detached (line : Addr)
  | burst
  | anchor (purpose : AnchorPurpose)
  | restoreRead (ctx : CtxId) (line : Addr)
  | restoreWrite (ctx : CtxId) (line : Addr)
  | recoveryRead (what : RecoveryRead)
  | recoveryWrite
  | staleBurst
  | staleAnchor
  | dropped
  | orphan
deriving DecidableEq, Repr

/-- A waiting request (R126); `order` numbers the hand-overs (R131). -/
structure MemRequest where
  op : MemOp
  cls : MemClass
  owner : Owner
  order : Nat
deriving DecidableEq, Repr

/-- An outstanding operation with the time its timer expires (R127). -/
structure Outstanding where
  op : MemOp
  cls : MemClass
  owner : Owner
  order : Nat
  deadline : Nat
deriving DecidableEq, Repr

/-- The pass-over counts of the six classes (R130). -/
structure PassOver where
  anchor : Nat
  burst : Nat
  restore : Nat
  capture : Nat
  release : Nat
  passThrough : Nat
deriving DecidableEq, Repr

/-- The Memory Port (R126 to R136). -/
structure MemoryPort where
  waiting : List MemRequest
  slots : Vector (Option Outstanding) 32
  issue : Vector IssueNo 32
  passOver : PassOver
  nextOrder : Nat
deriving DecidableEq, Repr

/-! ## Recovery Engine (spec/09) -/

/-- Phases of recovery (R155). -/
inductive RecoveryPhase where
  | anchor | scan | restore | finish | ended
deriving DecidableEq, Repr

/-- The chosen anchor (R155). -/
structure ChosenAnchor where
  copy : AnchorCopy
  generation : Count32
  head : RingPtr
  nextEpoch : Epoch
  ringSize : Nat
  formatCount : Count32
deriving DecidableEq, Repr

/-- An entry of the recovery epoch table (R158). -/
structure RecoveryEpoch where
  epoch : Epoch
  ctx : CtxId
  complete : Bool
deriving DecidableEq, Repr

/-- What recovery waits for within its phase. -/
inductive RecoveryStep where
  | idle
  | anchors
  | header
  | dataSlot (header : LineData)
  /-- 8 recovery writes are in flight (R159). -/
  | writesFull
  /-- The restore pass has reached the end of log and waits for its last writes (R159). -/
  | lastWrites
deriving DecidableEq, Repr

/-- Outcome of a recovery (R161). -/
inductive RecoveryOutcome where
  | ready
  | unformatted (r : JournalReason)
  | failed (r : JournalReason)
deriving DecidableEq, Repr

/-- The recovery summary (R161). -/
structure RecoverySummary where
  outcome : Option RecoveryOutcome
  anchorUsed : Option AnchorCopy
  endOfLog : Option RingPtr
  epochsUndone : Nat
  linesRestored : Nat
deriving DecidableEq, Repr

/-- The Recovery Engine (R155). `found` lists the kinds of the records the scan pass took, and `toVisit` those the
restore pass still has before it (R159). `noticed`: the power-fail notice was taken during recovery (R151, R161). -/
structure RecoveryEngine where
  phase : RecoveryPhase
  anchorA : Option LineData
  anchorB : Option LineData
  chosen : Option ChosenAnchor
  pos : RingPtr
  passed : Nat
  endOfLog : Option RingPtr
  table : List RecoveryEpoch
  largest : Epoch
  writes : Nat
  step : RecoveryStep
  found : List RecordKind
  toVisit : List RecordKind
  noticed : Bool
  summary : RecoverySummary
deriving DecidableEq, Repr

/-! ## Event Unit (spec/10) -/

/-- Reasons of the last refusal record (R173). -/
inductive RefusalReason where
  | capacity | conflictTimeout | journalFull
deriving DecidableEq, Repr

/-- The last refusal record (R173). -/
structure LastRefusal where
  stream : StreamId
  line : Addr
  reason : RefusalReason
deriving DecidableEq, Repr

/-- The Event Unit (R172, R173); bit n of the pending set and of the mask is flag n of 11.3. -/
structure EventUnit where
  pending : BitVec 18
  mask : BitVec 18
  lastRefusal : Option LastRefusal
  lastPortError : Option StreamId
deriving DecidableEq, Repr

/-! ## Management Port (spec/10) -/

/-- Statuses of management responses (R165). -/
inductive MgmtStatus where
  | ok | started | busy | refusedState | invalid | tooLate | unknownCommand | frameError | noResponse
deriving DecidableEq, Repr

/-- Outcome of the last STORE (R171). -/
inductive StoreOutcome where
  | ok | failed
deriving DecidableEq, Repr

/-- One bank of the Configuration Store (R171); `valid` says that its check matches (log 20). -/
structure Bank where
  image : Image
  generation : Count32
  valid : Bool
deriving DecidableEq, Repr

/-- A STORE in progress: target bank, captured image and generation, time it started (R171). -/
structure Programming where
  target : Fin 2
  image : Image
  generation : Count32
  started : Nat
deriving DecidableEq, Repr

/-- The payload of READ_STATUS (R166). -/
structure StatusPayload where
  journalState : JournalState
  reason : Option JournalReason
  notice : Bool
  pause : Bool
  head : Nat
  anchoredHead : Nat
  tail : Nat
  durableTail : Nat
  unreserved : Nat
  liveEpochs : Nat
  trackingEntries : Nat
  heldEntries : Nat
  nextEpoch : Epoch
  lastRefusal : Option LastRefusal
  lastPortError : Option StreamId
  summary : RecoverySummary
  recoveryAt : Option (RecoveryPhase × RingPtr × Nat)
  currentBank : Option (Fin 2)
  generation0 : Option Count32
  generation1 : Option Count32
  programming : Bool
  storeOutcome : Option StoreOutcome
deriving DecidableEq, Repr

/-- The payload of READ_CONTEXT (R166); an absent epoch is given as 0 (R176). -/
structure ContextPayload where
  number : CtxId
  state : CtxState
  epoch : Epoch
  undoCount : Nat
  trackedLines : Nat
  quota : BitVec 16
  idleInterval : BitVec 16
  idleRemaining : Option Nat
  waiters : List StreamId
  mgmtWaiter : Bool
  fault : Option FaultRecord
  abortOutcome : Option AbortOutcome
  rollback : Option (RollbackMode × RollbackPhase × Nat)
deriving DecidableEq, Repr

/-- The payload of IDENTIFY (R166). -/
structure IdentityPayload where
  streams : Nat
  contexts : Nat
  windows : Nat
  trackingEntries : Nat
  heldEntries : Nat
  stagingSlots : Nat
  outstandingOps : Nat
  largestRing : Nat
deriving DecidableEq, Repr

/-- Payloads of management responses (R166, R176). -/
inductive Payload where
  | empty
  | identity (p : IdentityPayload)
  | status (p : StatusPayload)
  | context (p : ContextPayload)
  | events (pending mask : BitVec 18)
  | config (value : List Byte)
  /-- INVALID, an argument failed (R176). -/
  | invalidArgument (n : Nat)
  /-- INVALID, a configuration item failed (R176). -/
  | invalidItem (code : Byte)
deriving DecidableEq, Repr

/-- The response buffer (R165). -/
structure MgmtResponse where
  seq : Byte
  status : MgmtStatus
  payload : Payload
deriving DecidableEq, Repr

/-- The Management Port (R165, R167, R171). -/
structure Management where
  staged : Image
  active : Image
  banks : Vector Bank 2
  current : Option (Fin 2)
  programming : Option Programming
  outcome : Option StoreOutcome
  response : MgmtResponse
deriving DecidableEq, Repr

/-! ## The whole part -/

/-- Input pins: RESET_N low, and the level of PFAIL (R150, R153). -/
structure Pins where
  resetLow : Bool
  pfail : Bool
deriving DecidableEq, Repr

/-- The choices no rule makes (log 2): a script taken first, then Config.freeChoice at a counter. -/
structure FreeChoices where
  script : List Nat
  count : Nat
deriving DecidableEq, Repr

/-- The blocks on and beside the data path; the Window Map holds nothing but the active image (R18). `clock` is the
time in µs (log 1) and `nextCapture` numbers the captures (log 23). -/
structure Blocks where
  req : RequestPort
  epochs : EpochController
  track : List TrackEntry
  journal : JournalWriter
  held : HeldQueue
  mem : MemoryPort
  recovery : RecoveryEngine
  events : EventUnit
  clock : Nat
  nextCapture : Nat
  free : FreeChoices
deriving DecidableEq, Repr

/-- The state of the part, and the queue of the commands that wait. -/
structure State where
  blocks : Blocks
  mgmt : Management
  pins : Pins
  pending : List Instr
deriving DecidableEq, Repr

/-- Why a step stops with a fault: never. Every failure the manual names is an effect on State, so there is no
constructor and nobody raises one (safe: nothing is cut off). -/
inductive Fault where
deriving DecidableEq, Repr

/-- Why a command has no meaning. -/
inductive Refusal where
  /-- Raised only by an arm of `exec` for a command that has no meaning yet; no arm does so now. Safe: the machine
  stops, and nothing can be proved of a command not modelled. -/
  | notModelled (mnemonic : String)
deriving DecidableEq, Repr

/-! ## Reset (log 4): a part with a blank store, powered up with PFAIL not asserted -/

/-- A stream record after a reset: the restart indication has been sent (R149). -/
def StreamRec.reset : StreamRec := ⟨[], .idle, none, none, 0, none, [.restart]⟩

/-- A context record after a reset (R40). -/
def Context.reset : Context := ⟨.idle, none, 0, none, [], false, none, none, none⟩

/-- Ring pointers after a reset (R86). -/
def RingPtr.zero : RingPtr := ⟨0, 0⟩

/-- The anchor state after a reset (R86). -/
def AnchorState.reset : AnchorState := ⟨0, 0, false, false, 0, false, 0⟩

/-- The Journal Writer at a reset (R86). -/
def JournalWriter.atReset : JournalWriter where
  state := .recovering
  reason := none
  notice := false
  tail := .zero
  durable := .zero
  head := .zero
  anchored := .zero
  reserved := 0
  live := []
  staging := []
  promises := []
  captureQueue := []
  markerQueue := []
  demands := []
  groupTimer := .stopped
  pause := false
  anchor := .reset
  formatWaits := false

/-- The recovery summary cleared (R161). -/
def RecoverySummary.cleared : RecoverySummary := ⟨none, none, none, 0, 0⟩

/-- The Recovery Engine at a reset (R155). -/
def RecoveryEngine.atReset : RecoveryEngine :=
  ⟨.anchor, none, none, none, .zero, 0, none, [], 0, 0, .idle, [], [], false, .cleared⟩

/-- The Memory Port at power-up (R126, R136). -/
def MemoryPort.powerUp : MemoryPort :=
  ⟨[], Vector.replicate 32 none, Vector.replicate 32 0, ⟨0, 0, 0, 0, 0, 0⟩, 0⟩

/-- The response buffer after a cold reset (R165). -/
def MgmtResponse.none : MgmtResponse := ⟨0, .noResponse, .empty⟩

/-- An invalid bank of a blank store (log 4). -/
def Bank.blank : Bank := ⟨Config.defaults, 0, false⟩

/-- The Management Port after a cold reset with a blank store (R174). -/
def Management.reset : Management :=
  ⟨Config.defaults, Config.defaults, Vector.replicate 2 Bank.blank, Option.none, Option.none, Option.none, .none⟩

/-- The blocks right after power-up of a part with a blank store: every block at its cold-reset values, and the
recovery that R156 ends at once because the ring size is 0 (journal UNFORMATTED, reason NO_AREA; RECOVERY_DONE, flag
12, pending by R161). -/
def Blocks.reset : Blocks where
  req := ⟨Vector.replicate 16 StreamRec.reset⟩
  epochs := ⟨Vector.replicate 8 Context.reset, 1⟩
  track := []
  journal := { JournalWriter.atReset with state := .unformatted, reason := some .noArea }
  held := ⟨[], [], []⟩
  mem := .powerUp
  recovery := { RecoveryEngine.atReset with
    phase := .ended, summary := { RecoverySummary.cleared with outcome := some (.unformatted .noArea) } }
  events := ⟨1#18 <<< 12, 0, none, none⟩
  clock := 0
  nextCapture := 0
  free := ⟨[], 0⟩

/-- The machine right after reset (log 4). -/
def State.reset : State := ⟨.reset, .reset, ⟨false, false⟩, []⟩

end Sys2Proof.Machine
end

