-- ==== Sys2Proof/Machine/Ops.lean ====
section
/-! DEFINITION. Named operations over the registers of the blocks: one home for every update, free choices, line and
ring arithmetic, views. -/

namespace Sys2Proof

/-! ## What an image resolves to (R61) -/

/-- The ring size N of an image. -/
def Image.ringN (cfg : Image) : Nat := cfg.journal.ringSize.toNat

/-- A level with AUTO resolved to a part of the ring size (R61). -/
def Level.resolve (auto : Nat) : Level → Nat
  | .auto => auto
  | .slots n => n.toNat

/-- The anchor stride in force (R61). -/
def Image.stride (cfg : Image) : Nat := cfg.journal.anchorStride.resolve (cfg.ringN / 16)
/-- The pause level in force (R61). -/
def Image.pauseAt (cfg : Image) : Nat := cfg.journal.pauseLevel.resolve (cfg.ringN / 16)
/-- The resume level in force (R61). -/
def Image.resumeAt (cfg : Image) : Nat := cfg.journal.resumeLevel.resolve (cfg.ringN / 8)

end Sys2Proof

namespace Sys2Proof.Machine

/-! ## Updates of the blocks -/

/-- Updates the record of stream i. -/
def Blocks.modStream (b : Blocks) (i : StreamId) (f : StreamRec → StreamRec) : Blocks :=
  { b with req := ⟨b.req.streams.set i.val (f b.req.streams[i])⟩ }

/-- Updates every stream record. -/
def Blocks.mapStreams (b : Blocks) (f : StreamId → StreamRec → StreamRec) : Blocks :=
  { b with req := ⟨Vector.ofFn fun i => f i b.req.streams[i]⟩ }

/-- Updates the record of context c. -/
def Blocks.modCtx (b : Blocks) (c : CtxId) (f : Context → Context) : Blocks :=
  { b with epochs := { b.epochs with ctxs := b.epochs.ctxs.set c.val (f b.epochs.ctxs[c]) } }

/-- Updates the Journal Writer. -/
def Blocks.modJournal (b : Blocks) (f : JournalWriter → JournalWriter) : Blocks := { b with journal := f b.journal }

/-- Updates the Held Write Queue. -/
def Blocks.modHeld (b : Blocks) (f : HeldQueue → HeldQueue) : Blocks := { b with held := f b.held }

/-- Updates the Memory Port. -/
def Blocks.modMem (b : Blocks) (f : MemoryPort → MemoryPort) : Blocks := { b with mem := f b.mem }

/-- Updates the Recovery Engine. -/
def Blocks.modRecovery (b : Blocks) (f : RecoveryEngine → RecoveryEngine) : Blocks :=
  { b with recovery := f b.recovery }

/-- Updates the Event Unit. -/
def Blocks.modEvents (b : Blocks) (f : EventUnit → EventUnit) : Blocks := { b with events := f b.events }

/-- Updates the tracking entries. -/
def Blocks.modTrack (b : Blocks) (f : List TrackEntry → List TrackEntry) : Blocks := { b with track := f b.track }

/-- The record of stream i. -/
def Blocks.stream (b : Blocks) (i : StreamId) : StreamRec := b.req.streams[i]

/-- The record of context c. -/
def Blocks.ctx (b : Blocks) (c : CtxId) : Context := b.epochs.ctxs[c]

/-- The context numbers. -/
def allCtxs : List CtxId := [0, 1, 2, 3, 4, 5, 6, 7]

/-- The stream numbers. -/
def allStreams : List StreamId := [0, 1, 2, 3, 4, 5, 6, 7, 8, 9, 10, 11, 12, 13, 14, 15]

/-- The operation slot numbers. -/
def allSlots : List SlotNo :=
  [0, 1, 2, 3, 4, 5, 6, 7, 8, 9, 10, 11, 12, 13, 14, 15, 16, 17, 18, 19, 20, 21, 22, 23, 24, 25, 26, 27, 28, 29, 30, 31]

/-! ## Free choices (log 2) -/

/-- A choice below n that no rule makes. With at most one candidate nothing is chosen and nothing is used up. -/
def choose (n : Nat) (f : FreeChoices) : Nat × FreeChoices :=
  if n ≤ 1 then (0, f)
  else match f.script with
    | k :: rest => (k % n, { f with script := rest })
    | [] => (Config.freeChoice f.count % n, { f with count := f.count + 1 })

/-- One of a list of candidates, by a free choice. -/
def chooseFrom {α : Type} (l : List α) (f : FreeChoices) : Option (α × FreeChoices) :=
  (l[(choose l.length f).1]?).map fun a => (a, (choose l.length f).2)

/-! ## Lines and byte masks (R5, 11.2) -/

/-- The line of an address: its low six bits as zero (R5). -/
def lineOf (a : Addr) : Addr := a &&& ~~~63#40

/-- The line at a computed byte address; past the 40-bit space it is left free (log 11). -/
def lineAt (a : Nat) : Addr := if a < 2 ^ 40 then BitVec.ofNat 40 a else Config.overrunLine a

/-- The bits of a line that a byte mask enables. -/
def maskBits (m : ByteMask) : LineData :=
  (List.range 64).foldl (fun acc i => if m.getLsbD i then acc ||| (0xFF#512 <<< (8 * i)) else acc) 0

/-- Lays the enabled bytes of one line over another. -/
def overlay (under : LineData) (m : ByteMask) (upper : LineData) : LineData :=
  (under &&& ~~~maskBits m) ||| (upper &&& maskBits m)

/-- The mask that enables all 64 bytes. -/
def fullMask : ByteMask := BitVec.allOnes 64

/-! ## Ring arithmetic (R4, R62, R66) -/

/-- The line of ring slot i: area base + 64 × (i + 2) (R4). -/
def slotLine (cfg : Image) (i : Nat) : Addr := lineAt (cfg.journal.areaBase.toNat + 64 * (i + 2))

/-- The line of an anchor copy (R4, R76). -/
def anchorLine (cfg : Image) : AnchorCopy → Addr
  | .a => lineAt cfg.journal.areaBase.toNat
  | .b => lineAt (cfg.journal.areaBase.toNat + 64)

/-- A ring pointer moved k slots on in a ring of n slots (R62). -/
def RingPtr.advance (n k : Nat) (p : RingPtr) : RingPtr := ⟨(p.idx + k) % n, p.seq + BitVec.ofNat 32 k⟩

/-- The distance from one pointer to another, taken from the sequences (R62). -/
def RingPtr.distance (a p : RingPtr) : Nat := (p.seq - a.seq).toNat

/-- Slots in use: tail sequence minus anchored head sequence (R62). -/
def JournalWriter.inUse (j : JournalWriter) : Nat := j.anchored.distance j.tail

/-- Free space (R66). Where a change of geometry has left more slots in use than n, the subtraction stops at 0 (DESIGN
CHOICE, log 31); nothing uses that number, since the journal is then UNFORMATTED or FAILED. -/
def JournalWriter.freeSpace (j : JournalWriter) (n : Nat) : Nat := n - j.inUse

/-- Unreserved space (R66). -/
def JournalWriter.unreserved (j : JournalWriter) (n : Nat) : Nat := j.freeSpace n - j.reserved

/-- The unreserved space READ_STATUS reports: a free value where the difference would be negative, which R66 excludes
(log 31). -/
def JournalWriter.shownUnreserved (j : JournalWriter) (n : Nat) : Nat :=
  if j.inUse + j.reserved ≤ n then j.unreserved n else Config.overfullSpace j.inUse j.reserved n

/-- Buffer slots neither occupied nor promised (R70). -/
def JournalWriter.freeBuffer (j : JournalWriter) : Nat :=
  Config.stagingCapacity - j.staging.length - 2 * j.promises.length

/-- The staged slots that are not part of a burst (R72). -/
def JournalWriter.unburst (j : JournalWriter) : List StagedSlot := j.staging.filter fun s => !s.inFlight

/-- A record burst is in flight, counting from its hand-over (R129). -/
def JournalWriter.burstInFlight (j : JournalWriter) : Bool := j.staging.any fun s => s.inFlight

/-- The head as the live-epoch list gives it: the oldest entry's first slot, or the tail (R65, R68). -/
def JournalWriter.headNow (j : JournalWriter) : RingPtr := (j.live.head?.map (·.first)).getD j.tail

/-- Places a durability demand; a demand names a staged slot (R72). -/
def placeDemand (d : Demand) (b : Blocks) : Blocks :=
  b.modJournal fun j =>
    if d ∈ j.demands then j
    else if j.staging.any fun s => decide (s.pos.seq = d.seq) then { j with demands := j.demands ++ [d] }
    else j

/-- The sequence of the data slot of an UNDO record, the slot after its header (R46). -/
def RingPtr.dataSeq (p : RingPtr) : Count32 := p.seq + 1

/-! ## Views -/

/-- The tracking entry of a line, if any (R41, R43). -/
def Blocks.entryOf (b : Blocks) (line : Addr) : Option TrackEntry := b.track.find? fun e => e.line = line

/-- The tracking entries of a context. -/
def Blocks.entriesOf (b : Blocks) (c : CtxId) : List TrackEntry := b.track.filter fun e => e.ctx = c

/-- The tracked-line count of a context (R21, R44). -/
def Blocks.trackedCount (b : Blocks) (c : CtxId) : Nat := (b.entriesOf c).length

/-- The held count of a context (R87). -/
def Blocks.heldCount (b : Blocks) (c : CtxId) : Nat := (b.held.entries.filter fun e => e.ctx = c).length

/-- The outstanding operations. -/
def MemoryPort.ops (m : MemoryPort) : List Outstanding := m.slots.toList.filterMap id

/-- The Memory Port holds no outstanding operation (R135). -/
def MemoryPort.quiet (m : MemoryPort) : Bool := m.slots.toList.all fun o => o.isNone

/-- Every context is IDLE (R84, R168). -/
def Blocks.allIdle (b : Blocks) : Bool := allCtxs.all fun c => decide ((b.ctx c).state = .idle)

/-- The ring is empty in the sense of R61. -/
def JournalWriter.ringEmpty (j : JournalWriter) : Bool := j.live.isEmpty && j.staging.isEmpty && !j.anchor.busy

/-- The clock moved on to a deadline that is taken (log 1). -/
def Blocks.reachTime (b : Blocks) (t : Nat) : Blocks := { b with clock := max b.clock t }

end Sys2Proof.Machine
end

