-- ==== Sys2Proof/Machine/Flags.lean ====
section
/-! DEFINITION. The Event Unit's flags and the output pins (spec/10.6, 09 R151). -/

namespace Sys2Proof.Machine

/-- The 18 event flags (R172). -/
inductive EventFlag where
  | contextFault (c : CtxId)
  | writeRefused | capturePaused | captureResumed | journalFailed | recoveryDone | commitDone | abortDone
  | formatDone | storeDone | portError
deriving DecidableEq, Repr

/-- The bit of a flag in the pending set and the mask (11.3). -/
def EventFlag.bit : EventFlag → Nat
  | .contextFault c => c.val
  | .writeRefused => 8
  | .capturePaused => 9
  | .captureResumed => 10
  | .journalFailed => 11
  | .recoveryDone => 12
  | .commitDone => 13
  | .abortDone => 14
  | .formatDone => 15
  | .storeDone => 16
  | .portError => 17

/-- Raises a flag; one that is set stays set (R172). -/
def EventUnit.raise (e : EventUnit) (f : EventFlag) : EventUnit := { e with pending := e.pending ||| (1#18 <<< f.bit) }

/-- A flag is pending. -/
def EventUnit.isPending (e : EventUnit) (f : EventFlag) : Bool := e.pending.getLsbD f.bit

/-- Clears the named flags (R172). -/
def EventUnit.acknowledge (e : EventUnit) (named : BitVec 18) : EventUnit := { e with pending := e.pending &&& ~~~named }

/-- Replaces the mask (R172). -/
def EventUnit.setMask (e : EventUnit) (m : BitVec 18) : EventUnit := { e with mask := m }

/-- Raises a flag in the blocks. -/
def raise (f : EventFlag) (b : Blocks) : Blocks := b.modEvents fun e => e.raise f

/-- Reports a refusal with CAPACITY, CONFLICT_TIMEOUT or JOURNAL_FULL (R14, R173). -/
def reportRefusal (i : StreamId) (line : Addr) (r : RefusalReason) (b : Blocks) : Blocks :=
  b.modEvents fun e => { e.raise .writeRefused with lastRefusal := some ⟨i, line, r⟩ }

/-- Reports a request dropped for want of a credit (R138, R173). -/
def reportDrop (i : StreamId) (b : Blocks) : Blocks :=
  b.modEvents fun e => { e.raise .portError with lastPortError := some i }

/-- IRQ_N is low while some flag is pending and enabled, and high while RESET_N is low (R172). -/
def irqLow (s : State) : Bool := !s.pins.resetLow && decide (s.blocks.events.pending &&& s.blocks.events.mask ≠ 0)

/-- SAFE_OUT is asserted while the journal is in SAFE, and deasserted while RESET_N is low (R151, R153). -/
def safeOut (s : State) : Bool := !s.pins.resetLow && decide (s.blocks.journal.state = .safe)

end Sys2Proof.Machine
end

