-- ==== Sys2Proof/Machine/RequestPort.lean ====
section
/-! DEFINITION. The Request Port: answers, reclassification, the barrier record (spec/08). -/

namespace Sys2Proof.Machine

/-! ## Answers (R139, R140) -/

/-- The response to a request: DATA, ACK or DONE by its kind, with its tag (R140). -/
def responseTo (q : Request) (st : UpStatus) (bytes : Option LineData) : Response :=
  match q.kind with
  | .read _ => .data q.tag st bytes
  | .write _ _ _ => .ack q.tag st
  | .barrier => .done q.tag st
  | .commit => .done q.tag st

/-- The current request is answered and leaves the queue; the next one becomes current (R139). -/
def StreamRec.answered (r : StreamRec) (st : UpStatus) (bytes : Option LineData) : StreamRec :=
  match r.queue with
  | [] => r
  | q :: rest =>
    { r with
      queue := rest
      phase := if rest.isEmpty then .idle else .fresh
      conflict := none
      captureStall := none
      sent := r.sent ++ [responseTo q st bytes] }

/-- Answers the current request of stream i. -/
def answer (i : StreamId) (st : UpStatus) (bytes : Option LineData) (b : Blocks) : Blocks :=
  b.modStream i fun r => r.answered st bytes

/-- The line a stream's current request names, when it is a READ or a WRITE (R5). -/
def StreamRec.currentLine (r : StreamRec) : Option Addr :=
  match r.queue with
  | ⟨_, .read a⟩ :: _ => some (lineOf a)
  | ⟨_, .write a _ _⟩ :: _ => some (lineOf a)
  | _ => none

/-! ## Stalls (R15, R147) -/

/-- A stalled request that meets one of its events is classified again within the event. -/
def wake (p : StreamId → StreamRec → StallCause → Bool) (b : Blocks) : Blocks :=
  b.mapStreams fun i r =>
    match r.phase with
    | .stalled c => if p i r c then { r with phase := .fresh } else r
    | _ => r

/-- A change of journal state classifies every stalled request again (R82, R147). -/
def wakeAll (b : Blocks) : Blocks := wake (fun _ _ _ => true) b

/-- The causes that a change of state of the write's own context ends (R147). -/
def StallCause.ofContext : StallCause → Bool
  | .context => true
  | .conflict => true
  | .capture => true
  | .heldFull => true
  | .recovering => false
  | .formatting => false
  | .restoring => false

/-- A change of state of context c classifies the stalled writes bound to it again (R24, R55, R81, R147). A write's own
context is the one that the active image binds its stream to at that moment: after an APPLY that changed the binding of a
write in a capture stall, the new one, and none when it is now NONE (DESIGN CHOICE, log 33). -/
def wakeContext (cfg : Image) (c : CtxId) (b : Blocks) : Blocks :=
  wake (fun i _ cause => cause.ofContext && decide (cfg.bindings[i] = some c)) b

/-- A rise of unreserved space or the clearing of the pause flag (R81). -/
def wakeCapture (b : Blocks) : Blocks := wake (fun _ _ cause => decide (cause = .capture)) b

/-- A held entry has left the queue (R96). -/
def wakeHeldFull (b : Blocks) : Blocks := wake (fun _ _ cause => decide (cause = .heldFull)) b

/-- A line's entry has left RESTORING: the READs stalled on it are classified again (R48). -/
def wakeRestoring (line : Addr) (b : Blocks) : Blocks :=
  wake (fun _ r cause => decide (cause = .restoring) && decide (r.currentLine = some line)) b

/-- A line's entry has been removed: the conflict waits on it end, with their records (R49, R54), and the READs
stalled on its line are classified again. -/
def lineFreed (line : Addr) (b : Blocks) : Blocks :=
  wakeRestoring line (b.mapStreams fun _ r =>
    match r.conflict with
    | some w =>
      if w.line = line then
        { r with phase := if r.phase = .stalled .conflict then .fresh else r.phase, conflict := none }
      else r
    | none => r)

/-! ## The barrier record (R143) -/

/-- k writes of stream i are settled, with the loss reason if they were lost; a flag that is set keeps its first
reason (R143). -/
def settleWrites (reason : Option LossReason) (i : StreamId) (k : Nat) (b : Blocks) : Blocks :=
  b.modStream i fun r => { r with outstanding := r.outstanding - k, loss := r.loss.or reason }

/-- The writes of every contributor are settled (R94, R97). -/
def settleContributors (reason : Option LossReason) (cs : List (StreamId × Nat)) (b : Blocks) : Blocks :=
  cs.foldl (fun b c => settleWrites reason c.1 c.2 b) b

/-- The status a BARRIER reports (R144). -/
def barrierStatus : Option LossReason → UpStatus
  | none => .okay
  | some .memory => .memory
  | some .contextFaulted => .contextFaulted

/-- A BARRIER is answered: the loss flag is reported and cleared, and its demands lapse (R144, R145). -/
def answerBarrier (i : StreamId) (b : Blocks) : Blocks :=
  let st := barrierStatus (b.stream i).loss
  ((answer i st none b).modStream i fun r => { r with loss := none }).modJournal fun j =>
    { j with demands := j.demands.filter fun d => decide (d.source ≠ .barrier i) }

/-- The waiting BARRIER of stream i is to be answered (R144). -/
def barrierDue (b : Blocks) (i : StreamId) : Bool :=
  match (b.stream i).phase with
  | .barrier _ => decide ((b.stream i).outstanding = 0)
  | _ => false

/-- The held WRITE of stream i is to be handed on (R142). -/
def countDue (b : Blocks) (i : StreamId) : Bool :=
  match (b.stream i).phase with
  | .countHold => decide ((b.stream i).outstanding < Config.outstandingLimit)
  | _ => false

/-- A refused WRITE: ACK with its status, and the report to the Event Unit for the three statuses of R14. -/
def refuseWrite (i : StreamId) (line : Addr) (st : UpStatus) (b : Blocks) : Blocks :=
  let b := answer i st none b
  match st with
  | .capacity => reportRefusal i line .capacity b
  | .conflictTimeout => reportRefusal i line .conflictTimeout b
  | .journalFull => reportRefusal i line .journalFull b
  | _ => b

end Sys2Proof.Machine
end

