-- ==== Sys2Proof/Machine/MemoryPort.lean ====
section
/-! DEFINITION. The Memory Port's requests, withdrawals and line rules (spec/07). -/

namespace Sys2Proof.Machine

/-- Hands a request over; after the power-fail notice it is withdrawn as it arrives (R126, R135). -/
def handOver (op : MemOp) (cls : MemClass) (owner : Owner) (b : Blocks) : Blocks :=
  if b.journal.notice then b
  else b.modMem fun m =>
    { m with waiting := m.waiting ++ [⟨op, cls, owner, m.nextOrder⟩], nextOrder := m.nextOrder + 1 }

/-- Changes the owners of outstanding operations. -/
def reown (f : Owner → Owner) (b : Blocks) : Blocks :=
  b.modMem fun m => { m with slots := Vector.ofFn fun k =>
    match m.slots[k] with
    | some o => some { o with owner := f o.owner }
    | none => none }

/-! ## Lines of an operation (R131) -/

/-- The lines a burst of k slots writes, from its first slot's line (R125). -/
def burstLines (first : Addr) (k : Nat) : List Addr := (List.range k).map fun i => first + BitVec.ofNat 40 (64 * i)

/-- The lines an operation writes. -/
def MemOp.written : MemOp → List Addr
  | .lineRead _ => []
  | .lineWrite l _ _ => [l]
  | .slotBurst first slots => burstLines first slots.length
  | .anchorWrite l _ => [l]

/-- The lines an operation reads or writes. -/
def MemOp.lines : MemOp → List Addr
  | .lineRead l => [l]
  | .lineWrite l m d => (MemOp.lineWrite l m d).written
  | .slotBurst first slots => burstLines first slots.length
  | .anchorWrite l _ => [l]

/-- The line of a LINE_WRITE. -/
def MemOp.writeLine : MemOp → Option Addr
  | .lineWrite l _ _ => some l
  | _ => none

/-- The line of a LINE_READ. -/
def MemOp.readLine : MemOp → Option Addr
  | .lineRead l => some l
  | _ => none

/-- A line has an outstanding LINE_WRITE (R131). -/
def MemoryPort.writeOutstanding (m : MemoryPort) (line : Addr) : Bool :=
  m.ops.any fun o => decide (o.op.writeLine = some line)

/-- An operation left by a warm reset writes one of the lines of a request (R131, R136). -/
def MemoryPort.orphanHolds (m : MemoryPort) (r : MemRequest) : Bool :=
  m.ops.any fun o => decide (o.owner = .orphan) && r.op.lines.any fun l => decide (l ∈ o.op.written)

/-- A pass-through LINE_WRITE of a line, handed over before a given hand-over, is outstanding or waiting (R131). -/
def MemoryPort.earlierPassWrite (m : MemoryPort) (line : Addr) (order : Nat) : Bool :=
  (m.ops.any fun o => decide (o.cls = .passThrough) && decide (o.op.writeLine = some line) && decide (o.order < order))
    || (m.waiting.any fun w =>
      decide (w.cls = .passThrough) && decide (w.op.writeLine = some line) && decide (w.order < order))

/-- The line rules let a waiting request be granted (R131). -/
def MemoryPort.eligible (m : MemoryPort) (r : MemRequest) : Bool :=
  !m.orphanHolds r &&
    match r.op with
    | .lineWrite l _ _ => !m.writeOutstanding l
    | .lineRead l =>
      match r.cls with
      | .passThrough => !m.earlierPassWrite l r.order
      | .capture => !m.writeOutstanding l
      | _ => true
    | _ => true

/-! ## Pass-over counts (R130) -/

/-- The count of a class. -/
def PassOver.get (p : PassOver) : MemClass → Nat
  | .anchor => p.anchor
  | .burst => p.burst
  | .restore => p.restore
  | .capture => p.capture
  | .release => p.release
  | .passThrough => p.passThrough

/-- The counts given class by class. -/
def PassOver.build (f : MemClass → Nat) : PassOver :=
  ⟨f .anchor, f .burst, f .restore, f .capture, f .release, f .passThrough⟩

/-- The first eligible request of a class, in the order of hand-over (R129). -/
def MemoryPort.eligibleIn (m : MemoryPort) (c : MemClass) : Option MemRequest :=
  m.waiting.find? fun r => decide (r.cls = c) && m.eligible r

/-- A class with no eligible request has its count at 0 (R130). -/
def MemoryPort.settleCounts (m : MemoryPort) : MemoryPort :=
  { m with passOver := PassOver.build fun c => if (m.eligibleIn c).isSome then m.passOver.get c else 0 }

/-- Withdraws waiting requests (R126, R134). -/
def withdraw (p : MemRequest → Bool) (b : Blocks) : Blocks :=
  b.modMem fun m => { m with waiting := m.waiting.filter fun r => !p r }.settleCounts

/-! ## Restore operations in flight (R48, R112) -/

/-- An owner is a restore operation of a context. -/
def Owner.restoreOf (c : CtxId) : Owner → Bool
  | .restoreRead c' _ => decide (c' = c)
  | .restoreWrite c' _ => decide (c' = c)
  | _ => false

/-- An owner is a restore operation of a line of a context. -/
def Owner.restoreOn (c : CtxId) (line : Addr) (o : Owner) : Bool :=
  decide (o = .restoreRead c line) || decide (o = .restoreWrite c line)

/-- A restore operation of context c is outstanding. -/
def MemoryPort.restoreOutstanding (m : MemoryPort) (c : CtxId) : Bool := m.ops.any fun o => o.owner.restoreOf c

/-- A restore operation of a line of context c is outstanding. -/
def MemoryPort.restoringLine (m : MemoryPort) (c : CtxId) (line : Addr) : Bool :=
  m.ops.any fun o => o.owner.restoreOn c line

end Sys2Proof.Machine
end

