-- ==== Sys2Proof/Machine/HeldQueue.lean ====
section
/-! DEFINITION. The Held Write Queue: allocation, merging, release, discards, overlays (spec/05). -/

namespace Sys2Proof.Machine

/-! ## Allocation and merging (R89, R90) -/

/-- One more write of a stream among the contributors (R90). -/
def addContributor (i : StreamId) : List (StreamId × Nat) → List (StreamId × Nat)
  | [] => [(i, 1)]
  | (s, k) :: rest => if s = i then (s, k + 1) :: rest else (s, k) :: addContributor i rest

/-- A line has an entry a write may merge into: one that is not ISSUED (R90, R91). -/
def HeldQueue.mergeable (h : HeldQueue) (line : Addr) : Bool :=
  h.entries.any fun e => decide (e.line = line) && decide (e.state ≠ .issued)

/-- A write merged into the unissued entry of its line (R90). -/
def HeldEntry.merged (e : HeldEntry) (i : StreamId) (m : ByteMask) (d : LineData) : HeldEntry :=
  { e with data := overlay e.data m d, mask := e.mask ||| m, contributors := addContributor i e.contributors }

/-- Merges a write into the unissued entry of its line (R90). -/
def mergeHeld (i : StreamId) (line : Addr) (m : ByteMask) (d : LineData) (b : Blocks) : Blocks :=
  b.modHeld fun h => { h with entries := h.entries.map fun e =>
    if e.line = line ∧ e.state ≠ .issued then e.merged i m d else e }

/-- Allocates a held entry at the young end (R89). -/
def allocHeld (i : StreamId) (c : CtxId) (line : Addr) (m : ByteMask) (d : LineData) (st : HeldState) (b : Blocks) :
    Blocks :=
  b.modHeld fun h => { h with entries := h.entries ++ [⟨i, [(i, 1)], c, line, m, d, st, false⟩] }

/-- The queue holds 64 entries (R96). -/
def HeldQueue.full (h : HeldQueue) : Bool := decide (Config.heldCapacity ≤ h.entries.length)

/-! ## Release (R91 to R93) -/

/-- The oldest entry of a line. -/
def HeldQueue.oldest (h : HeldQueue) (line : Addr) : Option HeldEntry := h.entries.find? fun e => e.line = line

/-- A line has a detached write (R91, R99). -/
def HeldQueue.hasDetached (h : HeldQueue) (line : Addr) : Bool := h.detached.any fun d => d.line = line

/-- The WAIT_LOG entries of a line that has become LOGGED become READY (R93). -/
def heldLogged (line : Addr) (b : Blocks) : Blocks :=
  b.modHeld fun h => { h with entries := h.entries.map fun e =>
    if e.line = line ∧ e.state = .waitLog then { e with state := .ready } else e }

/-- An entry's release is to be asked for: it is READY, the oldest of its line, with no detached write, not yet asked
for, and the notice has not been taken (R92). -/
def releaseDue (b : Blocks) (e : HeldEntry) : Bool :=
  decide (e.state = .ready) && decide (b.held.oldest e.line = some e) && !b.held.hasDetached e.line
    && !(b.mem.waiting.any fun r => decide (r.owner = .release e.line)) && !b.journal.notice

/-- Asks for the releases that are due, in queue order (R92). -/
def requestReleases (b : Blocks) : Blocks :=
  (b.held.entries.filter (releaseDue b)).foldl
    (fun b e => handOver (.lineWrite e.line e.mask e.data) .release (.release e.line) b) b

/-- The oldest entry of a line becomes ISSUED at its grant (R92). -/
def issueOldest (line : Addr) : List HeldEntry → List HeldEntry
  | [] => []
  | e :: rest => if e.line = line then { e with state := .issued } :: rest else e :: issueOldest line rest

/-- The operation a request carries at its grant: a release carries the bytes its entry holds then (R90, R92). -/
def opAtGrant (h : HeldQueue) (r : MemRequest) : MemOp :=
  match r.owner with
  | .release line =>
    match h.oldest line with
    | some e => .lineWrite line e.mask e.data
    | none => r.op
  | _ => r.op

/-- What a grant does to the queue (R92). -/
def heldAtGrant (h : HeldQueue) (r : MemRequest) : HeldQueue :=
  match r.owner with
  | .release line => { h with entries := issueOldest line h.entries }
  | _ => h

/-! ## Discards (R97) -/

/-- Discards held entries: their contributors' writes are settled, with the loss reason given, their waiting releases
are withdrawn (R134) and the writes stalled on a full queue are classified again (R96). -/
def discardHeld (p : HeldEntry → Bool) (reason : Option LossReason) (b : Blocks) : Blocks :=
  let gone := b.held.entries.filter p
  if gone.isEmpty then b
  else
    let b := b.modHeld fun h => { h with entries := h.entries.filter fun e => !p e }
    let b := gone.foldl (fun b e => settleContributors reason e.contributors b) b
    let b := withdraw (fun r => gone.any fun e => decide (e.state = .ready) && decide (r.owner = .release e.line)) b
    wakeHeldFull b

/-- An entry of a context that is WAIT_LOG or READY. -/
def HeldEntry.unissuedOf (c : CtxId) (e : HeldEntry) : Bool := decide (e.ctx = c) && decide (e.state ≠ .issued)

/-- The loss flags of a context's ISSUED entries are set at entry to ROLLBACK (R98). -/
def flagIssued (c : CtxId) (b : Blocks) : Blocks :=
  b.modHeld fun h => { h with entries := h.entries.map fun e =>
    if e.ctx = c ∧ e.state = .issued then { e with loss := true } else e }

/-! ## Journaled reads (R100, R101) -/

/-- The union of the masks of a line's detached write and entries (R101). -/
def HeldQueue.coverMask (h : HeldQueue) (line : Addr) : ByteMask :=
  ((h.detached.filter fun d => d.line = line).map (·.mask) ++ (h.entries.filter fun e => e.line = line).map (·.mask)).foldl
    (· ||| ·) 0

/-- The detached write and then the entries of a line, in queue order, laid over a line (R100 steps 3 and 4). -/
def HeldQueue.layOver (h : HeldQueue) (line : Addr) (under : LineData) : LineData :=
  let d := (h.detached.filter fun d => d.line = line).foldl (fun acc d => overlay acc d.mask d.data) under
  (h.entries.filter fun e => e.line = line).foldl (fun acc e => overlay acc e.mask e.data) d

/-- The response bytes of a journaled read: memory, the overlay record, then the held layers (R100). -/
def HeldQueue.journaledData (h : HeldQueue) (i : StreamId) (line : Addr) (memory : LineData) : LineData :=
  let base := match h.overlays.find? fun o => o.stream = i with
    | some o => overlay memory o.mask o.data
    | none => memory
  h.layOver line base

/-- Bytes that have persisted are copied into the overlay records of their line (R94, R100). -/
def copyToOverlays (line : Addr) (m : ByteMask) (d : LineData) (b : Blocks) : Blocks :=
  b.modHeld fun h => { h with overlays := h.overlays.map fun o =>
    if o.line = line then { o with data := overlay o.data m d, mask := o.mask ||| m } else o }

/-- Creates the overlay record of a journaled read (R100). -/
def addOverlay (i : StreamId) (line : Addr) (b : Blocks) : Blocks :=
  b.modHeld fun h => { h with overlays := h.overlays ++ [⟨i, line, 0, 0⟩] }

/-- Removes the overlay record of a read (R100). -/
def dropOverlay (i : StreamId) (b : Blocks) : Blocks :=
  b.modHeld fun h => { h with overlays := h.overlays.filter fun o => decide (o.stream ≠ i) }

/-- Lines of the WAIT_LOG entries that carry a write of a stream (R93, R145). -/
def HeldQueue.waitLinesOf (h : HeldQueue) (i : StreamId) : List Addr :=
  (h.entries.filter fun e => decide (e.state = .waitLog) && e.contributors.any fun c => decide (c.1 = i)).map (·.line)

end Sys2Proof.Machine
end

