-- ==== Sys2Proof/Machine/Tracking.lean ====
section
/-! DEFINITION. The Line Tracking Table: insertion, transitions, removal (spec/03). -/

namespace Sys2Proof.Machine

/-- Removes entries and tells the Request Port the lines freed (R49, R54). -/
def removeEntries (p : TrackEntry → Bool) (b : Blocks) : Blocks :=
  (b.track.filter p).foldl (fun b e => lineFreed e.line b) (b.modTrack fun t => t.filter fun e => !p e)

/-- Changes the entries that meet a test. -/
def updateEntries (p : TrackEntry → Bool) (f : TrackEntry → TrackEntry) (b : Blocks) : Blocks :=
  b.modTrack fun t => t.map fun e => if p e then f e else e

/-- A CAPTURING entry of a context is left (R106). -/
def Blocks.capturing (b : Blocks) (c : CtxId) : Bool :=
  b.track.any fun e => decide (e.ctx = c) && decide (e.state = .capturing)

/-- The RESTORING entries of a context with no restore operation in flight go back to LOGGED, and the READs stalled
on their lines are classified again (R48, R119). So does, when its context enters FAULTED after the notice, an entry whose
restore request the notice withdrew, though R135 leaves it RESTORING until reset (DESIGN CHOICE, log 36). -/
def dropRestoring (c : CtxId) (b : Blocks) : Blocks :=
  let p := fun e : TrackEntry =>
    decide (e.ctx = c) && decide (e.state = .restoring) && !b.mem.restoringLine c e.line
  (b.track.filter p).foldl (fun b e => wakeRestoring e.line b)
    (updateEntries p (fun e => { e with state := .logged }) b)

/-- A RESTORING entry leaves RESTORING for another state (R48). -/
def leaveRestoring (c : CtxId) (line : Addr) (st : TrackState) (b : Blocks) : Blocks :=
  wakeRestoring line (updateEntries
    (fun e => decide (e.ctx = c) && decide (e.line = line) && decide (e.state = .restoring))
    (fun e => { e with state := st }) b)

end Sys2Proof.Machine
end

