-- ==== Sys2Proof/Machine/JournalWriter.lean ====
section
/-! DEFINITION. The Journal Writer: anchor updates, pause flag, space, staging, bursts (spec/04). -/

namespace Sys2Proof.Machine

/-! ## Anchor updates (R76 to R78) -/

/-- An anchor update is due (R77). -/
def anchorDue (cfg : Image) (j : JournalWriter) : Bool :=
  decide (j.state = .ready) && !j.notice && !j.anchor.busy
    && (decide (cfg.stride ≤ j.anchored.distance j.head) || (j.pause && decide (j.anchored.distance j.head ≠ 0)))

/-- The copy an update writes: the suspect one, otherwise the one with the lower generation (R78). -/
def AnchorState.target (a : AnchorState) : AnchorCopy :=
  if a.suspectA then .a
  else if a.suspectB then .b
  else if aheadOf a.genA a.genB then .b
  else .a

/-- The generation an update writes: one more than the other copy's (R78). -/
def AnchorState.nextGen (a : AnchorState) : AnchorCopy → Count32
  | .a => a.genB + 1
  | .b => a.genA + 1

/-- Hands an anchor write over to the Memory Port (R78). -/
def writeAnchor (cfg : Image) (copy : AnchorCopy) (f : AnchorFields) (p : AnchorPurpose) (b : Blocks) : Blocks :=
  handOver (.anchorWrite (anchorLine cfg copy) (buildAnchor f)) .anchor (.anchor p)
    (b.modJournal fun j => { j with anchor := { j.anchor with busy := true } })

/-- Starts an anchor update (R78). -/
def startAnchor (cfg : Image) (b : Blocks) : Blocks :=
  let j := b.journal
  let copy := j.anchor.target
  let gen := j.anchor.nextGen copy
  writeAnchor cfg copy
    ⟨gen, BitVec.ofNat 32 j.head.idx, j.head.seq, b.epochs.counter, cfg.journal.ringSize, j.anchor.formatCount⟩
    (.update copy gen j.head) b

/-- Evaluates the anchor triggers (R77). -/
def anchorCheck (cfg : Image) (b : Blocks) : Blocks := if anchorDue cfg b.journal then startAnchor cfg b else b

/-! ## Pause flag and space (R66, R80) -/

/-- Evaluates the pause flag (R80). -/
def evalPause (cfg : Image) (b : Blocks) : Blocks :=
  let j := b.journal
  let space := j.unreserved cfg.ringN
  if j.state ≠ .ready then b
  else if !j.pause && decide (space < cfg.pauseAt) then
    anchorCheck cfg (raise .capturePaused (b.modJournal fun j => { j with pause := true }))
  else if j.pause && decide (cfg.resumeAt ≤ space) then
    wakeCapture (raise .captureResumed (b.modJournal fun j => { j with pause := false }))
  else b

/-- Reserves k slots (R66). -/
def reserve (cfg : Image) (k : Nat) (b : Blocks) : Blocks :=
  evalPause cfg (b.modJournal fun j => { j with reserved := j.reserved + k })

/-- Unreserved space has risen: the capture-stalled writes are classified again (R81). -/
def spaceRisen (cfg : Image) (b : Blocks) : Blocks := evalPause cfg (wakeCapture b)

/-- Releases k reserved slots (R66). -/
def releaseSpace (cfg : Image) (k : Nat) (b : Blocks) : Blocks :=
  if k = 0 then b else spaceRisen cfg (b.modJournal fun j => { j with reserved := j.reserved - k })

/-! ## Record bursts (R72, R73) -/

/-- A record burst is in flight, a burst left to end by FORMAT included (R64, R129, log 26). -/
def burstBusy (b : Blocks) : Bool :=
  b.journal.burstInFlight || b.mem.ops.any fun o => decide (o.owner = .staleBurst)

/-- What a staged slot holds is a marker. -/
def SlotUse.isMarker : SlotUse → Bool
  | .marker _ _ _ => true
  | _ => false

/-- One of the four conditions of R72 holds. -/
def JournalWriter.burstWanted (j : JournalWriter) (threshold : Nat) : Bool :=
  decide (threshold ≤ j.unburst.length) || decide (j.groupTimer = .due)
    || j.unburst.any (fun s => s.use.isMarker)
    || j.unburst.any fun s => j.demands.any fun d => decide (d.seq = s.pos.seq)

/-- A record burst is to be issued (R72). -/
def burstDue (cfg : Image) (b : Blocks) : Bool :=
  decide (b.journal.state = .ready) && !b.journal.notice && !burstBusy b && !b.journal.unburst.isEmpty
    && b.journal.burstWanted cfg.journal.groupThreshold.toNat

/-- The slots a burst takes: from the oldest forward, up to 16, stopping before slot 0 (R73). -/
def burstSlots : List StagedSlot → List StagedSlot
  | [] => []
  | s :: rest => s :: (rest.takeWhile fun t => decide (t.pos.idx ≠ 0)).take (Config.stagingCapacity - 1)

/-- Issues a burst (R73); the group timer stops when it takes the last unburst slot (R72). -/
def issueBurst (cfg : Image) (b : Blocks) : Blocks :=
  let j := b.journal
  let taken := burstSlots j.unburst
  let left := j.unburst.drop taken.length
  match taken with
  | [] => b
  | first :: _ =>
    handOver (.slotBurst (slotLine cfg first.pos.idx) (taken.map (·.bytes))) .burst .burst
      (b.modJournal fun j => { j with
        staging := (j.staging.filter fun s => s.inFlight) ++ taken.map (fun s => { s with inFlight := true }) ++ left
        groupTimer := if left.isEmpty then .stopped else j.groupTimer })

/-- Evaluates the burst triggers (R72). -/
def burstCheck (cfg : Image) (b : Blocks) : Blocks := if burstDue cfg b then issueBurst cfg b else b

/-! ## Staging (R71) -/

/-- The group timer after a slot is staged: it starts when the buffer held no unburst slot (R72). -/
def groupTimerAtStaging (cfg : Image) (clock : Nat) (j : JournalWriter) : GroupTimer :=
  if j.unburst.isEmpty then
    if cfg.journal.groupTimer.toNat = 0 then .due else .running (clock + cfg.journal.groupTimer.toNat)
  else j.groupTimer

/-- The live-epoch list with an epoch entered, when it is not there (R68). -/
def enterLive (live : List LiveEpoch) (e : Epoch) (c : CtxId) (p : RingPtr) : List LiveEpoch :=
  if live.any fun l => decide (l.epoch = e) then live else live ++ [⟨e, c, p⟩]

/-- Stages k slots at the tail for an epoch: tail, reservation, list, head and group timer (R65, R66, R68, R71). -/
def stage (cfg : Image) (slots : List StagedSlot) (e : Epoch) (c : CtxId) (b : Blocks) : Blocks :=
  b.modJournal fun j =>
    let live := enterLive j.live e c j.tail
    let j' := { j with
      groupTimer := groupTimerAtStaging cfg b.clock j
      tail := j.tail.advance cfg.ringN slots.length
      reserved := j.reserved - slots.length
      staging := j.staging ++ slots
      live := live }
    { j' with head := j'.headNow }

/-- The demands placed at the staging of a record: those of waiting BARRIERs that named its line, and that of its
DRAINING context (R105, R145). -/
def demandsAtStaging (e : TrackEntry) (seq : Count32) (b : Blocks) : Blocks :=
  let waiting := allStreams.filter fun i =>
    match (b.stream i).phase with
    | .barrier lines => decide (e.line ∈ lines)
    | _ => false
  let b := waiting.foldl (fun b i => placeDemand ⟨seq, .barrier i⟩ b) b
  if (b.ctx e.ctx).state = .draining then placeDemand ⟨seq, .drain e.ctx⟩ b else b

/-- The two slots of the UNDO record of an entry, at the tail (R63, R71). -/
def undoSlots (cfg : Image) (j : JournalWriter) (e : TrackEntry) (data : LineData) : List StagedSlot :=
  [⟨buildHeader j.anchor.formatCount .undo e.ctx j.tail.seq e.epoch e.line (some data), j.tail, false,
      .undoHeader e.capture⟩,
    ⟨data, j.tail.advance cfg.ringN 1, false, .undoData e.capture⟩]

/-- Stages the UNDO record of an entry (R71): its record position, the undo record count, the demands, the triggers. -/
def stageUndo (cfg : Image) (e : TrackEntry) (data : LineData) (b : Blocks) : Blocks :=
  let pos := b.journal.tail
  let b := stage cfg (undoSlots cfg b.journal e data) e.epoch e.ctx b
  let b := updateEntries (fun x => decide (x.capture = e.capture)) (fun x => { x with pos := some pos }) b
  let b := b.modCtx e.ctx fun x => { x with undoCount := x.undoCount + 1 }
  burstCheck cfg (demandsAtStaging e pos.dataSeq b)

/-- Stages a marker for the live epoch of its context (R71, R107, R117). -/
def stageMarker (cfg : Image) (k : RecordKind) (c : CtxId) (b : Blocks) : Blocks :=
  let e := (b.ctx c).epoch.getD 0
  let j := b.journal
  burstCheck cfg (stage cfg
    [⟨buildHeader j.anchor.formatCount k c j.tail.seq e 0 none, j.tail, false, .marker k c e⟩] e c b)

/-! ## Service of the buffer (R70) -/

/-- The Journal Writer goes on writing the ring. -/
def JournalWriter.writing (j : JournalWriter) : Bool := decide (j.state = .ready) && !j.notice

/-- The line of the entry a capture belongs to. -/
def captureLine (b : Blocks) (id : Nat) : Addr := ((b.track.find? fun e => e.capture = id).map (·.line)).getD 0

/-- Gives a free buffer slot to the oldest waiting marker, or two to the oldest waiting capture when no marker waits;
none when nothing can be given (R70). -/
def serveOne (cfg : Image) (b : Blocks) : Option Blocks :=
  let j := b.journal
  if !j.writing then none
  else match j.markerQueue with
    | m :: rest =>
      if 1 ≤ j.freeBuffer then
        some (stageMarker cfg m.kind m.ctx (b.modJournal fun j => { j with markerQueue := rest }))
      else none
    | [] => match j.captureQueue with
      | id :: rest =>
        if 2 ≤ j.freeBuffer then
          some (handOver (.lineRead (captureLine b id)) .capture (.capture id)
            (b.modJournal fun j => { j with captureQueue := rest, promises := j.promises ++ [id] }))
        else none
      | [] => none

/-- Serves the waiting markers and captures; each takes at least one of the 16 buffer slots (R70). -/
def serveBuffer (cfg : Image) : Nat → Blocks → Blocks
  | 0, b => b
  | n + 1, b =>
    match serveOne cfg b with
    | some b' => serveBuffer cfg n b'
    | none => b

/-- Asks for a marker; one asked for outside READY or after the notice is not staged (R71, R107, R117). -/
def requestMarker (k : RecordKind) (c : CtxId) (b : Blocks) : Blocks :=
  if b.journal.writing then b.modJournal fun j => { j with markerQueue := j.markerQueue ++ [⟨k, c⟩] } else b

end Sys2Proof.Machine
end

