-- ==== Sys2Proof/Machine/EpochController.lean ====
section
/-! DEFINITION. The Epoch Controller: waiters, commit, faults, entry to rollback (spec/02, spec/06). -/

namespace Sys2Proof.Machine

/-! ## Waiters (R30) -/

/-- Answers the commit waiters of a context, oldest first, empties the list and clears the management waiter (R30). -/
def answerWaiters (c : CtxId) (st : UpStatus) (b : Blocks) : Blocks :=
  ((b.ctx c).waiters.foldl (fun b i => answer i st none b) b).modCtx c fun x =>
    { x with waiters := [], mgmtWaiter := false }

/-- A context record whose epoch has ended (R20, R21); the abort outcome is kept or given. -/
def Context.ended (outcome : Option AbortOutcome) : Context := { Context.reset with abortOutcome := outcome }

/-! ## Idle timer (R31) -/

/-- The idle timer starts, or restarts, with the full interval when that is not 0 (R31). -/
def startIdleTimer (cfg : Image) (c : CtxId) (b : Blocks) : Blocks :=
  let k := cfg.ctxs[c].idleInterval.toNat
  b.modCtx c fun x => { x with idleTimer := if k = 0 then none else some (b.clock + 10 * k) }

/-! ## Commit (R104 to R108) -/

/-- The demands of entry to DRAINING: one on each staged record of the context that is not durable (R105). -/
def drainDemands (c : CtxId) (source : DemandSource) (b : Blocks) : Blocks :=
  ((b.entriesOf c).filter fun e => decide (e.state = .capturing)).foldl
    (fun b e => match e.pos with
      | some p => placeDemand ⟨p.dataSeq, source⟩ b
      | none => b) b

/-- A commit begins: the context goes to DRAINING (R104). -/
def beginCommit (cfg : Image) (c : CtxId) (b : Blocks) : Blocks :=
  let b := b.modCtx c fun x => { x with state := .draining, idleTimer := none }
  burstCheck cfg (drainDemands c (.drain c) (wakeContext cfg c b))

/-- The drain of a context ends (R106). -/
def drainDue (b : Blocks) (c : CtxId) : Bool :=
  decide ((b.ctx c).state = .draining) && decide (b.heldCount c = 0) && !b.capturing c

/-- Entry to MARKING: the COMMIT marker is asked for (R107). -/
def enterMarking (cfg : Image) (c : CtxId) (b : Blocks) : Blocks :=
  requestMarker .commit c (wakeContext cfg c (b.modCtx c fun x => { x with state := .marking }))

/-- A durable marker ends the epoch of its context in MARKING or ROLLBACK (R69, R108, R118); elsewhere it is not
reported (R69). -/
def markerDurable (cfg : Image) (c : CtxId) (e : Epoch) (b : Blocks) : Blocks :=
  let x := b.ctx c
  if x.epoch ≠ some e then b
  else if x.state = .marking ∨ x.state = .rollback then
    let b := removeEntries (fun t => decide (t.ctx = c)) b
    let b := b.modJournal fun j =>
      let j' := { j with live := j.live.filter fun l => decide (l.epoch ≠ e) }
      { j' with head := j'.headNow }
    let b := answerWaiters c .okay b
    let b := match x.rollback with
      | some r =>
        raise .abortDone (b.modCtx c fun _ =>
          Context.ended (some (match r.mode with | .restore => .restored | .retireOnly => .forced)))
      | none =>
        let b := b.modCtx c fun _ => Context.ended x.abortOutcome
        if x.mgmtWaiter then raise .commitDone b else b
    anchorCheck cfg (wakeContext cfg c b)
  else b

/-! ## Faults (R33 to R36, R119, R120) -/

/-- A rollback interrupted by a fault: outcome FAILED, ABORT_DONE, its waiting requests withdrawn (R134), its RESTORING
entries with no operation in flight back to LOGGED (R119). -/
def breakRollback (c : CtxId) (b : Blocks) : Blocks :=
  let b := withdraw (fun r => r.owner.restoreOf c) b
  let b := b.modCtx c fun x => { x with rollback := none, abortOutcome := some .failed }
  dropRestoring c (raise .abortDone b)

/-- Entry to FAULTED (R34, R35). -/
def enterFaulted (cfg : Image) (c : CtxId) (r : FaultRecord) (b : Blocks) : Blocks :=
  let was := (b.ctx c).state
  let b := answerWaiters c .contextFaulted b
  let b := b.modCtx c fun x => { x with state := .faulted, idleTimer := none, fault := some r }
  let b := if was = .rollback then breakRollback c b else b
  wakeContext cfg c (raise (.contextFault c) b)

/-- A capture or release fault report: dropped when its epoch is not the live one, taken in OPEN and DRAINING, without
effect on the state elsewhere (R33, R36). -/
def reportFault (cfg : Image) (c : CtxId) (e : Epoch) (k : FaultKind) (line : Addr) (i : StreamId) (st : DownStatus)
    (b : Blocks) : Blocks :=
  let x := b.ctx c
  if x.epoch = some e ∧ (x.state = .opened ∨ x.state = .draining) then
    discardHeld (fun h => h.unissuedOf c) (some .contextFaulted)
      (enterFaulted cfg c ⟨k, e, some line, some i, some st⟩ b)
  else b

/-- A restore fault report (R33, R119). -/
def reportRestoreFault (cfg : Image) (c : CtxId) (k : FaultKind) (line : Addr) (st : DownStatus) (b : Blocks) : Blocks :=
  let x := b.ctx c
  match x.epoch with
  | some e => if x.state = .rollback then enterFaulted cfg c ⟨k, e, some line, none, some st⟩ b else b
  | none => b

/-- What a journal failure does to one context: FAULTED with JOURNAL_FAILED, unless it is IDLE or FAULTED (R38). -/
def journalFaults (cfg : Image) (st : Option DownStatus) (b : Blocks) (c : CtxId) : Blocks :=
  let x := b.ctx c
  match x.epoch with
  | some e =>
    if x.state = .idle ∨ x.state = .faulted then b
    else enterFaulted cfg c ⟨.journalFailed, e, none, none, st⟩ b
  | none => b

/-- An anchor write is the owner's business (R78, R84, R160). -/
def Owner.isAnchor : Owner → Bool
  | .anchor _ => true
  | _ => false

/-- A capture read (R45). -/
def Owner.isCapture : Owner → Bool
  | .capture _ => true
  | _ => false

/-- The requests that entry to FAILED and FORMAT withdraw (R134). -/
def Owner.ofJournal (o : Owner) : Bool := decide (o = .burst) || o.isAnchor || o.isCapture

/-- The Journal Writer stops writing the ring: slots outside a granted burst are discarded, queues, promises, demands
and the waiting markers are dropped, the timer stops; a withdrawn anchor write is no longer in flight (R83, R85, R134). -/
def stopWriting (b : Blocks) : Blocks :=
  let burstWaits := b.mem.waiting.any fun r => decide (r.owner = .burst)
  let anchorWaits := b.mem.waiting.any fun r => r.owner.isAnchor
  b.modJournal fun j => { j with
    staging := if burstWaits then [] else j.staging.filter fun s => s.inFlight
    captureQueue := []
    promises := []
    markerQueue := []
    demands := []
    groupTimer := .stopped
    anchor := { j.anchor with busy := j.anchor.busy && !anchorWaits } }

/-- The journal enters FAILED from READY or FORMATTING (R83, R38, R34, R134). -/
def journalFail (cfg : Image) (reason : JournalReason) (st : Option DownStatus) (b : Blocks) : Blocks :=
  let b := withdraw (fun r => r.owner.ofJournal) (stopWriting b)
  let b := b.modJournal fun j => { j with state := .failed, reason := some reason, pause := false, formatWaits := false }
  let b := discardHeld (fun h => decide (h.state = .waitLog)) (some .contextFaulted) b
  let b := allCtxs.foldl (journalFaults cfg st) b
  wakeAll (raise .journalFailed b)

/-! ## Entry to ROLLBACK (R111) -/

/-- Entry to ROLLBACK in a mode (R111): waiters answered ABORTED, fault record removed, unissued held entries discarded,
ISSUED ones flagged (R98), a record in phase QUIESCE. -/
def enterRollback (cfg : Image) (c : CtxId) (m : RollbackMode) (b : Blocks) : Blocks :=
  let b := answerWaiters c .aborted b
  let b := b.modCtx c fun x =>
    { x with state := .rollback, idleTimer := none, fault := none, rollback := some ⟨m, .quiesce, [], 0⟩ }
  let b := discardHeld (fun h => h.unissuedOf c) (some .contextFaulted) b
  wakeContext cfg c (flagIssued c b)

end Sys2Proof.Machine
end

