-- ==== Sys2Proof/Machine/Rollback.lean ====
section
/-! DEFINITION. The progress of a rollback: end of QUIESCE, restore slots, RETIRE (spec/06 R112 to R117). -/

namespace Sys2Proof.Machine

/-- Updates the rollback record of a context, when there is one. -/
def modRollback (c : CtxId) (f : Rollback → Rollback) (b : Blocks) : Blocks :=
  b.modCtx c fun x => { x with rollback := x.rollback.map f }

/-- The rollback record of a context in a phase. -/
def rollbackIn (b : Blocks) (c : CtxId) (p : RollbackPhase) : Option Rollback :=
  match (b.ctx c).rollback with
  | some r => if (b.ctx c).state = .rollback ∧ r.phase = p then some r else none
  | none => none

/-! ## QUIESCE (R112, R113) -/

/-- Phase QUIESCE ends: no held entry of the context, no restore operation of it outstanding (R112). -/
def quiesceDue (b : Blocks) (c : CtxId) : Bool :=
  (rollbackIn b c .quiesce).isSome && decide (b.heldCount c = 0) && !b.mem.restoreOutstanding c

/-- A CAPTURING entry of a context with no record position. -/
def TrackEntry.undisclosed (c : CtxId) (e : TrackEntry) : Bool :=
  decide (e.ctx = c) && decide (e.state = .capturing) && e.pos.isNone

/-- The undisclosed captures are removed and their reservations released; a capture in the queue leaves it (R51, R70). -/
def dropCaptures (cfg : Image) (c : CtxId) (b : Blocks) : Blocks :=
  let gone := b.track.filter fun e => e.undisclosed c
  let b := removeEntries (fun e => e.undisclosed c) b
  let b := b.modJournal fun j =>
    { j with captureQueue := j.captureQueue.filter fun id => !gone.any fun e => decide (e.capture = id) }
  releaseSpace cfg (2 * gone.length) b

/-- The old contents of a record still in the staging buffer (R70, R113). -/
def stagedData (j : JournalWriter) (capture : Nat) : Option LineData :=
  (j.staging.find? fun s => s.use = .undoData capture).map (·.bytes)

/-- The restore slots of the staged records of a context (R113). When QUIESCE ends after the notice, which has discarded
the staged records outside a burst in flight, such an entry has nothing to copy and its slot has no old data (DEDUCED,
log 14). -/
def settledSlots (b : Blocks) (c : CtxId) : List RestoreSlot :=
  (b.entriesOf c).filterMap fun e =>
    match e.state, e.pos with
    | .capturing, some p => some ⟨e.line, p, stagedData b.journal e.capture, .idle⟩
    | _, _ => none

/-- The lines settled in mode RESTORE: staged records copied and demanded, LOGGED entries to RESTORING (R113). -/
def settleRestore (cfg : Image) (c : CtxId) (b : Blocks) : Blocks :=
  let slots := settledSlots b c
  let b := updateEntries (fun e => decide (e.ctx = c) && decide (e.state = .logged))
    (fun e => { e with state := .restoring }) b
  let b := modRollback c (fun r => { r with phase := .restore, slots := slots }) b
  burstCheck cfg (drainDemands c (.rollback c) b)

/-- Entry to phase RETIRE: the RETIRE marker is asked for (R117). -/
def enterRetire (c : CtxId) (b : Blocks) : Blocks :=
  requestMarker .retire c (modRollback c (fun r => { r with phase := .retire }) b)

/-- The end of QUIESCE (R113). -/
def settleLines (cfg : Image) (c : CtxId) (b : Blocks) : Blocks :=
  let mode := ((b.ctx c).rollback.map (·.mode)).getD .restore
  let b := dropCaptures cfg c b
  match mode with
  | .restore => settleRestore cfg c b
  | .retireOnly => enterRetire c b

/-! ## RESTORE (R114) -/

/-- The RESTORING entries of a context with no restore slot, with their positions. -/
def unslotted (b : Blocks) (c : CtxId) (r : Rollback) : List (Addr × RingPtr) :=
  (b.entriesOf c).filterMap fun e =>
    match e.state, e.pos with
    | .restoring, some p => if r.slots.any fun s => decide (s.line = e.line) then none else some (e.line, p)
    | _, _ => none

/-- The candidate that comes first in ring order, counted forward from the head (R114). -/
def firstFrom (head : RingPtr) : List (Addr × RingPtr) → Option (Addr × RingPtr)
  | [] => none
  | x :: rest =>
    match firstFrom head rest with
    | some y => if head.distance x.2 ≤ head.distance y.2 then some x else some y
    | none => some x

/-- What the next empty restore slot of a context takes (R114); no restore is started after the notice (R39). -/
def nextRestore (b : Blocks) (c : CtxId) : Option (Addr × RingPtr) :=
  match rollbackIn b c .restore with
  | some r =>
    if b.journal.notice || decide (Config.restoreSlots ≤ r.slots.length) then none
    else firstFrom b.journal.head (unslotted b c r)
  | none => none

/-- Fills one restore slot and asks for its RESTORE_READ (R114). -/
def fillSlot (cfg : Image) (c : CtxId) (x : Addr × RingPtr) (b : Blocks) : Blocks :=
  handOver (.lineRead (slotLine cfg (x.2.advance cfg.ringN 1).idx)) .restore (.restoreRead c x.1)
    (modRollback c (fun r => { r with slots := r.slots ++ [⟨x.1, x.2, none, .read⟩] }) b)

/-- Fills the empty restore slots of a context; there are 8 (R114). -/
def fillSlots (cfg : Image) (c : CtxId) : Nat → Blocks → Blocks
  | 0, b => b
  | n + 1, b =>
    match nextRestore b c with
    | some x => fillSlots cfg c n (fillSlot cfg c x b)
    | none => b

/-- Sets the operation of the restore slot of a line, and its old data when given. -/
def setSlot (c : CtxId) (line : Addr) (f : RestoreSlot → RestoreSlot) (b : Blocks) : Blocks :=
  modRollback c (fun r => { r with slots := r.slots.map fun s => if s.line = line then f s else s }) b

/-- Asks for the RESTORE_WRITE of a line: all 64 bytes enabled (R114). After the notice none is asked for (R124). -/
def requestRestoreWrite (c : CtxId) (line : Addr) (d : LineData) (b : Blocks) : Blocks :=
  if b.journal.notice then setSlot c line (fun s => { s with oldData := some d, op := .idle }) b
  else handOver (.lineWrite line fullMask d) .restore (.restoreWrite c line)
    (setSlot c line (fun s => { s with oldData := some d, op := .write }) b)

/-- The restore slot of a line in a rollback's phase RESTORE, with an operation. -/
def slotOf (b : Blocks) (c : CtxId) (line : Addr) (op : RestoreOp) : Option RestoreSlot :=
  match rollbackIn b c .restore with
  | some r => r.slots.find? fun s => decide (s.line = line) && decide (s.op = op)
  | none => none

/-- A staged record of a rolling-back context has become durable: its entry goes to RESTORING and its restore write is
asked for (R113); no restore is started after the notice (R39), and the entry then stays LOGGED (DEDUCED, log 14). -/
def restoreLogged (c : CtxId) (line : Addr) (b : Blocks) : Blocks :=
  match slotOf b c line .idle with
  | some s => match s.oldData with
    | some d =>
      if b.journal.notice then b
      else requestRestoreWrite c line d (updateEntries (fun e => decide (e.line = line))
        (fun e => { e with state := .restoring }) b)
    | none => b
  | none => b

/-! ## RETIRE (R117) -/

/-- Every entry of a context in phase RESTORE is RESTORED (R117). -/
def retireDue (b : Blocks) (c : CtxId) : Bool :=
  (rollbackIn b c .restore).isSome && (b.entriesOf c).all fun e => decide (e.state = .restored)

end Sys2Proof.Machine
end

