-- ==== Sys2Proof/Machine/WindowMap.lean ====
section
/-! DEFINITION. The Window Map: the journal area, the window lookup, the checks of APPLY on windows (spec/01). -/

namespace Sys2Proof.Machine

/-- A line lies in a journal area of n slots at a base (R4); with n = 0 there is no area. -/
def inJournalArea (base n : Nat) (line : Nat) : Bool :=
  decide (n ≠ 0) && decide (base ≤ line) && decide (line < base + 64 * (n + 2))

/-- A line lies in the journal area of an image (R4). -/
def inArea (cfg : Image) (line : Addr) : Bool :=
  inJournalArea cfg.journal.areaBase.toNat cfg.ringN line.toNat

/-- A valid window covers a line (R1). -/
def covers (w : Window) (line : Addr) : Bool :=
  w.valid && decide (w.base.toNat ≤ line.toNat) && decide (line.toNat < w.base.toNat + w.size.toNat)

/-- The result of the lookup (R5). -/
inductive Lookup where
  | journalArea
  | unmapped
  | window (w : Window)
deriving DecidableEq, Repr

/-- The lookup: the journal area first, then the valid entries (R5). -/
def lookup (cfg : Image) (line : Addr) : Lookup :=
  if inArea cfg line then .journalArea
  else match cfg.windows.toList.find? fun w => covers w line with
    | some w => .window w
    | none => .unmapped

/-- Two regions share a byte (R16). -/
def overlap (a s b t : Nat) : Bool := decide (a < b + t) && decide (b < a + s)

/-- The conditions of R16 for the window w of an image, in their order. -/
def windowOk (img : Image) (w : Fin 16) : Bool :=
  let x := img.windows[w]
  !x.valid ||
    (decide (x.base.toNat % 4096 = 0)
      && decide (x.size.toNat % 4096 = 0 ∧ x.size.toNat ≠ 0)
      && decide (x.base.toNat + x.size.toNat ≤ 2 ^ 40)
      && (img.windows.toList.take w.val).all (fun y =>
        !y.valid || !overlap x.base.toNat x.size.toNat y.base.toNat y.size.toNat)
      && (decide (img.ringN = 0)
        || !overlap x.base.toNat x.size.toNat img.journal.areaBase.toNat (64 * (img.ringN + 2))))

end Sys2Proof.Machine
end

