-- ==== Sys2Proof/Machine/Recovery.lean ====
section
/-! DEFINITION. The Recovery Engine (spec/09 R155 to R163). -/

namespace Sys2Proof.Machine

/-! ## Ends (R161, R162) -/

/-- Recovery ends: phase ENDED, the outcome in the summary, RECOVERY_DONE, the journal in its new state (R161). -/
def endRecovery (o : RecoveryOutcome) (st : JournalState) (reason : Option JournalReason) (b : Blocks) : Blocks :=
  let b := b.modRecovery fun r =>
    { r with phase := .ended, step := .idle, summary := { r.summary with outcome := some o } }
  let b := b.modJournal fun j =>
    { j with state := st, reason := reason, anchor := { j.anchor with busy := false } }
  wakeAll (raise .recoveryDone b)

/-- Recovery ends in UNFORMATTED (R156). -/
def recoveryUnformatted (reason : JournalReason) (b : Blocks) : Blocks :=
  endRecovery (.unformatted reason) .unformatted (some reason) b

/-- Recovery ends in FAILED (R162). -/
def recoveryFail (reason : JournalReason) (b : Blocks) : Blocks :=
  raise .journalFailed (endRecovery (.failed reason) .failed (some reason) b)

/-! ## Reads (R155) -/

/-- Asks for a recovery read of a line and records what the pass waits for. -/
def recoveryRead (line : Addr) (what : RecoveryRead) (step : RecoveryStep) (b : Blocks) : Blocks :=
  handOver (.lineRead line) .restore (.recoveryRead what) (b.modRecovery fun r => { r with step := step })

/-- The chosen ring size (R155). -/
def RecoveryEngine.ringSize (r : RecoveryEngine) : Nat := (r.chosen.map (·.ringSize)).getD 0

/-- The format count of the chosen anchor. -/
def RecoveryEngine.formatCount (r : RecoveryEngine) : Count32 := (r.chosen.map (·.formatCount)).getD 0

/-- Asks for the slot at the scan position as a header (R157, R159). -/
def readHeader (cfg : Image) (b : Blocks) : Blocks :=
  recoveryRead (slotLine cfg b.recovery.pos.idx) .header .header b

/-- Asks for the data slot that follows a header in ring order (R157). -/
def readData (cfg : Image) (h : LineData) (b : Blocks) : Blocks :=
  recoveryRead (slotLine cfg (b.recovery.pos.advance b.recovery.ringSize 1).idx) .dataSlot (.dataSlot h) b

/-- The slots of a record (R63). -/
def RecordKind.slots : RecordKind → Nat
  | .undo => 2
  | .commit => 1
  | .retire => 1

/-- The position advances past a record (R157). -/
def RecoveryEngine.advance (r : RecoveryEngine) (k : RecordKind) : RecoveryEngine :=
  { r with pos := r.pos.advance r.ringSize k.slots, passed := r.passed + k.slots }

/-! ## Finish (R160) -/

/-- The next epoch number of the finish, before its range is looked at (R160). -/
def RecoveryEngine.nextEpoch (r : RecoveryEngine) : Nat :=
  max ((r.chosen.map (·.nextEpoch.toNat)).getD 0) (r.largest.toNat + 1)

/-- The sequence at the end of log. -/
def RecoveryEngine.endSeq (r : RecoveryEngine) : Count32 := (r.endOfLog.map (·.seq)).getD 0

/-- The generation of the chosen anchor. -/
def RecoveryEngine.chosenGen (r : RecoveryEngine) : Count32 := (r.chosen.map (·.generation)).getD 0

/-- The copy that was chosen. -/
def RecoveryEngine.chosenCopy (r : RecoveryEngine) : AnchorCopy := (r.chosen.map (·.copy)).getD .a

/-- The other copy. -/
def AnchorCopy.other : AnchorCopy → AnchorCopy
  | .a => .b
  | .b => .a

/-- The contents of an anchor copy of the finish, with its generation (R160). -/
def finishFields (cfg : Image) (r : RecoveryEngine) (gen : Count32) : AnchorFields :=
  ⟨gen, 0, r.endSeq, BitVec.ofNat 48 r.nextEpoch, cfg.journal.ringSize, r.formatCount⟩

/-- Phase FINISH: the empty ring is laid down and the copy that was not chosen is written (R160). The pointers take the
end-of-log sequence here, before the writes, and keep it when one of them fails (DESIGN CHOICE, log 40). -/
def finish (cfg : Image) (b : Blocks) : Blocks :=
  let r := b.recovery
  if 2 ^ 48 ≤ r.nextEpoch then recoveryFail .epochExhausted b
  else
    let p : RingPtr := ⟨0, r.endSeq⟩
    let b := b.modRecovery fun r => { r with phase := .finish, step := .idle }
    let b := b.modJournal fun j => { j with
      tail := p
      durable := p
      head := p
      anchored := p
      reserved := 0
      live := []
      staging := []
      anchor := { j.anchor with formatCount := r.formatCount } }
    writeAnchor cfg r.chosenCopy.other (finishFields cfg r (r.chosenGen + 1)) .finishFirst b

/-- The first copy of the finish is persisted: the chosen copy is written; after the notice it is not (R160, R163). The
anchor state keeps the generations it had until the second copy has persisted (DESIGN CHOICE, log 35). -/
def finishSecond (cfg : Image) (b : Blocks) : Blocks :=
  if b.journal.notice then b.modJournal fun j => { j with anchor := { j.anchor with busy := false } }
  else writeAnchor cfg b.recovery.chosenCopy (finishFields cfg b.recovery (b.recovery.chosenGen + 2)) .finishSecond b

/-- The anchor state the finish leaves (R160). -/
def finishAnchor (r : RecoveryEngine) (a : AnchorState) : AnchorState :=
  let chosen := r.chosenGen + 2
  let other := r.chosenGen + 1
  { a with
    genA := if r.chosenCopy = .a then chosen else other
    genB := if r.chosenCopy = .a then other else chosen
    suspectA := false
    suspectB := false
    failures := 0
    busy := false }

/-- The second copy of the finish is persisted: the journal is READY (R160); after the notice it stays RECOVERING
(R163, log 16). -/
def finishDone (b : Blocks) : Blocks :=
  if b.journal.notice then b.modJournal fun j => { j with anchor := { j.anchor with busy := false } }
  else
    let r := b.recovery
    let b := { b with epochs := { b.epochs with counter := BitVec.ofNat 48 r.nextEpoch } }
    let b := b.modJournal fun j => { j with anchor := finishAnchor r j.anchor }
    endRecovery .ready .ready none b

/-! ## Restore pass (R159) -/

/-- The restore pass goes on: to the next header, to a wait for writes, or to FINISH (R159). -/
def restoreNext (cfg : Image) (b : Blocks) : Blocks :=
  let r := b.recovery
  match r.toVisit with
  | [] =>
    if r.writes = 0 then finish cfg b else b.modRecovery fun r => { r with step := .lastWrites }
  | _ :: _ =>
    if Config.restoreSlots ≤ r.writes then b.modRecovery fun r => { r with step := .writesFull }
    else readHeader cfg b

/-- The restore pass leaves a record behind it. -/
def passRecord (cfg : Image) (k : RecordKind) (b : Blocks) : Blocks :=
  restoreNext cfg (b.modRecovery fun r => { r.advance k with toVisit := r.toVisit.tail })

/-- A header read by the restore pass (R159). -/
def restoreHeader (cfg : Image) (h : LineData) (b : Blocks) : Blocks :=
  let r := b.recovery
  match r.toVisit.head? with
  | some k =>
    if headerKind h = some k ∧ headerSeq h = r.pos.seq then
      match k with
      | .undo =>
        if r.table.any fun t => decide (t.epoch = headerEpoch h) then readData cfg h b else passRecord cfg .undo b
      | .commit => passRecord cfg .commit b
      | .retire => passRecord cfg .retire b
    else recoveryFail .ringInconsistent b
  | none => b

/-- A data slot read by the restore pass (R159). The restore write counts as in flight from its hand-over, while it waits
for its grant too (DESIGN CHOICE, log 28). -/
def restoreData (cfg : Image) (h d : LineData) (b : Blocks) : Blocks :=
  if storedCheck h = headerCheck b.recovery.formatCount h (some d) then
    passRecord cfg .undo (handOver (.lineWrite (lineOf (headerLine h)) fullMask d) .restore .recoveryWrite
      (b.modRecovery fun r => { r with writes := r.writes + 1 }))
  else recoveryFail .ringInconsistent b

/-! ## Scan pass (R157, R158) -/

/-- The end of log is at the scan position: complete entries leave the table, and RESTORE or FINISH follows (R157, R158,
R161). -/
def scanEnd (cfg : Image) (b : Blocks) : Blocks :=
  let b := b.modRecovery fun r =>
    let left := r.table.filter fun t => !t.complete
    { r with
      endOfLog := some r.pos
      table := left
      summary := { r.summary with endOfLog := some r.pos, epochsUndone := left.length } }
  if b.recovery.table.isEmpty then finish cfg b
  else restoreNext cfg (b.modRecovery fun r => { r with
    phase := .restore
    pos := (r.chosen.map (·.head)).getD .zero
    passed := 0
    toVisit := r.found })

/-- Removes the complete entry that was added earliest (R158). -/
def evictComplete : List RecoveryEpoch → List RecoveryEpoch
  | [] => []
  | t :: rest => if t.complete then rest else t :: evictComplete rest

/-- The epoch table after an UNDO record whose epoch it does not hold (R158). -/
def tableAdd (table : List RecoveryEpoch) (e : Epoch) (c : CtxId) : Option (List RecoveryEpoch) :=
  if table.length < Config.epochTableCapacity then some (table ++ [⟨e, c, false⟩])
  else if table.any fun t => t.complete then some (evictComplete table ++ [⟨e, c, false⟩])
  else none

/-- The epoch table after a record; none where the ring is inconsistent (R158). A different context is looked at
first (log 17). -/
def tableTake (table : List RecoveryEpoch) (k : RecordKind) (e : Epoch) (c : CtxId) : Option (List RecoveryEpoch) :=
  match table.find? fun t => t.epoch = e, k with
  | none, .undo => tableAdd table e c
  | none, _ => some table
  | some t, .undo => if t.ctx ≠ c ∨ t.complete then none else some table
  | some t, _ =>
    if t.ctx ≠ c then none
    else some (table.map fun x => if x.epoch = e then { x with complete := true } else x)

/-- A record that passed every test is taken, and the next slot is read (R157, R158). -/
def takeRecord (cfg : Image) (k : RecordKind) (h : LineData) (b : Blocks) : Blocks :=
  let e := headerEpoch h
  match tableTake b.recovery.table k e (headerCtx h) with
  | none => recoveryFail .ringInconsistent b
  | some table =>
    readHeader cfg (b.modRecovery fun r => { r.advance k with
      table := table
      largest := if r.largest.toNat < e.toNat then e else r.largest
      found := r.found ++ [k] })

/-- A header read by the scan pass: tests 1 to 4 of R157, and test 5 for a marker. -/
def scanHeader (cfg : Image) (h : LineData) (b : Blocks) : Blocks :=
  let r := b.recovery
  if r.passed < r.ringSize ∧ headerSeq h = r.pos.seq then
    match headerKind h with
    | none => scanEnd cfg b
    | some .undo => if r.passed + 2 ≤ r.ringSize then readData cfg h b else scanEnd cfg b
    | some k => if storedCheck h = headerCheck r.formatCount h none then takeRecord cfg k h b else scanEnd cfg b
  else scanEnd cfg b

/-- A data slot read by the scan pass: tests 5 and 6 of R157. -/
def scanData (cfg : Image) (h d : LineData) (b : Blocks) : Blocks :=
  let r := b.recovery
  if storedCheck h = headerCheck r.formatCount h (some d) then
    if inJournalArea cfg.journal.areaBase.toNat r.ringSize (lineOf (headerLine h)).toNat then
      recoveryFail .ringInconsistent b
    else takeRecord cfg .undo h b
  else scanEnd cfg b

/-! ## Anchor step (R156) -/

/-- The copy chosen of two read lines (R156). -/
def chooseAnchor (a b : LineData) : Option AnchorCopy :=
  let fa := readAnchor a
  let fb := readAnchor b
  match anchorValid a, anchorValid b with
  | false, false => none
  | true, false => some .a
  | false, true => some .b
  | true, true =>
    if fa.formatCount ≠ fb.formatCount then
      if aheadOf fa.formatCount fb.formatCount then some .a else some .b
    else if fa.generation = fb.generation then some .a
    else if aheadOf fa.generation fb.generation then some .a else some .b

/-- The format count when neither copy is valid (R156). -/
def unchosenFormatCount (a b : LineData) : Count32 :=
  let fa := (readAnchor a).formatCount
  let fb := (readAnchor b).formatCount
  if aheadOf fb fa then fb else fa

/-- The fields of the chosen copy (R155). -/
def chosenOf (copy : AnchorCopy) (d : LineData) : ChosenAnchor :=
  let f := readAnchor d
  ⟨copy, f.generation, ⟨f.headIdx.toNat, f.headSeq⟩, f.nextEpoch, f.ringSize.toNat, f.formatCount⟩

/-- Both copies have been read: the choice, the format count, the start of the scan (R156). -/
def judgeAnchors (cfg : Image) (a d : LineData) (b : Blocks) : Blocks :=
  match chooseAnchor a d with
  | none =>
    recoveryUnformatted .noAnchor (b.modJournal fun j =>
      { j with anchor := { j.anchor with formatCount := unchosenFormatCount a d } })
  | some copy =>
    let ch := chosenOf copy (match copy with | .a => a | .b => d)
    let b := b.modJournal fun j => { j with anchor := { j.anchor with formatCount := ch.formatCount } }
    readHeader cfg (b.modRecovery fun r => { r with
      chosen := some ch
      phase := .scan
      pos := ch.head
      passed := 0
      summary := { r.summary with anchorUsed := some copy } })

/-- One anchor copy has been read (R156). -/
def anchorRead (cfg : Image) (copy : AnchorCopy) (d : LineData) (b : Blocks) : Blocks :=
  let b := b.modRecovery fun r =>
    match copy with
    | .a => { r with anchorA := some d }
    | .b => { r with anchorB := some d }
  match b.recovery.anchorA, b.recovery.anchorB with
  | some x, some y => judgeAnchors cfg x y b
  | _, _ => b

/-- Recovery begins: it ends at once when N is 0, and otherwise both copies are read (R156). The read of copy A is handed
over first, and so granted first (DESIGN CHOICE, log 39). -/
def startRecovery (cfg : Image) (b : Blocks) : Blocks :=
  if cfg.ringN = 0 then recoveryUnformatted .noArea b
  else recoveryRead (anchorLine cfg .b) (.anchor .b) .anchors
    (recoveryRead (anchorLine cfg .a) (.anchor .a) .anchors b)

/-! ## Completions -/

/-- A recovery read has returned data: the phase's own work; dropped after the end of recovery (R162) and after the
notice (R163). -/
def recoveryReadData (cfg : Image) (what : RecoveryRead) (d : LineData) (b : Blocks) : Blocks :=
  let r := b.recovery
  if b.journal.notice then b
  else match r.phase, what, r.step with
    | .anchor, .anchor copy, _ => anchorRead cfg copy d b
    | .scan, .header, .header => scanHeader cfg d b
    | .scan, .dataSlot, .dataSlot h => scanData cfg h d b
    | .restore, .header, .header => restoreHeader cfg d b
    | .restore, .dataSlot, .dataSlot h => restoreData cfg h d b
    | _, _, _ => b

/-- A recovery operation has failed: recovery ends in FAILED, after the notice too (R162, R163); dropped once recovery
has ended. -/
def recoveryOpFailed (reason : JournalReason) (b : Blocks) : Blocks :=
  if b.recovery.phase = .ended then b else recoveryFail reason b

/-- A recovery write has persisted (R159); after the notice it only raises lines restored (R163). -/
def recoveryWriteDone (cfg : Image) (b : Blocks) : Blocks :=
  if b.recovery.phase = .ended then b
  else
    let b := b.modRecovery fun r => { r with
      writes := r.writes - 1
      summary := { r.summary with linesRestored := r.summary.linesRestored + 1 } }
    let go := match b.recovery.step with
      | .writesFull => true
      | .lastWrites => true
      | _ => false
    if go && !b.journal.notice then restoreNext cfg b else b

end Sys2Proof.Machine
end

