-- ==== Sys2Proof/Machine/Arbiter.lean ====
section
/-! DEFINITION. The arbiter of the Memory Port (spec/07 R126, R129, R130). -/

namespace Sys2Proof.Machine

/-- The classes, the highest-ranked first (R129). -/
def allClasses : List MemClass := [.anchor, .burst, .restore, .capture, .release, .passThrough]

/-- The class that the next grant goes to: the highest-ranked at 16 with an eligible request, otherwise the
highest-ranked with an eligible request (R130). -/
def MemoryPort.pickClass (m : MemoryPort) : Option MemClass :=
  let waiting := allClasses.filter fun c => (m.eligibleIn c).isSome
  (waiting.find? fun c => decide (m.passOver.get c = Config.passOverLimit)).or waiting.head?

/-- The request that the next grant goes to (R129, R130). -/
def MemoryPort.pick (m : MemoryPort) : Option MemRequest := m.pickClass.bind m.eligibleIn

/-- The free operation slots (R126). -/
def MemoryPort.freeSlots (m : MemoryPort) : List SlotNo := allSlots.filter fun k => m.slots[k].isNone

/-- The counts after a grant: 0 for the class granted, one more, up to 16, for every other class that had an eligible
request (R130). -/
def MemoryPort.countsAfter (m : MemoryPort) (granted : MemClass) : PassOver :=
  PassOver.build fun c =>
    if c = granted then 0
    else if (m.eligibleIn c).isSome then min Config.passOverLimit (m.passOver.get c + 1)
    else 0

/-- The port after request r has become operation o in slot k (R126). -/
def MemoryPort.granted (m : MemoryPort) (k : SlotNo) (r : MemRequest) (o : Outstanding) : MemoryPort :=
  { m with
    waiting := m.waiting.erase r
    slots := m.slots.set k.val (some o)
    issue := m.issue.set k.val (m.issue[k] + 1)
    passOver := m.countsAfter r.cls }.settleCounts

/-- The operation a request becomes at its grant, with its timer (R127). -/
def operationOf (cfg : Image) (b : Blocks) (r : MemRequest) : Outstanding :=
  ⟨opAtGrant b.held r, r.cls, r.owner, r.order, b.clock + cfg.timing.downstream.toNat⟩

/-- One grant, into a free slot (log 2), when a slot is free and an eligible request waits; nothing is granted after the
power-fail notice (R129, R135). -/
def grantOne (cfg : Image) (b : Blocks) : Option Blocks :=
  if b.journal.notice then none
  else match b.mem.pick, chooseFrom b.mem.freeSlots b.free with
    | some r, some (k, f) =>
      some { b with
        free := f
        held := heldAtGrant b.held r
        mem := b.mem.granted k r (operationOf cfg b r) }
    | _, _ => none

/-- Grants while a slot is free and an eligible request waits; there are 32 slots (R129). -/
def arbitrate (cfg : Image) : Nat → Blocks → Blocks
  | 0, b => b
  | n + 1, b =>
    match grantOne cfg b with
    | some b' => arbitrate cfg n b'
    | none => b

end Sys2Proof.Machine
end

