-- ==== Sys2Proof/Machine/Classify.lean ====
section
/-! DEFINITION. Classification of READ, WRITE and COMMIT (spec/01 R6, R10, R12; spec/02 R28). -/

namespace Sys2Proof.Machine

/-! ## READ (R6) -/

/-- The outcome of the classification of a READ (R6). -/
inductive ReadOutcome where
  | refused (st : UpStatus)
  | stalled (cause : StallCause)
  | passThrough
  | journaled
deriving DecidableEq, Repr

/-- A line's tracking entry is RESTORING (R9, R57). -/
def Blocks.lineRestoring (b : Blocks) (line : Addr) : Bool :=
  match b.entryOf line with
  | some e => decide (e.state = .restoring)
  | none => false

/-- Classifies a READ by the steps of R6. -/
def classifyRead (cfg : Image) (b : Blocks) (line : Addr) : ReadOutcome :=
  match lookup cfg line with
  | .journalArea => .refused .unmapped
  | .unmapped => .refused .unmapped
  | .window w =>
    match w.kind with
    | .direct => .passThrough
    | .readOnly => .passThrough
    | .journaled =>
      if b.journal.state = .recovering then .stalled .recovering
      else if b.lineRestoring line then .stalled .restoring
      else .journaled

/-! ## WRITE (R10, R12) -/

/-- The outcome of the classification of a WRITE (R10, R12). -/
inductive WriteOutcome where
  | refused (st : UpStatus)
  | stalled (cause : StallCause)
  | direct
  | conflict (e : TrackEntry)
  | captureStall
  | merge (c : CtxId)
  | newEntry (c : CtxId) (st : HeldState)
  | firstTouch (c : CtxId)
deriving DecidableEq, Repr

/-- The slots a first touch needs: 2, and a third for the marker of an epoch it would open (R12 step 6j). -/
def slotsNeeded : CtxState → Nat
  | .idle => 3
  | _ => 2

/-- Steps 6i to 6l of R12: the line is untracked. -/
def classifyUntracked (cfg : Image) (b : Blocks) (c : CtxId) : WriteOutcome :=
  if cfg.ctxs[c].quota.toNat ≤ b.trackedCount c then .refused .capacity
  else if b.journal.pause || decide (b.journal.unreserved cfg.ringN < slotsNeeded (b.ctx c).state) then .captureStall
  else if b.held.full then .stalled .heldFull
  else .firstTouch c

/-- Steps 6g and 6h of R12, then the rest. -/
def classifyTracked (cfg : Image) (b : Blocks) (c : CtxId) (line : Addr) : WriteOutcome :=
  match b.entryOf line with
  | some e =>
    if e.ctx = c then
      if b.held.mergeable line then .merge c
      else if b.held.full then .stalled .heldFull
      else .newEntry c (if e.state = .capturing then .waitLog else .ready)
    else .conflict e
  | none => classifyUntracked cfg b c

/-- Steps 6e and 6f of R12: the context's state (R24). -/
def classifyInContext (cfg : Image) (b : Blocks) (c : CtxId) (line : Addr) : WriteOutcome :=
  match (b.ctx c).state with
  | .faulted => .refused .contextFaulted
  | .draining => .stalled .context
  | .marking => .stalled .context
  | .rollback => .stalled .context
  | .idle => classifyTracked cfg b c line
  | .opened => classifyTracked cfg b c line

/-- Steps 6a to 6d of R12: binding and journal state. SAFE is never met (R12); POWER stands there (log 22). In FAILED
step 6d refuses a write before 6h looks at the line, as R82 and R83 say too; that R52 has such writes to another
context's line meet conflict waits is not followed (DESIGN CHOICE, log 30). -/
def classifyJournaled (cfg : Image) (b : Blocks) (i : StreamId) (line : Addr) : WriteOutcome :=
  match cfg.bindings[i] with
  | none => .refused .unbound
  | some c =>
    match b.journal.state with
    | .recovering => .stalled .recovering
    | .formatting => .stalled .formatting
    | .unformatted => .refused .journalUnavailable
    | .failed => .refused .journalUnavailable
    | .safe => .refused .power
    | .ready => classifyInContext cfg b c line

/-- Classifies a WRITE by the steps of R10. -/
def classifyWrite (cfg : Image) (b : Blocks) (i : StreamId) (line : Addr) (m : ByteMask) : WriteOutcome :=
  if m = 0 then .refused .malformed
  else match lookup cfg line with
    | .journalArea => .refused .unmapped
    | .unmapped => .refused .unmapped
    | .window w =>
      if w.kind = .readOnly then .refused .readOnly
      else if !w.writers.getLsbD i.val then .refused .notPermitted
      else if w.kind = .direct then .direct
      else classifyJournaled cfg b i line

/-! ## COMMIT (R28) -/

/-- The outcome of the checks of an upstream COMMIT (R28). -/
inductive CommitOutcome where
  | answered (st : UpStatus)
  | stalled (cause : StallCause)
  | begins (c : CtxId)
  | joins (c : CtxId)
deriving DecidableEq, Repr

/-- Steps 4 to 8 of R28: the context's state. -/
def commitInContext (c : CtxId) : CtxState → CommitOutcome
  | .idle => .answered .okay
  | .opened => .begins c
  | .draining => .joins c
  | .marking => .joins c
  | .rollback => .answered .aborted
  | .faulted => .answered .contextFaulted

/-- Checks an upstream COMMIT by the steps of R28 (in SAFE none is met: log 22). -/
def classifyCommit (cfg : Image) (b : Blocks) (i : StreamId) : CommitOutcome :=
  match cfg.bindings[i] with
  | none => .answered .unbound
  | some c =>
    match b.journal.state with
    | .recovering => .stalled .recovering
    | .formatting => .stalled .formatting
    | .unformatted => .answered .journalUnavailable
    | .failed => .answered .journalUnavailable
    | .safe => .answered .power
    | .ready => commitInContext c (b.ctx c).state

end Sys2Proof.Machine
end

