-- ==== Sys2Proof/Machine/Requests.lean ====
section
/-! DEFINITION. What a current request does: reads, writes, barriers, commits (spec/01, spec/02, spec/08). -/

namespace Sys2Proof.Machine

/-- Sets the phase of stream i. -/
def setPhase (i : StreamId) (p : Phase) (b : Blocks) : Blocks := b.modStream i fun r => { r with phase := p }

/-- A stall without a deadline: the stall record takes the cause, and no wait record stands (R147). -/
def stallAt (i : StreamId) (cause : StallCause) (b : Blocks) : Blocks :=
  b.modStream i fun r => { r with phase := .stalled cause, conflict := none, captureStall := none }

/-! ## READ (R7, R100, R101) -/

/-- A journaled read: answered from the held bytes when they cover the line, otherwise sent to memory with an overlay
record (R100, R101). -/
def journaledRead (i : StreamId) (line : Addr) (b : Blocks) : Blocks :=
  if b.held.coverMask line = fullMask then answer i .okay (some (b.held.layOver line 0)) b
  else setPhase i .reading
    (handOver (.lineRead line) .passThrough (.passRead i true) (addOverlay i line b))

/-- The current request is a READ (R6, R141). -/
def handleRead (cfg : Image) (i : StreamId) (line : Addr) (b : Blocks) : Blocks :=
  match classifyRead cfg b line with
  | .refused st => answer i st none b
  | .stalled cause => stallAt i cause b
  | .passThrough => setPhase i .reading (handOver (.lineRead line) .passThrough (.passRead i false) b)
  | .journaled => journaledRead i line b

/-! ## WRITE (R11, R13, R25, R53, R81, R142) -/

/-- A WRITE is accepted: ACK OKAY, and the outstanding-write count rises by one (R142). -/
def acceptWrite (i : StreamId) (b : Blocks) : Blocks :=
  (answer i .okay none b).modStream i fun r => { r with outstanding := r.outstanding + 1 }

/-- A journaled WRITE is accepted in its context: the idle timer starts in OPEN (R31). -/
def acceptJournaled (cfg : Image) (i : StreamId) (c : CtxId) (b : Blocks) : Blocks :=
  let b := acceptWrite i b
  if (b.ctx c).state = .opened then startIdleTimer cfg c b else b

/-- A direct write (R11). -/
def directWrite (i : StreamId) (line : Addr) (m : ByteMask) (d : LineData) (b : Blocks) : Blocks :=
  acceptWrite i (handOver (.lineWrite line m d) .passThrough (.directWrite i) b)

/-- A conflict wait: the record is kept for the same line, context and epoch, and otherwise made anew (R53, R55). -/
def conflictStall (cfg : Image) (i : StreamId) (line : Addr) (e : TrackEntry) (b : Blocks) : Blocks :=
  let fresh : ConflictWait := ⟨line, e.ctx, e.epoch, b.clock + cfg.timing.conflictWait.toNat⟩
  b.modStream i fun r => { r with
    phase := .stalled .conflict
    captureStall := none
    conflict := match r.conflict with
      | some w => if w.line = line ∧ w.ctx = e.ctx ∧ w.epoch = e.epoch then some w else some fresh
      | none => some fresh }

/-- A capture stall: the record keeps its original deadline (R81). -/
def captureStallAt (cfg : Image) (i : StreamId) (b : Blocks) : Blocks :=
  b.modStream i fun r => { r with
    phase := .stalled .capture
    conflict := none
    captureStall := match r.captureStall with
      | some t => some t
      | none => some (b.clock + cfg.timing.captureStall.toNat) }

/-- The largest epoch number (R26). -/
def lastEpoch : Epoch := BitVec.allOnes 48

/-- An epoch is opened (R25, R26); at 2^48 - 1 the counter stays (R27). -/
def openEpoch (c : CtxId) (b : Blocks) : Blocks :=
  let n := b.epochs.counter
  let b := b.modCtx c fun x => { x with state := .opened, epoch := some n, undoCount := 0 }
  { b with epochs := { b.epochs with counter := if n = lastEpoch then n else n + 1 } }

/-- A CAPTURING entry is inserted and its capture joins the capture queue (R45, R70). -/
def insertEntry (i : StreamId) (c : CtxId) (line : Addr) (b : Blocks) : Blocks :=
  let id := b.nextCapture
  let e : TrackEntry := ⟨line, c, (b.ctx c).epoch.getD 0, .capturing, none, id, i⟩
  { b with
    track := b.track ++ [e]
    journal := { b.journal with captureQueue := b.journal.captureQueue ++ [id] }
    nextCapture := id + 1 }

/-- A journaled first touch is accepted (R13): epoch, tracking entry, held entry, ACK and count, reservation. -/
def firstTouch (cfg : Image) (i : StreamId) (c : CtxId) (line : Addr) (m : ByteMask) (d : LineData) (b : Blocks) :
    Blocks :=
  let opens := decide ((b.ctx c).state = .idle)
  let slots := slotsNeeded (b.ctx c).state
  let exhausted := opens && decide (b.epochs.counter = lastEpoch)
  let b := if opens then openEpoch c b else b
  let b := allocHeld i c line m d .waitLog (insertEntry i c line b)
  let b := reserve cfg slots (acceptJournaled cfg i c b)
  let b := if opens then wakeContext cfg c b else b
  if exhausted then journalFail cfg .epochExhausted none b else b

/-- The current request is a WRITE (R10, R12, R142). -/
def handleWrite (cfg : Image) (i : StreamId) (line : Addr) (m : ByteMask) (d : LineData) (b : Blocks) : Blocks :=
  if (b.stream i).outstanding = Config.outstandingLimit then setPhase i .countHold b
  else match classifyWrite cfg b i line m with
    | .refused st => refuseWrite i line st b
    | .stalled cause => stallAt i cause b
    | .direct => directWrite i line m d b
    | .conflict e => conflictStall cfg i line e b
    | .captureStall => captureStallAt cfg i b
    | .merge c => acceptJournaled cfg i c (mergeHeld i line m d b)
    | .newEntry c st => acceptJournaled cfg i c (allocHeld i c line m d st b)
    | .firstTouch c => firstTouch cfg i c line m d b

/-! ## BARRIER (R144, R145) -/

/-- The demands of a BARRIER at the event it becomes current (R145). -/
def barrierDemands (i : StreamId) (lines : List Addr) (b : Blocks) : Blocks :=
  lines.foldl (fun b l => match (b.entryOf l).bind (·.pos) with
    | some p => placeDemand ⟨p.dataSeq, .barrier i⟩ b
    | none => b) b

/-- The current request is a BARRIER (R144, R145). -/
def handleBarrier (cfg : Image) (i : StreamId) (b : Blocks) : Blocks :=
  if (b.stream i).outstanding = 0 then answerBarrier i b
  else
    let lines := b.held.waitLinesOf i
    burstCheck cfg (barrierDemands i lines (setPhase i (.barrier lines) b))

/-! ## COMMIT (R28) -/

/-- A stream joins the commit waiters of a context (R30). -/
def joinWaiters (i : StreamId) (c : CtxId) (b : Blocks) : Blocks :=
  setPhase i .commitWaiter (b.modCtx c fun x => { x with waiters := x.waiters ++ [i] })

/-- The current request is a COMMIT (R28, R104, R146). -/
def handleCommit (cfg : Image) (i : StreamId) (b : Blocks) : Blocks :=
  match classifyCommit cfg b i with
  | .answered st => answer i st none b
  | .stalled cause => stallAt i cause b
  | .joins c => joinWaiters i c b
  | .begins c => beginCommit cfg c (joinWaiters i c b)

/-! ## The current request, and arrival (R138, R139) -/

/-- Handles the current request of stream i (R139). -/
def handleCurrent (cfg : Image) (i : StreamId) (b : Blocks) : Blocks :=
  match (b.stream i).queue with
  | [] => setPhase i .idle b
  | q :: _ =>
    match q.kind with
    | .read a => handleRead cfg i (lineOf a) b
    | .write a m d => handleWrite cfg i (lineOf a) m d b
    | .barrier => handleBarrier cfg i b
    | .commit => handleCommit cfg i b

/-- A request joins its stream's queue; in an empty one it becomes the current request (R138). -/
def StreamRec.enqueue (r : StreamRec) (q : Request) : StreamRec :=
  { r with queue := r.queue ++ [q], phase := if r.queue.isEmpty then .fresh else r.phase }

/-- A request arrives: POWER after the notice, dropped on a full queue, otherwise queued (R138, R148). -/
def arrive (i : StreamId) (q : Request) (b : Blocks) : Blocks :=
  if b.journal.notice then b.modStream i fun r => { r with sent := r.sent ++ [responseTo q .power none] }
  else if Config.queueDepth ≤ (b.stream i).queue.length then reportDrop i b
  else b.modStream i fun r => r.enqueue q

end Sys2Proof.Machine
end

