-- ==== Sys2Proof/Machine/Settle.lean ====
section
/-! DEFINITION. The rest of an event: contexts go on, the buffer is served, releases are asked for, barriers are
answered, current requests are handled, grants are made, SAFE is entered (log 6). -/

namespace Sys2Proof.Machine

/-! ## What is due (each with its own effect) -/

/-- A rollback goes on as far as it can: end of QUIESCE, restore slots, RETIRE (R113, R114, R117). -/
def rollbackStep (cfg : Image) (b : Blocks) (c : CtxId) : Blocks :=
  let b := if quiesceDue b c then settleLines cfg c b else b
  let b := fillSlots cfg c Config.restoreSlots b
  if retireDue b c then enterRetire c b else b

/-- A context goes on as far as it can: end of the drain (R106), rollback. -/
def contextStep (cfg : Image) (b : Blocks) (c : CtxId) : Blocks :=
  match (b.ctx c).state with
  | .draining => if drainDue b c then enterMarking cfg c b else b
  | .rollback => rollbackStep cfg b c
  | _ => b

/-- The BARRIERs that are due are answered (R144). -/
def answerBarriers (b : Blocks) : Blocks :=
  (allStreams.filter (barrierDue b)).foldl (fun b i => answerBarrier i b) b

/-- The held WRITEs whose stream's count has fallen are handed on (R142). -/
def handOnCounts (b : Blocks) : Blocks :=
  (allStreams.filter (countDue b)).foldl (fun b i => setPhase i .fresh b) b

/-- Everything that goes on within an event without a request being handled. -/
def progress (cfg : Image) (b : Blocks) : Blocks :=
  let b := allCtxs.foldl (contextStep cfg) b
  let b := serveBuffer cfg Config.stagingCapacity b
  handOnCounts (answerBarriers (requestReleases b))

/-- The streams whose current request is to be handled. -/
def freshStreams (b : Blocks) : List StreamId := allStreams.filter fun i => decide ((b.stream i).phase = .fresh)

/-- Handles one of the current requests that are to be handled, and goes on; which of several is taken first is free
(log 2). -/
def handleNext (cfg : Image) (goOn : Blocks → Blocks) (b : Blocks) : Blocks :=
  match chooseFrom (freshStreams b) b.free with
  | none => b
  | some (i, f) => goOn (handleCurrent cfg i { b with free := f })

/-- Goes on until no current request is to be handled. The count bounds the requests handled in one event (log 25). -/
def settle (cfg : Image) : Nat → Blocks → Blocks
  | 0, b => progress cfg b
  | n + 1, b => handleNext cfg (settle cfg n) (progress cfg b)

/-- The most requests handled in one event (log 25). -/
def settleBound : Nat := 2048

/-- The journal enters SAFE once the notice has been taken and no operation is outstanding (R151); its reason is kept and
the pause flag is cleared (R80, R82). -/
def enterSafe (b : Blocks) : Blocks :=
  if b.journal.notice && b.mem.quiet && decide (b.journal.state ≠ .safe) then
    b.modJournal fun j => { j with state := .safe, pause := false }
  else b

/-- The rest of an event, after the command's own effect. -/
def finishEvent (cfg : Image) (b : Blocks) : Blocks := enterSafe (arbitrate cfg 32 (settle cfg settleBound b))

/-- A command that acts on the blocks as one event; while RESET_N is low nothing is taken (R153). -/
def State.event (s : State) (f : Blocks → Blocks) : State :=
  if s.pins.resetLow then s else { s with blocks := finishEvent s.mgmt.active (f s.blocks) }

end Sys2Proof.Machine
end

