-- ==== Sys2Proof/Machine/Ends.lean ====
section
/-! DEFINITION. The ends of operations, handed to their owners (spec/07 R127, R128, R132, R133). -/

namespace Sys2Proof.Machine

/-- How an operation ended (R127). -/
inductive OpEnd where
  | data (d : LineData)
  | persisted
  | failed (st : DownStatus)
deriving DecidableEq, Repr

/-- The end that a matching completion gives an operation: one that does not fit is an ERROR (R128). -/
def endOf (op : MemOp) (k : Completion) : OpEnd :=
  match op, k with
  | .lineRead _, .data d => .data d
  | .lineRead _, _ => .failed .error
  | _, .persisted => .persisted
  | _, _ => .failed .error

/-! ## Pass-through operations -/

/-- The end of a pass-through read (R7, R100, R141); one answered POWER has its data dropped (R148). -/
def passReadEnd (i : StreamId) (journaled : Bool) (o : OpEnd) (line : Addr) (b : Blocks) : Blocks :=
  let answered := match o with
    | .data d =>
      if (b.stream i).phase = .reading then
        answer i .okay (some (if journaled then b.held.journaledData i line d else d)) b
      else b
    | _ => if (b.stream i).phase = .reading then answer i .memory none b else b
  if journaled then dropOverlay i answered else answered

/-- The end of a direct write (R143). -/
def directWriteEnd (i : StreamId) (o : OpEnd) (b : Blocks) : Blocks :=
  match o with
  | .persisted => settleWrites none i 1 b
  | _ => settleWrites (some .memory) i 1 b

/-! ## Captures (R45, R50) -/

/-- The entry a capture belongs to, while it exists and is CAPTURING with no record position (R45). -/
def captureEntry (b : Blocks) (id : Nat) : Option TrackEntry :=
  b.track.find? fun e => decide (e.capture = id) && decide (e.state = .capturing) && e.pos.isNone

/-- A capture read has returned data: its record is staged, or the data is discarded (R45, R71). -/
def captureData (cfg : Image) (id : Nat) (d : LineData) (b : Blocks) : Blocks :=
  match captureEntry b id with
  | some e => if b.journal.writing then stageUndo cfg e d b else b
  | none => b

/-- A capture read has failed (R50): entry and reservation go, the line's held entries are discarded, the fault is
reported. Without its entry the failure has no effect. In FAILED too the two slots are released, though R83 also says that
the reservations keep their values there (DESIGN CHOICE, log 34). -/
def captureFailed (cfg : Image) (id : Nat) (st : DownStatus) (b : Blocks) : Blocks :=
  match captureEntry b id with
  | some e =>
    let b := releaseSpace cfg 2 (removeEntries (fun x => decide (x.capture = id)) b)
    let b := discardHeld (fun h => decide (h.line = e.line) && decide (h.state ≠ .issued)) (some .memory) b
    reportFault cfg e.ctx e.epoch .captureReadFailed e.line e.stream st b
  | none => b

/-- The end of a capture read: its promise is given up, or its slots become occupied (R70). -/
def captureEnd (cfg : Image) (id : Nat) (o : OpEnd) (b : Blocks) : Blocks :=
  let b := b.modJournal fun j => { j with promises := j.promises.erase id }
  match o with
  | .data d => captureData cfg id d b
  | .persisted => captureFailed cfg id .error b
  | .failed st => captureFailed cfg id st b

/-! ## Releases and detached writes (R94, R95, R99) -/

/-- The ISSUED entry of a line. -/
def issuedEntry (b : Blocks) (line : Addr) : Option HeldEntry :=
  b.held.entries.find? fun e => decide (e.line = line) && decide (e.state = .issued)

/-- Removes the ISSUED entry of a line. -/
def removeIssued (line : Addr) (b : Blocks) : Blocks :=
  b.modHeld fun h => { h with entries := h.entries.filter fun e =>
    !(decide (e.line = line) && decide (e.state = .issued)) }

/-- A release has persisted (R94). -/
def releasePersisted (e : HeldEntry) (b : Blocks) : Blocks :=
  let reason := if e.loss then some LossReason.contextFaulted else none
  let b := settleContributors reason e.contributors (removeIssued e.line b)
  wakeHeldFull (copyToOverlays e.line e.mask e.data b)

/-- A release has failed (R95). -/
def releaseFailed (cfg : Image) (e : HeldEntry) (st : DownStatus) (b : Blocks) : Blocks :=
  let b := wakeHeldFull (settleContributors (some .memory) e.contributors (removeIssued e.line b))
  match (b.ctx e.ctx).epoch with
  | some n => reportFault cfg e.ctx n .releaseWriteFailed e.line e.stream st b
  | none => b

/-- The end of a release. -/
def releaseEnd (cfg : Image) (line : Addr) (o : OpEnd) (b : Blocks) : Blocks :=
  match issuedEntry b line, o with
  | some e, .persisted => releasePersisted e b
  | some e, .failed st => releaseFailed cfg e st b
  | some e, .data _ => releaseFailed cfg e .error b
  | none, _ => b

/-- The end of a detached write (R99, R123). -/
def detachedEnd (line : Addr) (o : OpEnd) (b : Blocks) : Blocks :=
  match b.held.detached.find? fun d => d.line = line with
  | some d =>
    let b := b.modHeld fun h => { h with detached := h.detached.filter fun x => decide (x.line ≠ line) }
    match o with
    | .persisted => copyToOverlays line d.mask d.data (settleContributors none d.contributors b)
    | _ => settleContributors (some .memory) d.contributors b
  | none => b

/-! ## Record bursts (R74, R75) -/

/-- The record of a capture is durable: its entry becomes LOGGED and its held entries READY (R47, R93); an entry of a
rollback with its old data at hand goes on to RESTORING (R113). -/
def recordDurable (id : Nat) (b : Blocks) : Blocks :=
  match b.track.find? fun e => decide (e.capture = id) && decide (e.state = .capturing) with
  | some e =>
    let b := updateEntries (fun x => decide (x.capture = id)) (fun x => { x with state := .logged }) b
    restoreLogged e.ctx e.line (heldLogged e.line b)
  | none => b

/-- The report of one slot that the durable tail has passed: an UNDO record with its data slot, or a marker (R74). -/
def slotLogged (b : Blocks) (s : StagedSlot) : Blocks :=
  match s.use with
  | .undoData id => recordDurable id b
  | _ => b

/-- A marker that the durable tail has passed (R69). -/
def slotMarked (cfg : Image) (b : Blocks) (s : StagedSlot) : Blocks :=
  match s.use with
  | .marker _ c e => markerDurable cfg c e b
  | _ => b

/-- The slots of the burst leave the buffer. -/
def freeBurst (b : Blocks) : Blocks :=
  b.modJournal fun j => { j with staging := j.staging.filter fun s => !s.inFlight }

/-- The durable tail moves to the end of the burst, its slots are freed and their demands lapse (R72, R74). -/
def durableAdvance (cfg : Image) (done : List StagedSlot) (b : Blocks) : Blocks :=
  freeBurst (b.modJournal fun j => { j with
    durable := (done.getLast?.map fun s => s.pos.advance cfg.ringN 1).getD j.durable
    demands := j.demands.filter fun d => !done.any fun s => decide (s.pos.seq = d.seq) })

/-- A burst has persisted in READY (R74): records, then markers in ring order, then the freed slots, then the burst
conditions. A context whose drain these reports end enters MARKING after that (R107), so its COMMIT marker is not among the
waiting markers when the freed slots are served (DESIGN CHOICE, log 38). -/
def burstPersisted (cfg : Image) (b : Blocks) : Blocks :=
  let done := b.journal.staging.filter fun s => s.inFlight
  let b := done.foldl slotLogged (durableAdvance cfg done b)
  let b := done.foldl (slotMarked cfg) b
  burstCheck cfg (serveBuffer cfg Config.stagingCapacity b)

/-- The end of a record burst (R74, R75, R83, R85). -/
def burstEnd (cfg : Image) (o : OpEnd) (b : Blocks) : Blocks :=
  if b.journal.state ≠ .ready then freeBurst b
  else match o with
    | .persisted => burstPersisted cfg b
    | .failed st => journalFail cfg .recordWriteFailed (some st) (freeBurst b)
    | .data _ => journalFail cfg .recordWriteFailed (some .error) (freeBurst b)

/-! ## Anchor writes (R79, R84, R160) -/

/-- No anchor write is in flight any more. -/
def anchorIdle (b : Blocks) : Blocks := b.modJournal fun j => { j with anchor := { j.anchor with busy := false } }

/-- The anchor state after a copy was written with a generation (R79). -/
def AnchorState.written (a : AnchorState) (copy : AnchorCopy) (gen : Count32) : AnchorState :=
  match copy with
  | .a => { a with genA := gen, suspectA := false, failures := 0 }
  | .b => { a with genB := gen, suspectB := false, failures := 0 }

/-- The anchor state after a first failure of a copy's write (R79). -/
def AnchorState.suspect (a : AnchorState) : AnchorCopy → AnchorState
  | .a => { a with suspectA := true, failures := 1 }
  | .b => { a with suspectB := true, failures := 1 }

/-- An anchor update has persisted (R79): the anchored head moves, space rises, the triggers are evaluated. -/
def anchorPersisted (cfg : Image) (copy : AnchorCopy) (gen : Count32) (head : RingPtr) (b : Blocks) : Blocks :=
  let b := b.modJournal fun j => { j with anchored := head, anchor := j.anchor.written copy gen }
  anchorCheck cfg (spaceRisen cfg b)

/-- An anchor update has failed (R79): a retry, or the journal fails. The retry starts only where the condition of R77,
evaluated again, still holds: where the pause flag was cleared or an APPLY raised the stride while the write was in flight,
it may not, and the copy then stays suspect with a failure count of 1 (DESIGN CHOICE, log 37). -/
def anchorFailed (cfg : Image) (copy : AnchorCopy) (st : DownStatus) (b : Blocks) : Blocks :=
  if b.journal.anchor.failures = 0 then
    anchorCheck cfg (b.modJournal fun j => { j with anchor := j.anchor.suspect copy })
  else journalFail cfg .anchorWriteFailed (some st) b

/-- The contents of the two copies of FORMAT, with their generation (R84). -/
def formatFields (cfg : Image) (fc gen : Count32) : AnchorFields := ⟨gen, 0, 0, 1, cfg.journal.ringSize, fc⟩

/-- FORMAT writes copy A (R84). -/
def formatCopyA (cfg : Image) (b : Blocks) : Blocks :=
  writeAnchor cfg .a (formatFields cfg b.journal.anchor.formatCount 1) .formatA
    (b.modJournal fun j => { j with formatWaits := false })

/-- FORMAT's copy A has persisted: copy B is written (R84); after the notice it is not (R85). The anchor state keeps the
generations it had until copy B has persisted (DESIGN CHOICE, log 35). -/
def formatCopyB (cfg : Image) (b : Blocks) : Blocks :=
  if b.journal.notice then b
  else writeAnchor cfg .b (formatFields cfg b.journal.anchor.formatCount 2) .formatB b

/-- FORMAT's copy B has persisted: the journal is READY (R84). -/
def formatDone (b : Blocks) : Blocks :=
  let b := b.modJournal fun j => { j with
    state := .ready
    reason := none
    anchor := { j.anchor with genA := 1, genB := 2, suspectA := false, suspectB := false, failures := 0 } }
  wakeAll (raise .formatDone b)

/-- The end of an anchor write that carries an update (R79, R83, R85). -/
def updateEnd (cfg : Image) (copy : AnchorCopy) (gen : Count32) (head : RingPtr) (o : OpEnd) (b : Blocks) : Blocks :=
  if b.journal.state ≠ .ready then b
  else match o with
    | .persisted => anchorPersisted cfg copy gen head b
    | .failed st => anchorFailed cfg copy st b
    | .data _ => anchorFailed cfg copy .error b

/-- The end of an anchor write of FORMAT (R84). -/
def formatEnd (cfg : Image) (onDone : Blocks → Blocks) (o : OpEnd) (b : Blocks) : Blocks :=
  if b.journal.state ≠ .formatting then b
  else match o with
    | .persisted => onDone b
    | .failed st => journalFail cfg .anchorWriteFailed (some st) b
    | .data _ => journalFail cfg .anchorWriteFailed (some .error) b

/-- The end of an anchor write of recovery's finish (R160). -/
def finishEnd (onDone : Blocks → Blocks) (o : OpEnd) (b : Blocks) : Blocks :=
  if b.recovery.phase ≠ .finish then b
  else match o with
    | .persisted => onDone b
    | _ => recoveryFail .recoveryWriteFailed b

/-- The end of an anchor write. -/
def anchorEnd (cfg : Image) (p : AnchorPurpose) (o : OpEnd) (b : Blocks) : Blocks :=
  let b := anchorIdle b
  match p with
  | .update copy gen head => updateEnd cfg copy gen head o b
  | .formatA => formatEnd cfg (formatCopyB cfg) o b
  | .formatB => formatEnd cfg formatDone o b
  | .finishFirst => finishEnd (finishSecond cfg) o b
  | .finishSecond => finishEnd finishDone o b

/-- An anchor write left to end by FORMAT has ended: copy A is written when it waits (R84). -/
def staleAnchorEnd (cfg : Image) (b : Blocks) : Blocks :=
  if b.journal.formatWaits then formatCopyA cfg b else anchorIdle b

/-! ## Restore operations (R115, R116, R119) -/

/-- The end of a RESTORE_READ (R115); without a restore slot its data leads to no write and the entry goes back to
LOGGED (R119, log 13). -/
def restoreReadEnd (cfg : Image) (c : CtxId) (line : Addr) (o : OpEnd) (b : Blocks) : Blocks :=
  match slotOf b c line .read, o with
  | some _, .data d => requestRestoreWrite c line d b
  | some _, .failed st => reportRestoreFault cfg c .restoreReadFailed line st (leaveRestoring c line .logged b)
  | some _, .persisted => reportRestoreFault cfg c .restoreReadFailed line .error (leaveRestoring c line .logged b)
  | none, _ => leaveRestoring c line .logged b

/-- A line is RESTORED (R116); the count in the rollback record rises (R112). -/
def lineRestored (c : CtxId) (line : Addr) (b : Blocks) : Blocks :=
  modRollback c (fun r => { r with
      slots := r.slots.filter fun s => decide (s.line ≠ line)
      linesRestored := r.linesRestored + 1 })
    (leaveRestoring c line .restored b)

/-- A RESTORE_WRITE has failed (R116); without a restore slot it changes only the entry (R112, R119). -/
def restoreWriteFailed (cfg : Image) (c : CtxId) (line : Addr) (st : DownStatus) (b : Blocks) : Blocks :=
  match slotOf b c line .write with
  | some _ => reportRestoreFault cfg c .restoreWriteFailed line st (leaveRestoring c line .logged b)
  | none => leaveRestoring c line .logged b

/-- The end of a RESTORE_WRITE (R116). -/
def restoreWriteEnd (cfg : Image) (c : CtxId) (line : Addr) (o : OpEnd) (b : Blocks) : Blocks :=
  match o with
  | .persisted => lineRestored c line b
  | .failed st => restoreWriteFailed cfg c line st b
  | .data _ => restoreWriteFailed cfg c line .error b

/-! ## Recovery operations -/

/-- The end of a recovery read (R156, R157, R159, R162). -/
def recoveryReadEnd (cfg : Image) (what : RecoveryRead) (o : OpEnd) (b : Blocks) : Blocks :=
  match o with
  | .data d => recoveryReadData cfg what d b
  | _ => recoveryOpFailed .recoveryReadFailed b

/-- The end of a recovery write (R159, R162). -/
def recoveryWriteEnd (cfg : Image) (o : OpEnd) (b : Blocks) : Blocks :=
  match o with
  | .persisted => recoveryWriteDone cfg b
  | _ => recoveryOpFailed .recoveryWriteFailed b

/-! ## Handing back (R127, R128, R132) -/

/-- The line of a read operation. -/
def MemOp.lineRead? (op : MemOp) : Addr := op.readLine.getD 0

/-- An operation's end is handed to its owner (R132, R133). -/
def handBack (cfg : Image) (o : Outstanding) (e : OpEnd) (b : Blocks) : Blocks :=
  match o.owner with
  | .passRead i j => passReadEnd i j e o.op.lineRead? b
  | .directWrite i => directWriteEnd i e b
  | .capture id => captureEnd cfg id e b
  | .release line => releaseEnd cfg line e b
  | .detached line => detachedEnd line e b
  | .burst => burstEnd cfg e b
  | .anchor p => anchorEnd cfg p e b
  | .restoreRead c line => restoreReadEnd cfg c line e b
  | .restoreWrite c line => restoreWriteEnd cfg c line e b
  | .recoveryRead w => recoveryReadEnd cfg w e b
  | .recoveryWrite => recoveryWriteEnd cfg e b
  | .staleBurst => burstCheck cfg b
  | .staleAnchor => staleAnchorEnd cfg b
  | .dropped => b
  | .orphan => b

/-- Frees an operation slot. -/
def freeSlot (k : SlotNo) (b : Blocks) : Blocks := b.modMem fun m => { m with slots := m.slots.set k.val none }

/-- The operation a completion's identifier matches (R128). -/
def MemoryPort.matching (m : MemoryPort) (id : OpId) : Option Outstanding :=
  if m.issue[id.slot] = id.issue then m.slots[id.slot] else none

/-- The end of the operation in slot k, handed back in the event that frees the slot (R132). -/
def endOperation (cfg : Image) (k : SlotNo) (o : Outstanding) (e : OpEnd) (b : Blocks) : Blocks :=
  handBack cfg o e (freeSlot k b)

/-- A completion is taken (R128, R132): matched by its identifier, or discarded without effect (log 3). -/
def State.complete (s : State) (id : OpId) (k : Completion) : State :=
  match s.blocks.mem.matching id with
  | some o => s.event (endOperation s.mgmt.active id.slot o (endOf o.op k))
  | none => s

/-- The downstream timer of slot k expires (R127). -/
def State.timeout (s : State) (k : SlotNo) : State :=
  match s.blocks.mem.slots[k] with
  | some o => s.event fun b => endOperation s.mgmt.active k o (.failed .timeout) (b.reachTime o.deadline)
  | none => s

end Sys2Proof.Machine
end

