-- ==== Sys2Proof/Machine/CompletionCommands.lean ====
section
/-! DEFINITION. The meanings of the completions: each is matched by its identifier (spec/07 R128, R132; log 3). -/

namespace Sys2Proof.Machine

/-- A completion that matches no occupied slot has no effect (R128). -/
def execStrayCompletion (id : OpId) (kind : Completion) (s : State) : Host.Outcome State Fault Refusal :=
  .next (s.complete id kind)

/-- A pass-through LINE_READ completes (R7, R100, R132). -/
def execPassThroughReadDone (id : OpId) (kind : Completion) (s : State) : Host.Outcome State Fault Refusal :=
  .next (s.complete id kind)

/-- A pass-through LINE_WRITE completes (R132, R143). -/
def execDirectWriteDone (id : OpId) (kind : Completion) (s : State) : Host.Outcome State Fault Refusal :=
  .next (s.complete id kind)

/-- A capture LINE_READ completes (R45, R50). -/
def execCaptureReadDone (id : OpId) (kind : Completion) (s : State) : Host.Outcome State Fault Refusal :=
  .next (s.complete id kind)

/-- A release LINE_WRITE completes (R94, R95). -/
def execReleaseWriteDone (id : OpId) (kind : Completion) (s : State) : Host.Outcome State Fault Refusal :=
  .next (s.complete id kind)

/-- A detached LINE_WRITE completes (R99). -/
def execDetachedWriteDone (id : OpId) (kind : Completion) (s : State) : Host.Outcome State Fault Refusal :=
  .next (s.complete id kind)

/-- A record burst completes (R74, R75). -/
def execSlotBurstDone (id : OpId) (kind : Completion) (s : State) : Host.Outcome State Fault Refusal :=
  .next (s.complete id kind)

/-- An anchor write completes (R79, R84, R160). -/
def execAnchorWriteDone (id : OpId) (kind : Completion) (s : State) : Host.Outcome State Fault Refusal :=
  .next (s.complete id kind)

/-- A RESTORE_READ completes (R115). -/
def execRestoreReadDone (id : OpId) (kind : Completion) (s : State) : Host.Outcome State Fault Refusal :=
  .next (s.complete id kind)

/-- A RESTORE_WRITE completes (R116). -/
def execRestoreWriteDone (id : OpId) (kind : Completion) (s : State) : Host.Outcome State Fault Refusal :=
  .next (s.complete id kind)

/-- A recovery read completes (R156, R157, R159). -/
def execRecoveryReadDone (id : OpId) (kind : Completion) (s : State) : Host.Outcome State Fault Refusal :=
  .next (s.complete id kind)

/-- A recovery write completes (R159). -/
def execRecoveryWriteDone (id : OpId) (kind : Completion) (s : State) : Host.Outcome State Fault Refusal :=
  .next (s.complete id kind)

end Sys2Proof.Machine
end

