-- ==== Sys2Proof/Machine/Operands.lean ====
section
/-! DEFINITION. The argument bytes of management commands and the values of configuration items (spec/11.3, R164,
R176). Arguments are numbered as the table of 11.3 lists them (log 8). -/

namespace Sys2Proof.Machine

/-- The configuration items (R167). -/
inductive Item where
  | window (w : Fin 16)
  | bindings
  | context (c : CtxId)
  | journal
  | timing
deriving DecidableEq, Repr

/-- The item a code names (11.3). -/
def itemOfCode (b : Byte) : Option Item :=
  if b.toNat < 0x10 then some (.window (Fin.ofNat 16 b.toNat))
  else if b.toNat = 0x10 then some .bindings
  else if 0x20 ≤ b.toNat ∧ b.toNat < 0x28 then some (.context (Fin.ofNat 8 (b.toNat - 0x20)))
  else if b.toNat = 0x30 then some .journal
  else if b.toNat = 0x31 then some .timing
  else none

/-- The code of an item (11.3). -/
def Item.code : Item → Byte
  | .window w => BitVec.ofNat 8 w.val
  | .bindings => 0x10#8
  | .context c => BitVec.ofNat 8 (0x20 + c.val)
  | .journal => 0x30#8
  | .timing => 0x31#8

/-- The length of an item's value in bytes (11.3). -/
def Item.length : Item → Nat
  | .window _ => 15
  | .bindings => 16
  | .context _ => 4
  | .journal => 23
  | .timing => 6

/-- n bytes of a value from an offset, as a number. -/
def fieldAt (v : List Byte) (offset n : Nat) : Nat := leNat ((v.drop offset).take n)

/-- The window kind a code names (11.3). -/
def kindOfCode : Nat → Option WindowKind
  | 0 => some .journaled
  | 1 => some .direct
  | 2 => some .readOnly
  | _ => none

/-- The code of a window kind. -/
def kindCode : WindowKind → Byte
  | .journaled => 0#8
  | .direct => 1#8
  | .readOnly => 2#8

/-- The binding a byte names: a context, or FFh for NONE (11.3); any other code is not legal. -/
def bindingOfCode (b : Byte) : Option (Option CtxId) :=
  if b.toNat < 8 then some (some (Fin.ofNat 8 b.toNat))
  else if b = 0xFF#8 then some none
  else none

/-- The byte of a binding. -/
def bindingCode : Option CtxId → Byte
  | some c => BitVec.ofNat 8 c.val
  | none => 0xFF#8

/-- A level: FFFFFFFFh stands for AUTO (11.3). -/
def levelOfCode (n : Nat) : Level := if n = 0xFFFFFFFF then .auto else .slots (BitVec.ofNat 32 n)

/-- The four bytes of a level. -/
def levelBytes : Level → List Byte
  | .auto => leBytes 4 0xFFFFFFFF
  | .slots n => leBytes 4 n.toNat

/-- An image with one item's value written, when every code of the value is legal for its field (R167). -/
def writeItem (img : Image) (item : Item) (v : List Byte) : Option Image :=
  match item with
  | .window w =>
    match kindOfCode (fieldAt v 1 1) with
    | some k =>
      if fieldAt v 0 1 ≤ 1 then
        let x : Window := ⟨decide (fieldAt v 0 1 = 1), BitVec.ofNat 40 (fieldAt v 2 5), BitVec.ofNat 48 (fieldAt v 7 6), k,
          BitVec.ofNat 16 (fieldAt v 13 2)⟩
        some { img with windows := img.windows.set w.val x }
      else none
    | none => none
  | .bindings =>
    if (v.take 16).all (fun x => (bindingOfCode x).isSome) then
      some { img with bindings := Vector.ofFn fun s : Fin 16 =>
        ((bindingOfCode ((v[s.val]?).getD 0xFF#8)).getD none) }
    else none
  | .context c =>
    some { img with ctxs := img.ctxs.set c.val ⟨BitVec.ofNat 16 (fieldAt v 0 2), BitVec.ofNat 16 (fieldAt v 2 2)⟩ }
  | .journal =>
    some { img with journal :=
      ⟨BitVec.ofNat 40 (fieldAt v 0 5), BitVec.ofNat 32 (fieldAt v 5 4), levelOfCode (fieldAt v 9 4),
        levelOfCode (fieldAt v 13 4), levelOfCode (fieldAt v 17 4), BitVec.ofNat 8 (fieldAt v 21 1),
        BitVec.ofNat 8 (fieldAt v 22 1)⟩ }
  | .timing =>
    some { img with timing :=
      ⟨BitVec.ofNat 16 (fieldAt v 0 2), BitVec.ofNat 16 (fieldAt v 2 2), BitVec.ofNat 16 (fieldAt v 4 2)⟩ }

/-- The value of one item of an image, as its bytes (R166, 11.3). -/
def readItem (img : Image) : Item → List Byte
  | .window w =>
    let x := img.windows[w]
    [if x.valid then 1#8 else 0#8, kindCode x.kind] ++ leBytes 5 x.base.toNat ++ leBytes 6 x.size.toNat
      ++ leBytes 2 x.writers.toNat
  | .bindings => img.bindings.toList.map bindingCode
  | .context c => leBytes 2 img.ctxs[c].quota.toNat ++ leBytes 2 img.ctxs[c].idleInterval.toNat
  | .journal =>
    let j := img.journal
    leBytes 5 j.areaBase.toNat ++ leBytes 4 j.ringSize.toNat ++ levelBytes j.anchorStride ++ levelBytes j.pauseLevel
      ++ levelBytes j.resumeLevel ++ [j.groupThreshold, j.groupTimer]
  | .timing =>
    leBytes 2 img.timing.conflictWait.toNat ++ leBytes 2 img.timing.captureStall.toNat
      ++ leBytes 2 img.timing.downstream.toNat

/-- The images READ_CONFIG can name (11.3). -/
inductive ImageName where
  | staged | active | stored
deriving DecidableEq, Repr

/-- The image a code names. -/
def imageOfCode (b : Byte) : Option ImageName :=
  if b = 0#8 then some .staged else if b = 1#8 then some .active else if b = 2#8 then some .stored else none

/-- Arguments judged by the fourth test of R164: the operands, or the number of the first failing argument. -/
inductive Parsed (α : Type) where
  | good (a : α)
  | bad (argument : Nat)
deriving DecidableEq, Repr

/-- No arguments. -/
def parseNone : List Byte → Parsed Unit
  | [] => .good ()
  | _ => .bad 0

/-- One context argument, 0 to 7 (R29, R176). -/
def parseCtx : List Byte → Parsed CtxId
  | [c] => if c.toNat < 8 then .good (Fin.ofNat 8 c.toNat) else .bad 0
  | _ => .bad 0

/-- A flag set or mask of 3 bytes; bits 18 to 23 are ignored (11.3). -/
def parseFlags (args : List Byte) : Parsed (BitVec 18) :=
  if args.length = 3 then .good (BitVec.ofNat 18 (leNat args)) else .bad 0

/-- An item code and an image code (11.3). -/
def parseReadConfig : List Byte → Parsed (Item × ImageName)
  | [i, m] =>
    match itemOfCode i, imageOfCode m with
    | some item, some image => .good (item, image)
    | some _, none => .bad 1
    | none, _ => .bad 0
  | _ => .bad 0

/-- An item code and its value, written into an image (11.3, R167, R176). -/
def parseWriteConfig (img : Image) : List Byte → Parsed Image
  | [] => .bad 0
  | i :: v =>
    match itemOfCode i with
    | none => .bad 0
    | some item =>
      if v.length = item.length then
        match writeItem img item v with
        | some img' => .good img'
        | none => .bad 1
      else .bad 0

end Sys2Proof.Machine
end

