-- ==== Sys2Proof/Machine/Apply.lean ====
section
/-! DEFINITION. The checks of APPLY and its effect on the blocks (spec/10 R168, R169; spec/04 R61). -/

namespace Sys2Proof.Machine

/-! ## Checks (R168) -/

/-- The levels and the group threshold of a journal item with a ring lie in their ranges, AUTO resolved (R61). -/
def levelsOk (img : Image) : Bool :=
  let n := img.ringN
  decide (64 ≤ img.stride) && decide (img.stride ≤ n / 2)
    && decide (img.pauseAt ≤ n / 2 - 16)
    && decide (img.pauseAt + 16 ≤ img.resumeAt) && decide (img.resumeAt ≤ n / 2)
    && decide (2 ≤ img.journal.groupThreshold.toNat) && decide (img.journal.groupThreshold.toNat ≤ 16)

/-- The check of the journal item (R168). -/
def journalOk (img : Image) : Bool :=
  let base := img.journal.areaBase.toNat
  decide (base % 4096 = 0) &&
    (decide (img.ringN = 0) ||
      (legalRingSize img.ringN && decide (base + 64 * (img.ringN + 2) ≤ 2 ^ 40) && levelsOk img))

/-- The sum of the quotas of the contexts up to and including c (R168). -/
def quotaSum (img : Image) (c : CtxId) : Nat :=
  ((img.ctxs.toList.take (c.val + 1)).map fun x => x.quota.toNat).sum

/-- The check of the context item c (R168). -/
def ctxOk (img : Image) (c : CtxId) : Bool :=
  decide (img.ctxs[c].quota.toNat ≤ 2048) && decide (quotaSum img c ≤ 2048)

/-- The check of the timing item (R168). -/
def timingOk (img : Image) : Bool :=
  let t := img.timing
  decide (1 ≤ t.conflictWait.toNat) && decide (1 ≤ t.captureStall.toNat)
    && decide (1 ≤ t.downstream.toNat) && decide (t.downstream.toNat ≤ 4095)

/-- The items in the order APPLY checks them (R168); the bindings cannot fail. -/
def checkedItems : List Item :=
  (List.finRange 16).map .window ++ [.journal] ++ allCtxs.map .context ++ [.timing]

/-- The check of one item of an image. -/
def itemOk (img : Image) : Item → Bool
  | .window w => windowOk img w
  | .bindings => true
  | .context c => ctxOk img c
  | .journal => journalOk img
  | .timing => timingOk img

/-- The first item of an image that fails its check (R168). -/
def failingItem (img : Image) : Option Item := checkedItems.find? fun i => !itemOk img i

/-- Two images have different geometry: area base or ring size (R61, R168). -/
def geometryDiffers (a b : Image) : Bool :=
  decide (a.journal.areaBase ≠ b.journal.areaBase) || decide (a.journal.ringSize ≠ b.journal.ringSize)

/-- A state in which APPLY is refused (R168). -/
def applyRefused (m : Management) (b : Blocks) : Bool :=
  decide (b.journal.state = .recovering) || decide (b.journal.state = .formatting)
    || decide (b.journal.state = .safe) || !b.allIdle
    || (geometryDiffers m.staged m.active && decide (b.journal.state = .ready) && !b.journal.ringEmpty)

/-! ## Effect (R169, R61) -/

/-- The journal after a change of geometry: READY goes to UNFORMATTED, the pause flag cleared without an event (R61, R80). -/
def regeometry (new : Image) (b : Blocks) : Blocks :=
  if b.journal.state = .ready then
    let reason := if new.ringN = 0 then JournalReason.noArea else .geometryChanged
    wakeAll (b.modJournal fun j => { j with state := .unformatted, reason := some reason, pause := false })
  else b

/-- What APPLY does to the blocks: the geometry, then the pause flag and the anchor triggers (R61, R169). -/
def applyEffect (old new : Image) (b : Blocks) : Blocks :=
  let b := if geometryDiffers old new then regeometry new b else b
  finishEvent new (anchorCheck new (evalPause new b))

end Sys2Proof.Machine
end

