-- ==== Sys2Proof/Machine/Power.lean ====
section
/-! DEFINITION. FORMAT, the power-fail notice and the resets as events of the blocks (spec/04 R84, spec/09). -/

namespace Sys2Proof.Machine

/-! ## FORMAT (R84, R38, R52, R99, R123, R134) -/

/-- What FORMAT makes of the owner of an outstanding operation: releases and restore writes become detached writes,
restore reads are dropped, a burst or an anchor write is left to end (R84, R99, R123). -/
def ownerAtFormat : Owner → Owner
  | .release line => .detached line
  | .restoreWrite _ line => .detached line
  | .restoreRead _ _ => .dropped
  | .burst => .staleBurst
  | .anchor _ => .staleAnchor
  | o => o

/-- The detached write an outstanding restore write becomes (R123). -/
def detachedOfRestore (o : Outstanding) : Option Detached :=
  match o.owner, o.op with
  | .restoreWrite _ line, .lineWrite _ m d => some ⟨line, m, d, []⟩
  | _, _ => none

/-- The queue is emptied by FORMAT: ISSUED entries and outstanding restore writes become detached writes (R99, R123). -/
def detachAll (b : Blocks) : Blocks :=
  let restores := b.mem.ops.filterMap detachedOfRestore
  b.modHeld fun h => { h with
    entries := []
    detached := h.detached ++ (h.entries.filter fun e => decide (e.state = .issued)).map
      (fun e => ⟨e.line, e.mask, e.data, e.contributors⟩) ++ restores }

/-- The Journal Writer at FORMAT: FORMATTING, an empty ring at slot 0, the next format count (R84). -/
def JournalWriter.formatted (j : JournalWriter) (waits : Bool) : JournalWriter :=
  { JournalWriter.atReset with
    state := .formatting
    notice := j.notice
    anchor := { j.anchor with busy := waits, formatCount := j.anchor.formatCount + 1 }
    formatWaits := waits }

/-- An anchor write of the Journal Writer is outstanding. -/
def anchorOutstanding (b : Blocks) : Bool :=
  b.mem.ops.any fun o => o.owner.isAnchor || decide (o.owner = .staleAnchor)

/-- Every epoch ends without a marker: every context goes to IDLE, keeping its abort outcome; the counter is 1 (R38). -/
def endEpochs (b : Blocks) : Blocks :=
  { b with epochs := ⟨Vector.ofFn fun c => Context.ended b.epochs.ctxs[c].abortOutcome, 1⟩ }

/-- FORMAT is taken (R84). -/
def format (cfg : Image) (b : Blocks) : Blocks :=
  let waits := anchorOutstanding b
  let b := withdraw (fun r => r.owner.ofJournal) b
  let b := detachAll (discardHeld (fun h => decide (h.state ≠ .issued)) (some .contextFaulted) b)
  let b := reown ownerAtFormat b
  let b := endEpochs (removeEntries (fun _ => true) b)
  let b := wakeAll (b.modJournal fun j => j.formatted waits)
  if waits then b else formatCopyA cfg b

/-! ## The power-fail notice (R150) -/

/-- Every request of a stream is answered POWER, oldest first; its wait records go, its barrier record stays (R148). -/
def StreamRec.powerFail (r : StreamRec) : StreamRec :=
  { r with
    queue := []
    phase := .idle
    conflict := none
    captureStall := none
    sent := r.sent ++ r.queue.map (fun q => responseTo q .power none) }

/-- The restore slots whose request waited have no operation in flight (R135). -/
def Rollback.unwait (waiting : List MemRequest) (c : CtxId) (r : Rollback) : Rollback :=
  { r with slots := r.slots.map fun s =>
      if waiting.any (fun w => w.owner.restoreOn c s.line) then { s with op := .idle } else s }

/-- A context at the notice: timer stopped, waiters gone with their requests, the rest kept (R39). -/
def Context.powerFail (waiting : List MemRequest) (c : CtxId) (x : Context) : Context :=
  { x with idleTimer := none, waiters := [], rollback := x.rollback.map fun r => r.unwait waiting c }

/-- The waiting direct writes end their counts, without loss (R135, R143). -/
def settleWaiting (b : Blocks) : Blocks :=
  b.mem.waiting.foldl (fun b r => match r.owner with
    | .directWrite i => settleWrites none i 1 b
    | _ => b) b

/-- The LINE_READ of an overlay record is outstanding. -/
def readOutstanding (m : MemoryPort) (v : Overlay) : Bool :=
  m.ops.any fun o => decide (o.owner = .passRead v.stream true)

/-- The overlay records of reads that were issued are kept until their LINE_READs end (R102). -/
def keepOverlays (b : Blocks) : Blocks :=
  b.modHeld fun h => { h with overlays := h.overlays.filter (readOutstanding b.mem) }

/-- Every waiting request is withdrawn and the pass-over counts are 0 (R135). -/
def clearWaiting (b : Blocks) : Blocks := b.modMem fun m => { m with waiting := [], passOver := ⟨0, 0, 0, 0, 0, 0⟩ }

/-- The notice is taken by every block in one event (R150, R148, R102, R85, R39, R135, R163). -/
def takeNotice (b : Blocks) : Blocks :=
  let waiting := b.mem.waiting
  let b := b.mapStreams fun _ r => r.powerFail
  let b := settleWaiting (discardHeld (fun h => decide (h.state ≠ .issued)) none b)
  let b := stopWriting b
  let b := b.modRecovery fun r => { r with noticed := decide (b.journal.state = .recovering) }
  let b := b.modJournal fun j => { j with notice := true, formatWaits := false }
  let b := { b with epochs := { b.epochs with ctxs := Vector.ofFn fun c => b.epochs.ctxs[c].powerFail waiting c } }
  clearWaiting (keepOverlays b)

/-- PFAIL is looked at: the notice is taken when it is asserted, in any state but SAFE, once since the last reset
(R150). -/
def lookAtPfail (asserted : Bool) (b : Blocks) : Blocks :=
  if asserted && !b.journal.notice && decide (b.journal.state ≠ .safe) then takeNotice b else b

/-! ## Resets (R153, R154) -/

/-- A stream record after a reset; the restart indication is sent (R149). -/
def StreamRec.restarted (r : StreamRec) : StreamRec := { StreamRec.reset with sent := r.sent ++ [.restart] }

/-- An outstanding operation after a warm reset has no owner (R136). -/
def MemoryPort.warmReset (m : MemoryPort) : MemoryPort :=
  { m with
    waiting := []
    slots := Vector.ofFn fun k => match m.slots[k] with
      | some o => some { o with owner := .orphan }
      | none => none
    passOver := ⟨0, 0, 0, 0, 0, 0⟩ }

/-- The Memory Port after a cold reset: every slot is free; the issue numbers are 0 at power-up and kept otherwise
(R126, R136). -/
def MemoryPort.coldReset (powerUp : Bool) (m : MemoryPort) : MemoryPort :=
  { m with
    waiting := []
    slots := Vector.replicate 32 none
    issue := if powerUp then Vector.replicate 32 0 else m.issue
    passOver := ⟨0, 0, 0, 0, 0, 0⟩ }

/-- The blocks after a reset, with the Memory Port and the mask that the kind of reset leaves; recovery has not begun
(R40, R59, R86, R103, R149, R155, R172, R173). -/
def Blocks.resetTo (b : Blocks) (m : MemoryPort) (mask : BitVec 18) : Blocks :=
  { b with
    req := ⟨Vector.ofFn fun i => b.req.streams[i].restarted⟩
    epochs := ⟨Vector.replicate 8 Context.reset, 1⟩
    track := []
    journal := .atReset
    held := ⟨[], [], []⟩
    mem := m
    recovery := .atReset
    events := ⟨0, mask, none, none⟩ }

/-- Recovery begins, and PFAIL is looked at as the reset ends (R150, R153). -/
def leaveReset (cfg : Image) (pfail : Bool) (b : Blocks) : Blocks :=
  finishEvent cfg (lookAtPfail pfail (startRecovery cfg b))

/-- The blocks after a warm reset (R154). -/
def Blocks.warmReset (cfg : Image) (pfail : Bool) (b : Blocks) : Blocks :=
  leaveReset cfg pfail (b.resetTo b.mem.warmReset b.events.mask)

/-- The blocks after a cold reset (R153). -/
def Blocks.coldReset (cfg : Image) (powerUp pfail : Bool) (b : Blocks) : Blocks :=
  leaveReset cfg pfail (b.resetTo (b.mem.coldReset powerUp) 0)

end Sys2Proof.Machine
end

