-- ==== Sys2Proof/Machine/Responses.lean ====
section
/-! DEFINITION. The response buffer and the payloads of the commands that read (spec/10 R165, R166, R176). -/

namespace Sys2Proof.Machine

/-! ## Payloads as values (R166) -/

/-- The capacities IDENTIFY reports (R166, 00 section 6). -/
def identityPayload : IdentityPayload :=
  ⟨16, 8, 16, Config.trackCapacity, Config.heldCapacity, Config.stagingCapacity, 32, Config.ringMax⟩

/-- The generation of a bank, when it is valid (R171). -/
def Bank.shownGeneration (k : Bank) : Option Count32 := if k.valid then some k.generation else none

/-- The Recovery Engine's phase and scan position, while the journal is RECOVERING, or SAFE after a notice taken during
recovery, however that recovery ended (R151, R161). -/
def recoveryAt (b : Blocks) : Option (RecoveryPhase × RingPtr × Nat) :=
  let r := b.recovery
  if b.journal.state = .recovering ∨ (b.journal.state = .safe ∧ r.noticed = true) then some (r.phase, r.pos, r.passed)
  else none

/-- What READ_STATUS reports (R166). -/
def statusPayload (s : State) : StatusPayload :=
  let b := s.blocks
  let j := b.journal
  { journalState := j.state
    reason := j.reason
    notice := j.notice
    pause := j.pause
    head := j.head.idx
    anchoredHead := j.anchored.idx
    tail := j.tail.idx
    durableTail := j.durable.idx
    unreserved := j.shownUnreserved s.mgmt.active.ringN
    liveEpochs := j.live.length
    trackingEntries := b.track.length
    heldEntries := b.held.entries.length
    nextEpoch := b.epochs.counter
    lastRefusal := b.events.lastRefusal
    lastPortError := b.events.lastPortError
    summary := b.recovery.summary
    recoveryAt := recoveryAt b
    currentBank := s.mgmt.current
    generation0 := (s.mgmt.banks[(0 : Fin 2)]).shownGeneration
    generation1 := (s.mgmt.banks[(1 : Fin 2)]).shownGeneration
    programming := s.mgmt.programming.isSome
    storeOutcome := s.mgmt.outcome }

/-- What READ_CONTEXT reports of a context (R19, R111, R166); an absent epoch is given as 0 (R176). -/
def contextPayload (s : State) (c : CtxId) : ContextPayload :=
  let b := s.blocks
  let x := b.ctx c
  { number := c
    state := x.state
    epoch := x.epoch.getD 0
    undoCount := x.undoCount
    trackedLines := b.trackedCount c
    quota := s.mgmt.active.ctxs[c].quota
    idleInterval := s.mgmt.active.ctxs[c].idleInterval
    idleRemaining := x.idleTimer.map fun t => t - b.clock
    waiters := x.waiters
    mgmtWaiter := x.mgmtWaiter
    fault := x.fault
    abortOutcome := x.abortOutcome
    rollback := x.rollback.map fun r => (r.mode, r.phase, r.linesRestored) }

/-! ## Bytes of a response (11.3, R165, R176) -/

/-- What a field of a payload holds. -/
inductive FieldValue where
  | number (n : Nat)
  /-- A value that 11 gives no code, numbered as the model lists it (log 7). -/
  | code (n : Nat)
  | streams (l : List StreamId)
  | absent
  /-- A field that is reported in other states only. -/
  | unreported
deriving DecidableEq, Repr

/-- The bits of field k of payload p: an absent one has every bit set (R176); codes and widths are free (log 7). -/
def FieldValue.bits (p k : Nat) : FieldValue → Nat
  | .number n => n % 2 ^ Config.fieldWidth p k
  | .code n => Config.fieldCode p k n % 2 ^ Config.fieldWidth p k
  | .streams l => Config.streamListCode l % 2 ^ Config.fieldWidth p k
  | .absent => 2 ^ Config.fieldWidth p k - 1
  | .unreported => Config.unreportedBits p k % 2 ^ Config.fieldWidth p k

/-- A number that may be absent. -/
def FieldValue.ofNumber? : Option Nat → FieldValue
  | some n => .number n
  | none => .absent

/-- A coded value that may be absent. -/
def FieldValue.ofCode? : Option Nat → FieldValue
  | some n => .code n
  | none => .absent

/-- A number that is reported in some states only. -/
def FieldValue.reported : Option Nat → FieldValue
  | some n => .number n
  | none => .unreported

/-- A flag or mark: set or clear. -/
def FieldValue.flag (x : Bool) : FieldValue := .code x.toNat

/-- The fields of IDENTIFY (R166). -/
def IdentityPayload.fields (p : IdentityPayload) : List FieldValue :=
  [Config.vendorCode, Config.partCode, Config.revision, p.streams, p.contexts, p.windows, p.trackingEntries,
    p.heldEntries, p.stagingSlots, p.outstandingOps, p.largestRing].map .number

/-- The fields of a last refusal record; absent ones until one is written (R173). -/
def LastRefusal.fields (r : Option LastRefusal) : List FieldValue :=
  [.ofNumber? (r.map (·.stream.val)), .ofNumber? (r.map (·.line.toNat)), .ofCode? (r.map (·.reason.ctorIdx))]

/-- The reason of a recovery outcome that has one (R161). -/
def RecoveryOutcome.reason? : RecoveryOutcome → Option JournalReason
  | .ready => none
  | .unformatted r => some r
  | .failed r => some r

/-- The number of a recovery outcome; 0 for none (R161). -/
def RecoveryOutcome.number : Option RecoveryOutcome → Nat
  | none => 0
  | some .ready => 1
  | some (.unformatted _) => 2
  | some (.failed _) => 3

/-- The fields of the recovery summary (R161). -/
def RecoverySummary.fields (r : RecoverySummary) : List FieldValue :=
  [.code (RecoveryOutcome.number r.outcome), .ofCode? ((r.outcome.bind (·.reason?)).map (·.ctorIdx)),
    .ofCode? (r.anchorUsed.map (·.ctorIdx)), .ofNumber? (r.endOfLog.map (·.idx)),
    .ofNumber? (r.endOfLog.map (·.seq.toNat)), .number r.epochsUndone, .number r.linesRestored]

/-- The fields of the Recovery Engine's phase and scan position, reported in some states only (R161). -/
def recoveryAtFields : Option (RecoveryPhase × RingPtr × Nat) → List FieldValue
  | some (phase, pos, passed) => [.code phase.ctorIdx, .number pos.idx, .number pos.seq.toNat, .number passed]
  | none => [.unreported, .unreported, .unreported, .unreported]

/-- The number of a current bank, or of a blank store (R171). -/
def bankNumber : Option (Fin 2) → Nat
  | some k => k.val
  | none => 2

/-- The number of the outcome of the last STORE; 0 for none (R171). -/
def storeOutcomeNumber : Option StoreOutcome → Nat
  | none => 0
  | some .ok => 1
  | some .failed => 2

/-- The fields of READ_STATUS (R166). -/
def StatusPayload.fields (p : StatusPayload) : List FieldValue :=
  [.code p.journalState.ctorIdx, .ofCode? (p.reason.map (·.ctorIdx)), .flag p.notice, .flag p.pause, .number p.head,
    .number p.anchoredHead, .number p.tail, .number p.durableTail, .number p.unreserved, .number p.liveEpochs,
    .number p.trackingEntries, .number p.heldEntries, .number p.nextEpoch.toNat]
    ++ LastRefusal.fields p.lastRefusal ++ [.ofNumber? (p.lastPortError.map (·.val))] ++ p.summary.fields
    ++ recoveryAtFields p.recoveryAt
    ++ [.code (bankNumber p.currentBank), .reported (p.generation0.map (·.toNat)),
      .reported (p.generation1.map (·.toNat)), .flag p.programming, .code (storeOutcomeNumber p.storeOutcome)]

/-- The fields of a fault record; of an absent one the epoch is 0 and every other field is absent (R35, R176). -/
def FaultRecord.fields (r : Option FaultRecord) : List FieldValue :=
  [.ofCode? (r.map (·.kind.ctorIdx)), .number ((r.map (·.epoch.toNat)).getD 0),
    .ofNumber? ((r.bind (·.line)).map (·.toNat)), .ofNumber? ((r.bind (·.stream)).map (·.val)),
    .ofCode? ((r.bind (·.status)).map (·.ctorIdx))]

/-- The field of an idle timer: stopped, or its remaining time (R19). -/
def idleField : Option Nat → FieldValue
  | some t => .number t
  | none => .code 0

/-- The fields of READ_CONTEXT (R19, R111, R166). -/
def ContextPayload.fields (p : ContextPayload) : List FieldValue :=
  [.number p.number.val, .code p.state.ctorIdx, .number p.epoch.toNat, .number p.undoCount, .number p.trackedLines,
    .number p.quota.toNat, .number p.idleInterval.toNat, idleField p.idleRemaining, .streams p.waiters,
    .flag p.mgmtWaiter]
    ++ FaultRecord.fields p.fault ++ [.ofCode? (p.abortOutcome.map (·.ctorIdx)),
      .ofCode? (p.rollback.map (·.1.ctorIdx)), .ofCode? (p.rollback.map (·.2.1.ctorIdx)),
      .ofNumber? (p.rollback.map (·.2.2))]

/-- The widths and bits of the fields of payload p, and their bytes, at most 64 (R165). -/
def layOut (p : Nat) (fields : List FieldValue) : List Byte :=
  (Config.payloadLayout p (fields.mapIdx fun k f => (Config.fieldWidth p k, f.bits p k))).take 64

/-- The bytes of a payload. -/
def Payload.bytes : Payload → List Byte
  | .empty => []
  | .identity p => layOut 0 p.fields
  | .status p => layOut 1 p.fields
  | .context p => layOut 2 p.fields
  | .events pending mask => layOut 3 [.number pending.toNat, .number mask.toNat]
  | .config v => v.take 64
  | .invalidArgument n => [0#8, BitVec.ofNat 8 n]
  | .invalidItem code => [1#8, code]

/-- The code of a status (11.3). -/
def MgmtStatus.code : MgmtStatus → Byte
  | .ok => 0#8
  | .started => 1#8
  | .busy => 2#8
  | .refusedState => 3#8
  | .invalid => 4#8
  | .tooLate => 5#8
  | .unknownCommand => 6#8
  | .frameError => 7#8
  | .noResponse => 8#8

/-- A response up to its CRC byte (11.3). -/
def MgmtResponse.body (r : MgmtResponse) : List Byte :=
  [r.seq, r.status.code, BitVec.ofNat 8 r.payload.bytes.length] ++ r.payload.bytes

/-- The bytes of a response, with its CRC-8 (R176). -/
def MgmtResponse.bytes (r : MgmtResponse) : List Byte := r.body ++ [crc8 r.body]

/-- Byte n of an I2C read of the buffer; past the CRC byte FFh (R165). -/
def MgmtResponse.readByte (r : MgmtResponse) (n : Nat) : Byte := (r.bytes[n]?).getD 0xFF#8

/-- Places a response in the buffer (R165). -/
def respond (seq : Byte) (st : MgmtStatus) (p : Payload) (s : State) : State :=
  { s with mgmt := { s.mgmt with response := ⟨seq, st, p⟩ } }

end Sys2Proof.Machine
end

