-- ==== Sys2Proof/Machine/Management.lean ====
section
/-! DEFINITION. The commands of the Management Port, as taken at the end of their frame (spec/10 R164 to R171, R152;
spec/02 R29, R37; spec/04 R84; spec/09 R154). -/

namespace Sys2Proof.Machine

/-! ## Frame tests and the notice -/

/-- The fourth test of R164: the operands, or INVALID naming the first failing argument. -/
def withArgs {α : Type} (p : Parsed α) (seq : Byte) (s : State) (f : α → State) : State :=
  match p with
  | .good a => f a
  | .bad n => respond seq .invalid (.invalidArgument n) s

/-- A command that is answered REFUSED_STATE from the notice on (R152). -/
def untilNotice (seq : Byte) (s : State) (t : State) : State :=
  if s.blocks.journal.notice then respond seq .refusedState .empty s else t

/-- An effect on the blocks under the active image, as one event, with a response. -/
def startWork (seq : Byte) (st : MgmtStatus) (s : State) (f : Blocks → Blocks) : State :=
  respond seq st .empty { s with blocks := finishEvent s.mgmt.active (f s.blocks) }

/-! ## Commands that read (R166) -/

/-- The stored image: the current bank's, or the defaults of a blank store (R167, R171). -/
def Management.storedImage (m : Management) : Image :=
  match m.current with
  | some k => m.banks[k].image
  | none => Config.defaults

/-- IDENTIFY (R166). -/
def takeIdentify (seq : Byte) (args : List Byte) (s : State) : State :=
  withArgs (parseNone args) seq s fun _ => respond seq .ok (.identity identityPayload) s

/-- READ_STATUS (R166). -/
def takeReadStatus (seq : Byte) (args : List Byte) (s : State) : State :=
  withArgs (parseNone args) seq s fun _ => respond seq .ok (.status (statusPayload s)) s

/-- READ_CONTEXT (R166). -/
def takeReadContext (seq : Byte) (args : List Byte) (s : State) : State :=
  withArgs (parseCtx args) seq s fun c => respond seq .ok (.context (contextPayload s c)) s

/-- READ_EVENTS (R166). -/
def takeReadEvents (seq : Byte) (args : List Byte) (s : State) : State :=
  withArgs (parseNone args) seq s fun _ =>
    respond seq .ok (.events s.blocks.events.pending s.blocks.events.mask) s

/-- The image READ_CONFIG names (R167). -/
def Management.imageNamed (m : Management) : ImageName → Image
  | .staged => m.staged
  | .active => m.active
  | .stored => m.storedImage

/-- READ_CONFIG (R166, R167). -/
def takeReadConfig (seq : Byte) (args : List Byte) (s : State) : State :=
  withArgs (parseReadConfig args) seq s fun a => untilNotice seq s
    (respond seq .ok (.config (readItem (s.mgmt.imageNamed a.2) a.1)) s)

/-! ## Events (R172) -/

/-- ACK_EVENTS (R172). -/
def takeAckEvents (seq : Byte) (args : List Byte) (s : State) : State :=
  withArgs (parseFlags args) seq s fun named => untilNotice seq s
    (respond seq .ok .empty { s with blocks := s.blocks.modEvents fun e => e.acknowledge named })

/-- SET_EVENT_MASK (R172). -/
def takeSetEventMask (seq : Byte) (args : List Byte) (s : State) : State :=
  withArgs (parseFlags args) seq s fun m => untilNotice seq s
    (respond seq .ok .empty { s with blocks := s.blocks.modEvents fun e => e.setMask m })

/-! ## Configuration (R167 to R171) -/

/-- WRITE_CONFIG (R167). -/
def takeWriteConfig (seq : Byte) (args : List Byte) (s : State) : State :=
  withArgs (parseWriteConfig s.mgmt.staged args) seq s fun img => untilNotice seq s
    (respond seq .ok .empty { s with mgmt := { s.mgmt with staged := img } })

/-- The staged image becomes the active one, and the blocks take it (R169); an image equal to the active one changes
nothing. -/
def applied (s : State) : State :=
  if s.mgmt.staged = s.mgmt.active then s
  else { s with
    mgmt := { s.mgmt with active := s.mgmt.staged }
    blocks := applyEffect s.mgmt.active s.mgmt.staged s.blocks }

/-- APPLY (R168, R169). -/
def takeApply (seq : Byte) (args : List Byte) (s : State) : State :=
  withArgs (parseNone args) seq s fun _ => untilNotice seq s
    (if applyRefused s.mgmt s.blocks then respond seq .refusedState .empty s
    else match failingItem s.mgmt.staged with
      | some item => respond seq .invalid (.invalidItem item.code) s
      | none => respond seq .ok .empty (applied s))

/-- LOAD (R170). -/
def takeLoad (seq : Byte) (args : List Byte) (s : State) : State :=
  withArgs (parseNone args) seq s fun _ => untilNotice seq s
    (if s.mgmt.programming.isSome then respond seq .busy .empty s
    else respond seq .ok .empty { s with mgmt := { s.mgmt with staged := s.mgmt.storedImage } })

/-- The bank a STORE targets: the one that is not current, or bank 0 of a blank store (R171). -/
def storeTarget : Option (Fin 2) → Fin 2
  | none => 0
  | some k => 1 - k

/-- The generation a STORE writes: one more than the current bank's, or 1 (R171). -/
def Management.storeGeneration (m : Management) : Count32 :=
  match m.current with
  | some k => m.banks[k].generation + 1
  | none => 1

/-- A STORE captures the active image and begins to program (R171). Until programming ends the target bank counts as it
did, and a valid one is reported with its old generation (DESIGN CHOICE, log 32). -/
def Management.startStore (m : Management) (now : Nat) : Management :=
  { m with programming := some ⟨storeTarget m.current, m.active, m.storeGeneration, now⟩ }

/-- STORE (R171). -/
def takeStore (seq : Byte) (args : List Byte) (s : State) : State :=
  withArgs (parseNone args) seq s fun _ => untilNotice seq s
    (if s.mgmt.programming.isSome then respond seq .busy .empty s
    else respond seq .started .empty { s with mgmt := s.mgmt.startStore s.blocks.clock })

/-- The banks and the outcome after programming ends (R171). -/
def Management.programmed (m : Management) (p : Programming) (how : ProgrammingEnd) : Management :=
  match how with
  | .verified =>
    { m with
      banks := m.banks.set p.target.val ⟨p.image, p.generation, true⟩
      current := some p.target
      programming := none
      outcome := some .ok }
  | _ =>
    { m with
      banks := m.banks.set p.target.val { m.banks[p.target] with valid := false }
      programming := none
      outcome := some .failed }

/-- The time at which programming ends: at the limit, 25 ms after its start (R171). -/
def programmingTime (p : Programming) (how : ProgrammingEnd) (b : Blocks) : Blocks :=
  match how with
  | .limitElapsed => b.reachTime (p.started + Config.programmingLimit)
  | _ => b

/-- Store programming ends (R171): in every journal state, SAFE included. -/
def storeEnd (how : ProgrammingEnd) (s : State) : State :=
  match s.mgmt.programming with
  | some p =>
    { s with
      mgmt := s.mgmt.programmed p how
      blocks := raise .storeDone (programmingTime p how s.blocks) }
  | none => s

/-! ## Contexts (R29, R37) -/

/-- COMMIT c by the state of c (R29, R104). -/
def commitContext (seq : Byte) (c : CtxId) (s : State) : State :=
  match (s.blocks.ctx c).state with
  | .idle => respond seq .ok .empty s
  | .opened => startWork seq .started s fun b =>
      beginCommit s.mgmt.active c (b.modCtx c fun x => { x with mgmtWaiter := true })
  | .draining => startWork seq .started s fun b => b.modCtx c fun x => { x with mgmtWaiter := true }
  | .marking => startWork seq .started s fun b => b.modCtx c fun x => { x with mgmtWaiter := true }
  | .rollback => respond seq .refusedState .empty s
  | .faulted => respond seq .refusedState .empty s

/-- COMMIT c (R29). -/
def takeCommit (seq : Byte) (args : List Byte) (s : State) : State :=
  withArgs (parseCtx args) seq s fun c => untilNotice seq s (commitContext seq c s)

/-- ABORT c of a context that is not IDLE, in READY (R29, R110). -/
def abortContext (seq : Byte) (c : CtxId) (s : State) : State :=
  match (s.blocks.ctx c).state with
  | .marking => respond seq .tooLate .empty s
  | .rollback => respond seq .busy .empty s
  | .idle => respond seq .ok .empty s
  | .opened => startWork seq .started s (enterRollback s.mgmt.active c .restore)
  | .draining => startWork seq .started s (enterRollback s.mgmt.active c .restore)
  | .faulted => startWork seq .started s (enterRollback s.mgmt.active c .restore)

/-- ABORT c (R29, R110). -/
def takeAbort (seq : Byte) (args : List Byte) (s : State) : State :=
  withArgs (parseCtx args) seq s fun c => untilNotice seq s
    (if (s.blocks.ctx c).state ≠ .idle ∧ s.blocks.journal.state ≠ .ready then respond seq .refusedState .empty s
    else abortContext seq c s)

/-- A fault that CLEAR_FAULT clears (R37). -/
def clearable (x : Context) : Bool :=
  match x.fault with
  | some r => decide (x.state = .faulted) &&
      (decide (r.kind = .captureReadFailed) || decide (r.kind = .releaseWriteFailed))
  | none => false

/-- A faulted context returns to OPEN (R37). -/
def clearFault (cfg : Image) (c : CtxId) (b : Blocks) : Blocks :=
  wakeContext cfg c (startIdleTimer cfg c (b.modCtx c fun x => { x with state := .opened, fault := none }))

/-- CLEAR_FAULT c (R37). -/
def takeClearFault (seq : Byte) (args : List Byte) (s : State) : State :=
  withArgs (parseCtx args) seq s fun c => untilNotice seq s
    (if clearable (s.blocks.ctx c) ∧ s.blocks.journal.state = .ready then
      startWork seq .ok s (clearFault s.mgmt.active c)
    else respond seq .refusedState .empty s)

/-- FORCE_RETIRE c (R29, R122). -/
def takeForceRetire (seq : Byte) (args : List Byte) (s : State) : State :=
  withArgs (parseCtx args) seq s fun c => untilNotice seq s
    (if (s.blocks.ctx c).state = .faulted ∧ s.blocks.journal.state = .ready then
      startWork seq .started s (enterRollback s.mgmt.active c .retireOnly)
    else respond seq .refusedState .empty s)

/-! ## FORMAT and WARM_RESET (R84, R154) -/

/-- The states in which FORMAT is taken (R84). -/
def formatAllowed (b : Blocks) : Bool :=
  decide (b.journal.state = .unformatted) || decide (b.journal.state = .failed)
    || (decide (b.journal.state = .ready) && b.allIdle)

/-- FORMAT (R84). -/
def takeFormat (seq : Byte) (args : List Byte) (s : State) : State :=
  withArgs (parseNone args) seq s fun _ => untilNotice seq s
    (if !formatAllowed s.blocks then respond seq .refusedState .empty s
    else if s.mgmt.active.ringN = 0 then respond seq .invalid (.invalidItem Item.journal.code) s
    else startWork seq .started s (format s.mgmt.active))

/-- WARM_RESET: answered OK, then the warm reset (R154). -/
def takeWarmReset (seq : Byte) (args : List Byte) (s : State) : State :=
  withArgs (parseNone args) seq s fun _ =>
    respond seq .ok .empty { s with blocks := s.blocks.warmReset s.mgmt.active s.pins.pfail }

/-! ## Frames (R164) -/

/-- A command frame that passed the first three tests. -/
def takeCommand : CommandCode → Byte → List Byte → State → State
  | .identify => takeIdentify
  | .readStatus => takeReadStatus
  | .readContext => takeReadContext
  | .readEvents => takeReadEvents
  | .ackEvents => takeAckEvents
  | .setEventMask => takeSetEventMask
  | .readConfig => takeReadConfig
  | .writeConfig => takeWriteConfig
  | .apply => takeApply
  | .load => takeLoad
  | .store => takeStore
  | .commit => takeCommit
  | .abort => takeAbort
  | .clearFault => takeClearFault
  | .forceRetire => takeForceRetire
  | .format => takeFormat
  | .warmReset => takeWarmReset

/-- A frame as received, judged by R164; one that is acceptable is taken as its command (log 3). -/
def takeFrame (frame : List Byte) (s : State) : State :=
  match judgeFrame frame with
  | .frameError seq => respond seq .frameError .empty s
  | .unknownCommand seq => respond seq .unknownCommand .empty s
  | .command c seq args => takeCommand c seq args s

/-! ## Cold reset (R153, R171, R174) -/

/-- The current bank: the valid bank with the newer generation (R171). -/
def judgeBanks (banks : Vector Bank 2) : Option (Fin 2) :=
  let x := banks[(0 : Fin 2)]
  let y := banks[(1 : Fin 2)]
  match x.valid, y.valid with
  | false, false => none
  | true, false => some 0
  | false, true => some 1
  | true, true => if aheadOf y.generation x.generation then some 1 else some 0

/-- What an abandoned programming leaves in its target bank: an unmatched check, or the image before the STORE; which is
free (R171, log 2). -/
def abandoned (m : Management) (invalid : Bool) : Vector Bank 2 :=
  match m.programming with
  | some p => if invalid then m.banks.set p.target.val { m.banks[p.target] with valid := false } else m.banks
  | none => m.banks

/-- The Management Port after a cold reset (R174). -/
def Management.coldReset (m : Management) (invalid : Bool) : Management :=
  let banks := abandoned m invalid
  let m := { m with banks := banks, current := judgeBanks banks, programming := none, outcome := none, response := .none }
  { m with staged := m.storedImage, active := m.storedImage }

/-- The free choice of an abandoned programming, drawn only when one is abandoned (log 2). -/
def drawAbandon (m : Management) (b : Blocks) : Bool × Blocks :=
  if m.programming.isSome then
    (decide ((choose 2 b.free).1 = 0), { b with free := (choose 2 b.free).2 })
  else (false, b)

/-- A cold reset takes effect (R153). -/
def State.coldReset (s : State) (powerUp : Bool) : State :=
  let d := drawAbandon s.mgmt s.blocks
  let m := s.mgmt.coldReset d.1
  { s with
    mgmt := m
    blocks := d.2.coldReset m.active powerUp s.pins.pfail
    pins := { s.pins with resetLow := false } }

/-- PFAIL is found at a level: looked at, unless RESET_N is low (R150). -/
def State.pfailLevel (s : State) (asserted : Bool) : State :=
  let s' : State := { s with pins := { s.pins with pfail := asserted } }
  s'.event (lookAtPfail asserted)

/-- A management event: nothing is taken while RESET_N is low (R153). -/
def State.managed (s : State) (t : State) : State := if s.pins.resetLow then s else t

end Sys2Proof.Machine
end

