-- ==== Sys2Proof/Machine/ManagementCommands.lean ====
section
/-! DEFINITION. The meanings of the management commands and of a rejected frame (spec/10 R164). -/

namespace Sys2Proof.Machine

/-- IDENTIFY (R166). -/
def execIdentify (seq : Byte) (args : List Byte) (s : State) : Host.Outcome State Fault Refusal :=
  .next (s.managed (takeIdentify seq args s))

/-- READ_STATUS (R166). -/
def execReadStatus (seq : Byte) (args : List Byte) (s : State) : Host.Outcome State Fault Refusal :=
  .next (s.managed (takeReadStatus seq args s))

/-- READ_CONTEXT c (R166). -/
def execReadContext (seq : Byte) (args : List Byte) (s : State) : Host.Outcome State Fault Refusal :=
  .next (s.managed (takeReadContext seq args s))

/-- READ_EVENTS (R166). -/
def execReadEvents (seq : Byte) (args : List Byte) (s : State) : Host.Outcome State Fault Refusal :=
  .next (s.managed (takeReadEvents seq args s))

/-- ACK_EVENTS (R172). -/
def execAckEvents (seq : Byte) (args : List Byte) (s : State) : Host.Outcome State Fault Refusal :=
  .next (s.managed (takeAckEvents seq args s))

/-- SET_EVENT_MASK (R172). -/
def execSetEventMask (seq : Byte) (args : List Byte) (s : State) : Host.Outcome State Fault Refusal :=
  .next (s.managed (takeSetEventMask seq args s))

/-- READ_CONFIG (R167). -/
def execReadConfig (seq : Byte) (args : List Byte) (s : State) : Host.Outcome State Fault Refusal :=
  .next (s.managed (takeReadConfig seq args s))

/-- WRITE_CONFIG (R167). -/
def execWriteConfig (seq : Byte) (args : List Byte) (s : State) : Host.Outcome State Fault Refusal :=
  .next (s.managed (takeWriteConfig seq args s))

/-- APPLY (R168, R169). -/
def execApply (seq : Byte) (args : List Byte) (s : State) : Host.Outcome State Fault Refusal :=
  .next (s.managed (takeApply seq args s))

/-- LOAD (R170). -/
def execLoad (seq : Byte) (args : List Byte) (s : State) : Host.Outcome State Fault Refusal :=
  .next (s.managed (takeLoad seq args s))

/-- STORE (R171). -/
def execStore (seq : Byte) (args : List Byte) (s : State) : Host.Outcome State Fault Refusal :=
  .next (s.managed (takeStore seq args s))

/-- COMMIT c (R29, R104). -/
def execManagementCommit (seq : Byte) (args : List Byte) (s : State) : Host.Outcome State Fault Refusal :=
  .next (s.managed (takeCommit seq args s))

/-- ABORT c (R110). -/
def execAbort (seq : Byte) (args : List Byte) (s : State) : Host.Outcome State Fault Refusal :=
  .next (s.managed (takeAbort seq args s))

/-- CLEAR_FAULT c (R37). -/
def execClearFault (seq : Byte) (args : List Byte) (s : State) : Host.Outcome State Fault Refusal :=
  .next (s.managed (takeClearFault seq args s))

/-- FORCE_RETIRE c (R122). -/
def execForceRetire (seq : Byte) (args : List Byte) (s : State) : Host.Outcome State Fault Refusal :=
  .next (s.managed (takeForceRetire seq args s))

/-- FORMAT (R84). -/
def execFormat (seq : Byte) (args : List Byte) (s : State) : Host.Outcome State Fault Refusal :=
  .next (s.managed (takeFormat seq args s))

/-- WARM_RESET (R154). -/
def execWarmReset (seq : Byte) (args : List Byte) (s : State) : Host.Outcome State Fault Refusal :=
  .next (s.managed (takeWarmReset seq args s))

/-- A frame that fails its tests or names no command (R164). -/
def execCommandFrameRejected (frame : List Byte) (s : State) : Host.Outcome State Fault Refusal :=
  .next (s.managed (takeFrame frame s))

end Sys2Proof.Machine
end

