-- ==== Sys2Proof/Machine/Timers.lean ====
section
/-! DEFINITION. The expiries of the part's own timers (spec/02 R32, spec/03 R54, spec/04 R72 and R81). An expiry whose
timer does not run, or whose record does not stand, has no effect. -/

namespace Sys2Proof.Machine

/-- The idle timer of a context expires (R32): the management waiter is set and the commit begins. -/
def idleExpiry (cfg : Image) (c : CtxId) (b : Blocks) : Blocks :=
  let x := b.ctx c
  match x.idleTimer with
  | some t =>
    if x.state = .opened then
      beginCommit cfg c ((b.reachTime t).modCtx c fun x => { x with mgmtWaiter := true })
    else b
  | none => b

/-- The group timer expires and is due (R72). -/
def groupExpiry (cfg : Image) (b : Blocks) : Blocks :=
  match b.journal.groupTimer with
  | .running t => burstCheck cfg ((b.reachTime t).modJournal fun j => { j with groupTimer := .due })
  | _ => b

/-- The deadline of a conflict wait expires: CONFLICT_TIMEOUT (R54). -/
def conflictExpiry (i : StreamId) (b : Blocks) : Blocks :=
  let r := b.stream i
  match r.phase, r.conflict with
  | .stalled .conflict, some w => refuseWrite i w.line .conflictTimeout (b.reachTime w.deadline)
  | _, _ => b

/-- The deadline of a capture stall expires: JOURNAL_FULL (R81). -/
def captureExpiry (i : StreamId) (b : Blocks) : Blocks :=
  let r := b.stream i
  match r.phase, r.captureStall, r.currentLine with
  | .stalled .capture, some t, some line => refuseWrite i line .journalFull (b.reachTime t)
  | _, _, _ => b

end Sys2Proof.Machine
end

