-- ==== Sys2Proof/Machine/ResetsAndExpiries.lean ====
section
/-! DEFINITION. The meanings of the end of a store programming, the resets, PFAIL and the expiries (spec/09 R150, R153;
spec/10 R171; spec/02 R32; spec/04 R72, R81; spec/03 R54; spec/07 R127). -/

namespace Sys2Proof.Machine

/-- Store programming ends (R171); while RESET_N is low its end is not taken (log 18). -/
def execStoreProgrammingEnd (how : ProgrammingEnd) (s : State) : Host.Outcome State Fault Refusal :=
  .next (s.managed (storeEnd how s))

/-- RESET_N goes low: nothing is taken until it goes high (R153). -/
def execResetNLow (s : State) : Host.Outcome State Fault Refusal :=
  .next ({ s with pins := { s.pins with resetLow := true } })

/-- RESET_N goes high, or power comes up (R153, R126). -/
def execColdReset (powerUp : Bool) (s : State) : Host.Outcome State Fault Refusal :=
  .next (s.coldReset powerUp)

/-- PFAIL changes to a level and is looked at (R150). -/
def execPowerFailNotice (asserted : Bool) (s : State) : Host.Outcome State Fault Refusal :=
  .next (s.pfailLevel asserted)

/-- The idle timer of a context expires (R32). -/
def execIdleTimerExpiry (ctx : CtxId) (s : State) : Host.Outcome State Fault Refusal :=
  .next (s.event (idleExpiry s.mgmt.active ctx))

/-- The group timer expires (R72). -/
def execGroupTimerExpiry (s : State) : Host.Outcome State Fault Refusal :=
  .next (s.event (groupExpiry s.mgmt.active))

/-- A conflict-wait deadline expires (R54). -/
def execConflictWaitExpiry (stream : StreamId) (s : State) : Host.Outcome State Fault Refusal :=
  .next (s.event (conflictExpiry stream))

/-- A capture-stall deadline expires (R81). -/
def execCaptureStallExpiry (stream : StreamId) (s : State) : Host.Outcome State Fault Refusal :=
  .next (s.event (captureExpiry stream))

/-- An outstanding operation's timer expires (R127, R133). -/
def execDownstreamTimeout (slot : SlotNo) (s : State) : Host.Outcome State Fault Refusal :=
  .next (s.timeout slot)

end Sys2Proof.Machine
end

