-- ==== Sys2Proof/Machine/UpstreamCommands.lean ====
section
/-! DEFINITION. The meanings of the upstream requests (spec/08 R138; spec/01 R6, R10; spec/08 R144; spec/02 R28). -/

namespace Sys2Proof.Machine

/-- READ arrives on a stream and, when current, is classified (R6, R138). -/
def execRead (stream : StreamId) (tag : Tag) (addr : Addr) (s : State) : Host.Outcome State Fault Refusal :=
  .next (s.event (arrive stream ⟨tag, .read addr⟩))

/-- WRITE arrives on a stream and, when current, is classified (R10, R12, R138). -/
def execWrite (stream : StreamId) (tag : Tag) (addr : Addr) (mask : ByteMask) (data : LineData) (s : State) :
    Host.Outcome State Fault Refusal :=
  .next (s.event (arrive stream ⟨tag, .write addr mask data⟩))

/-- BARRIER arrives on a stream and, when current, is answered or waits (R138, R144). -/
def execBarrier (stream : StreamId) (tag : Tag) (s : State) : Host.Outcome State Fault Refusal :=
  .next (s.event (arrive stream ⟨tag, .barrier⟩))

/-- COMMIT arrives on a stream and, when current, is handled by the checks of R28 (R138). -/
def execUpstreamCommit (stream : StreamId) (tag : Tag) (s : State) : Host.Outcome State Fault Refusal :=
  .next (s.event (arrive stream ⟨tag, .commit⟩))

end Sys2Proof.Machine
end

