-- ==== Sys2Proof/Machine/Dispatch.lean ====
section
/-! DEFINITION. One arm for each command, each a direct call of its meaning. -/

namespace Sys2Proof.Machine

open Sys2Proof

/-- The effect of a command on everything but the queue. -/
def exec (i : Instr) (s : State) : Host.Outcome State Fault Refusal :=
  match i with
  | .read stream tag addr => Sys2Proof.Machine.execRead stream tag addr s
  | .write stream tag addr mask data => Sys2Proof.Machine.execWrite stream tag addr mask data s
  | .barrier stream tag => Sys2Proof.Machine.execBarrier stream tag s
  | .upstreamCommit stream tag => Sys2Proof.Machine.execUpstreamCommit stream tag s
  | .identify seq args => Sys2Proof.Machine.execIdentify seq args s
  | .readStatus seq args => Sys2Proof.Machine.execReadStatus seq args s
  | .readContext seq args => Sys2Proof.Machine.execReadContext seq args s
  | .readEvents seq args => Sys2Proof.Machine.execReadEvents seq args s
  | .ackEvents seq args => Sys2Proof.Machine.execAckEvents seq args s
  | .setEventMask seq args => Sys2Proof.Machine.execSetEventMask seq args s
  | .readConfig seq args => Sys2Proof.Machine.execReadConfig seq args s
  | .writeConfig seq args => Sys2Proof.Machine.execWriteConfig seq args s
  | .apply seq args => Sys2Proof.Machine.execApply seq args s
  | .load seq args => Sys2Proof.Machine.execLoad seq args s
  | .store seq args => Sys2Proof.Machine.execStore seq args s
  | .storeProgrammingEnd how => Sys2Proof.Machine.execStoreProgrammingEnd how s
  | .managementCommit seq args => Sys2Proof.Machine.execManagementCommit seq args s
  | .abort seq args => Sys2Proof.Machine.execAbort seq args s
  | .clearFault seq args => Sys2Proof.Machine.execClearFault seq args s
  | .forceRetire seq args => Sys2Proof.Machine.execForceRetire seq args s
  | .format seq args => Sys2Proof.Machine.execFormat seq args s
  | .warmReset seq args => Sys2Proof.Machine.execWarmReset seq args s
  | .commandFrameRejected frame => Sys2Proof.Machine.execCommandFrameRejected frame s
  | .resetNLow => Sys2Proof.Machine.execResetNLow s
  | .coldReset powerUp => Sys2Proof.Machine.execColdReset powerUp s
  | .powerFailNotice asserted => Sys2Proof.Machine.execPowerFailNotice asserted s
  | .idleTimerExpiry ctx => Sys2Proof.Machine.execIdleTimerExpiry ctx s
  | .groupTimerExpiry => Sys2Proof.Machine.execGroupTimerExpiry s
  | .conflictWaitExpiry stream => Sys2Proof.Machine.execConflictWaitExpiry stream s
  | .captureStallExpiry stream => Sys2Proof.Machine.execCaptureStallExpiry stream s
  | .downstreamTimeout slot => Sys2Proof.Machine.execDownstreamTimeout slot s
  | .strayCompletion id kind => Sys2Proof.Machine.execStrayCompletion id kind s
  | .passThroughReadDone id kind => Sys2Proof.Machine.execPassThroughReadDone id kind s
  | .directWriteDone id kind => Sys2Proof.Machine.execDirectWriteDone id kind s
  | .captureReadDone id kind => Sys2Proof.Machine.execCaptureReadDone id kind s
  | .releaseWriteDone id kind => Sys2Proof.Machine.execReleaseWriteDone id kind s
  | .detachedWriteDone id kind => Sys2Proof.Machine.execDetachedWriteDone id kind s
  | .slotBurstDone id kind => Sys2Proof.Machine.execSlotBurstDone id kind s
  | .anchorWriteDone id kind => Sys2Proof.Machine.execAnchorWriteDone id kind s
  | .restoreReadDone id kind => Sys2Proof.Machine.execRestoreReadDone id kind s
  | .restoreWriteDone id kind => Sys2Proof.Machine.execRestoreWriteDone id kind s
  | .recoveryReadDone id kind => Sys2Proof.Machine.execRecoveryReadDone id kind s
  | .recoveryWriteDone id kind => Sys2Proof.Machine.execRecoveryWriteDone id kind s

end Sys2Proof.Machine
end

