-- ==== Sys2Proof/WellFormed.lean ====
section
/-! DEFINITION. Which commands are well formed: the operands the links can carry. -/

namespace Sys2Proof

/-- A management command carries at most 48 argument bytes (R164). -/
def argsOk (args : List Byte) : Bool := decide (args.length ≤ 48)

/-- A frame that R164 rejects before its command is known. -/
def frameRejected (f : List Byte) : Bool :=
  match Machine.judgeFrame f with
  | .frameError _ => true
  | .unknownCommand _ => true
  | .command _ _ _ => false

/-- Well-formed commands. The widths of streams, tags, addresses, masks and identifiers are in the types. -/
def Instr.wf : Instr → Bool
  | .read _ _ _ => true
  | .write _ _ _ _ _ => true
  | .barrier _ _ => true
  | .upstreamCommit _ _ => true
  | .identify _ args => argsOk args
  | .readStatus _ args => argsOk args
  | .readContext _ args => argsOk args
  | .readEvents _ args => argsOk args
  | .ackEvents _ args => argsOk args
  | .setEventMask _ args => argsOk args
  | .readConfig _ args => argsOk args
  | .writeConfig _ args => argsOk args
  | .apply _ args => argsOk args
  | .load _ args => argsOk args
  | .store _ args => argsOk args
  | .storeProgrammingEnd _ => true
  | .managementCommit _ args => argsOk args
  | .abort _ args => argsOk args
  | .clearFault _ args => argsOk args
  | .forceRetire _ args => argsOk args
  | .format _ args => argsOk args
  | .warmReset _ args => argsOk args
  | .commandFrameRejected frame => frameRejected frame
  | .resetNLow => true
  | .coldReset _ => true
  | .powerFailNotice _ => true
  | .idleTimerExpiry _ => true
  | .groupTimerExpiry => true
  | .conflictWaitExpiry _ => true
  | .captureStallExpiry _ => true
  | .downstreamTimeout _ => true
  | .strayCompletion _ _ => true
  | .passThroughReadDone _ _ => true
  | .directWriteDone _ _ => true
  | .captureReadDone _ _ => true
  | .releaseWriteDone _ _ => true
  | .detachedWriteDone _ _ => true
  | .slotBurstDone _ _ => true
  | .anchorWriteDone _ _ => true
  | .restoreReadDone _ _ => true
  | .restoreWriteDone _ _ => true
  | .recoveryReadDone _ _ => true
  | .recoveryWriteDone _ _ => true

end Sys2Proof
end

