-- ==== Sys2Proof/Decode.lean ====
section
/-! DEFINITION. The commands a table word spells: no row of spec/opcode_table.json gives bits. -/

namespace Sys2Proof

/-- The command that the w of the table's bits spells: none, since no row of the table gives bits. -/
def decodeTableWord (nbits w : Nat) : Option Instr :=
  match nbits, w with
  | _, _ => none

end Sys2Proof
end

