-- ==== Sys2Proof/Machine/Queue.lean ====
section
/-! DEFINITION. The queue of waiting commands and the idle step (log 1, log 3). -/

namespace Sys2Proof.Machine

/-- The state with another queue. -/
def State.withQueue (s : State) (q : List Instr) : State := { s with pending := q }

/-- One µs passes; expiries are commands of their own (log 1). -/
def idleTick (s : State) : State := { s with blocks := { s.blocks with clock := s.blocks.clock + 1 } }

end Sys2Proof.Machine
end

