-- ==== Sys2Proof/Safety.lean ====
section
/-! DEFINITION. The terms the statements use: when nothing is due in the part, what stands at the Memory Port, and the
laws that every step keeps. -/

namespace Sys2Proof.Safety

open Sys2Proof.Machine

/-- A step goes on: it stops with neither a fault nor a refusal. -/
def GoesOn (s : State) : Prop := ∃ t, step s = .next t

/-! ## A part at rest -/

/-- No context has a drain, a QUIESCE, a restore or a RETIRE due, no capture or marker can be given a buffer slot, no
release is to be asked for, and no BARRIER or held WRITE is to go on. -/
def still (cfg : Image) (b : Blocks) : Bool :=
  allCtxs.all (fun c => !drainDue b c && !quiesceDue b c && (nextRestore b c).isNone && !retireDue b c)
    && (serveOne cfg b).isNone
    && b.held.entries.all (fun e => !releaseDue b e)
    && allStreams.all fun i => !barrierDue b i && !countDue b i

/-- No current request is to be handled. -/
def noFresh (b : Blocks) : Bool := allStreams.all fun i => decide ((b.stream i).phase ≠ .fresh)

/-- No current request is stalled. -/
def noStall (b : Blocks) : Bool :=
  allStreams.all fun i =>
    match (b.stream i).phase with
    | .stalled _ => false
    | _ => true

/-- The part takes commands (RESET_N is high, the notice has not been taken) and nothing is due in it: no request is to
be handled and no grant can be made. -/
def atRest (s : State) : Bool :=
  !s.pins.resetLow && !s.blocks.journal.notice && still s.mgmt.active s.blocks && noFresh s.blocks
    && (grantOne s.mgmt.active s.blocks).isNone

/-- At rest, with no stalled request. -/
def calm (s : State) : Bool := atRest s && noStall s.blocks

/-- A stream with no request and no wait record. -/
def idleStream (r : StreamRec) : Bool :=
  r.queue.isEmpty && decide (r.phase = .idle) && decide (r.conflict = none) && decide (r.captureStall = none)

/-- A response is sent on a stream. -/
def sends (i : StreamId) (x : Response) (b : Blocks) : Blocks := b.modStream i fun r => { r with sent := r.sent ++ [x] }

/-- An operation of an owner waits at the Memory Port or is outstanding there. -/
def inPort (m : MemoryPort) (op : MemOp) (owner : Owner) : Bool :=
  (m.waiting.any fun r => decide (r.op = op ∧ r.owner = owner))
    || m.ops.any fun o => decide (o.op = op ∧ o.owner = owner)

/-- A held entry but for whether it has been issued. -/
def asIssued (e : HeldEntry) : HeldEntry := { e with state := .issued }

/-- What differs between two states of the blocks is the doing of grants alone: the Memory Port, the free choices and
whether held entries have been issued (R92, R126, R129). -/
structure OnlyGrants (b b' : Blocks) : Prop where
  req : b'.req = b.req
  epochs : b'.epochs = b.epochs
  track : b'.track = b.track
  journal : b'.journal = b.journal
  recovery : b'.recovery = b.recovery
  events : b'.events = b.events
  clock : b'.clock = b.clock
  nextCapture : b'.nextCapture = b.nextCapture
  entries : b'.held.entries.map asIssued = b.held.entries.map asIssued
  detached : b'.held.detached = b.held.detached
  overlays : b'.held.overlays = b.held.overlays

/-- At rest, with no request in any stream: what happens next is the command's doing alone. -/
def alone (s : State) : Bool := atRest s && allStreams.all fun i => idleStream (s.blocks.stream i)

/-- A command answers with a next state in which only the blocks differ, and those by grants alone from given ones. -/
def blocksBecome (s : State) (b : Blocks) (t : State) : Prop :=
  t.mgmt = s.mgmt ∧ t.pins = s.pins ∧ t.pending = s.pending ∧ OnlyGrants b t.blocks

/-- A state with other blocks. -/
def after (s : State) (b : Blocks) : State := { s with blocks := b }

/-! ## The kinds of commands -/

/-- The request a command brings, with its stream (R138). -/
def arrivalOf : Instr → Option (StreamId × Request)
  | .read i tag a => some (i, ⟨tag, .read a⟩)
  | .write i tag a m d => some (i, ⟨tag, .write a m d⟩)
  | .barrier i tag => some (i, ⟨tag, .barrier⟩)
  | .upstreamCommit i tag => some (i, ⟨tag, .commit⟩)
  | _ => none

/-- The commands that make a reset, or may. -/
def isReset : Instr → Bool
  | .coldReset _ => true
  | .warmReset _ _ => true
  | _ => false

/-- The completion a command brings: its identifier and kind (R128). -/
def completionOf : Instr → Option (OpId × Completion)
  | .strayCompletion id k => some (id, k)
  | .passThroughReadDone id k => some (id, k)
  | .directWriteDone id k => some (id, k)
  | .captureReadDone id k => some (id, k)
  | .releaseWriteDone id k => some (id, k)
  | .detachedWriteDone id k => some (id, k)
  | .slotBurstDone id k => some (id, k)
  | .anchorWriteDone id k => some (id, k)
  | .restoreReadDone id k => some (id, k)
  | .restoreWriteDone id k => some (id, k)
  | .recoveryReadDone id k => some (id, k)
  | .recoveryWriteDone id k => some (id, k)
  | _ => none

/-- The expiries (R32, R54, R72, R81). -/
def isExpiry : Instr → Bool
  | .idleTimerExpiry _ => true
  | .groupTimerExpiry => true
  | .conflictWaitExpiry _ => true
  | .captureStallExpiry _ => true
  | _ => false

/-! ## Laws that every step keeps -/

/-- A context record is consistent: an epoch unless IDLE, a rollback record in ROLLBACK only, a fault record in FAULTED
only, the idle timer in OPEN only, waiters in DRAINING and MARKING only, no undo records in IDLE (R19, R30, R31, R35,
R111). -/
def ctxLaw (x : Context) : Bool :=
  (decide (x.state = .idle) == x.epoch.isNone)
    && (decide (x.state = .rollback) == x.rollback.isSome)
    && (decide (x.state = .faulted) == x.fault.isSome)
    && (x.idleTimer.isNone || decide (x.state = .opened))
    && (x.waiters.isEmpty || decide (x.state = .draining) || decide (x.state = .marking))
    && (!x.mgmtWaiter || decide (x.state = .draining) || decide (x.state = .marking))
    && (decide (x.state ≠ .idle) || decide (x.undoCount = 0))

/-- Every context record is consistent. -/
def ctxsLaw (b : Blocks) : Bool := allCtxs.all fun c => ctxLaw (b.ctx c)

/-- One entry for a line; each entry in the live epoch of its context; no context beyond its quota (R41, R43, R44). -/
def trackLaw (cfg : Image) (b : Blocks) : Bool :=
  decide (b.track.map (·.line)).Nodup
    && b.track.all (fun e => decide ((b.ctx e.ctx).epoch = some e.epoch))
    && allCtxs.all fun c => decide (b.trackedCount c ≤ cfg.ctxs[c].quota.toNat)

/-- A stream holds at most 4 requests, and it has a current request when it holds any (R137, R138). -/
def streamLaw (r : StreamRec) : Bool :=
  decide (r.queue.length ≤ Config.queueDepth) && (decide (r.phase = .idle) == r.queue.isEmpty)

/-- Every stream record is consistent, and the queue of held writes holds at most 64 entries (R87). -/
def queueLaw (b : Blocks) : Bool :=
  (allStreams.all fun i => streamLaw (b.stream i)) && decide (b.held.entries.length ≤ Config.heldCapacity)

/-- Nothing waits at the Memory Port from the notice on; in SAFE the notice has been taken and no operation is
outstanding (R135, R151). -/
def safeLaw (b : Blocks) : Bool :=
  (!b.journal.notice || b.mem.waiting.isEmpty)
    && (decide (b.journal.state ≠ .safe) || (b.journal.notice && b.mem.quiet))

/-- The line a release request names is the line of its owner. -/
def releaseNamed (r : MemRequest) : Bool :=
  match r.owner with
  | .release l => decide (r.op.writeLine = some l)
  | _ => true

/-- At most one LINE_WRITE of a line is outstanding (R91, R131). -/
def writeLaw (m : MemoryPort) : Bool :=
  decide (m.ops.filterMap fun o => o.op.writeLine).Nodup && m.waiting.all releaseNamed

/-- An image passes every check of APPLY (R168). -/
def imageOk (img : Image) : Bool := (failingItem img).isNone

/-- The active image, the images of the valid banks and the image being programmed have passed the checks of APPLY
(R168, R171). -/
def configLaw (m : Management) : Bool :=
  imageOk m.active
    && m.banks.toList.all (fun k => !k.valid || imageOk k.image)
    && (match m.programming with
      | some p => imageOk p.image
      | none => true)

/-! ## The law of service: held entries, the ring, stalled requests -/

/-- A context with a fault that CLEAR_FAULT clears, or OPEN, or DRAINING: its entries may still take writes (R24, R37). -/
def mayCollect (x : Context) : Bool := decide (x.state = .opened) || decide (x.state = .draining) || clearable x

/-- A context whose marker is asked for or staged: in MARKING, or in phase RETIRE of a rollback (R107, R117). -/
def marks (x : Context) : Bool :=
  decide (x.state = .marking) || (decide (x.state = .rollback) && x.rollback.any fun r => decide (r.phase = .retire))

/-- The captures whose record is not staged (R66). -/
def unstaged (b : Blocks) : List TrackEntry := b.track.filter fun e => decide (e.state = .capturing) && e.pos.isNone

/-- The lines whose release waits at the Memory Port. -/
def releaseLines (m : MemoryPort) : List Addr :=
  m.waiting.filterMap fun r =>
    match r.owner with
    | .release l => some l
    | _ => none

/-- A line has one waiting release at most, and it is that of its oldest entry, which is READY (R91, R92). -/
def releaseLaw (b : Blocks) : Bool :=
  decide (releaseLines b.mem).Nodup
    && (releaseLines b.mem).all fun l => (b.held.oldest l).any fun e => decide (e.state = .ready)

/-- A held entry waits in WAIT_LOG for a line that its context is capturing; one that is READY or ISSUED stands beside
the LOGGED entry of its context (R87, R92, R93). -/
def heldLaw (b : Blocks) : Bool :=
  b.held.entries.all fun h =>
    match b.entryOf h.line with
    | some e => decide (e.ctx = h.ctx) &&
        decide (e.state = if h.state = .waitLog then TrackState.capturing else TrackState.logged)
    | none => false

/-- What a context's state says of its entries: CAPTURING or LOGGED while it may collect; no held entry in MARKING, with
nothing CAPTURING, nor after QUIESCE, with nothing left to stage (R106, R112, R113). -/
def entriesLaw (b : Blocks) (c : CtxId) : Bool :=
  let x := b.ctx c
  (!mayCollect x || (b.entriesOf c).all fun e => decide (e.state = .capturing) || decide (e.state = .logged))
    && (decide (x.state ≠ .marking) || (decide (b.heldCount c = 0) && !b.capturing c))
    && (decide (x.state ≠ .rollback) || x.rollback.any (fun r => decide (r.phase = .quiesce))
      || (decide (b.heldCount c = 0) && (unstaged b).all fun e => decide (e.ctx ≠ c)))

/-- Captures are numbered apart, below the next number, and a staged record is that of an entry with its position. -/
def captureLaw (b : Blocks) : Bool :=
  decide (b.track.map (·.capture)).Nodup && b.track.all (fun e => decide (e.capture < b.nextCapture))
    && b.journal.staging.all fun x =>
      match x.use with
      | .undoData n => decide (n < b.nextCapture) && b.track.all fun e => decide (e.capture ≠ n) || e.pos.isSome
      | _ => true

/-- Outside service nothing is left of it: in UNFORMATTED, FORMATTING and RECOVERING every context is IDLE and nothing is
staged; from the notice on no stream has a request; recovery is in a phase but ENDED exactly in RECOVERING (R38, R40,
R84, R148, R155). -/
def outsideLaw (b : Blocks) : Bool :=
  (!(decide (b.journal.state = .unformatted) || decide (b.journal.state = .formatting)
      || decide (b.journal.state = .recovering))
    || (b.allIdle && b.journal.staging.isEmpty && b.journal.markerQueue.isEmpty))
    && (if b.journal.notice then allStreams.all fun i =>
          (b.stream i).queue.isEmpty && decide ((b.stream i).phase = .idle)
        else decide (b.recovery.phase = .ended) == decide (b.journal.state ≠ .recovering))

/-- The owners of the anchor writes at the Memory Port. -/
def anchorOwners (m : MemoryPort) : List Owner :=
  (m.waiting.map (·.owner) ++ m.ops.map (·.owner)).filter fun o => o.isAnchor || decide (o = .staleAnchor)

/-- At most one anchor write stands at the port, and none unless it is marked in flight; in READY it carries a head between
the anchored head and the head; recovery has one in FINISH only (R76, R78, R84, R160). -/
def anchorLaw (b : Blocks) : Bool :=
  let j := b.journal
  let owners := anchorOwners b.mem
  j.notice || (decide (owners.length ≤ 1)
    && (match j.state with
      | .ready => (owners.isEmpty || j.anchor.busy) && owners.all fun o =>
          match o with
          | .anchor (.update _ _ h) => decide (j.anchored.distance h ≤ j.anchored.distance j.head)
          | .anchor _ => true
          | _ => false
      | .formatting => owners.isEmpty || (j.anchor.busy && owners.all fun o => o.isAnchor != j.formatWaits)
      | .recovering => if b.recovery.phase = .finish then decide (b.recovery.step = .idle) else owners.isEmpty
      | _ => true))

/-- The staged marker of a context. -/
def markerStaged (b : Blocks) (c : CtxId) : Bool :=
  b.journal.staging.any fun x =>
    match x.use with
    | .marker _ k _ => decide (k = c)
    | _ => false

/-- The contexts of the staged markers, and the markers that wait. -/
def markerCtxs (j : JournalWriter) : List CtxId :=
  (j.staging.filterMap fun x =>
    match x.use with
    | .marker _ k _ => some k
    | _ => none) ++ j.markerQueue.map (·.ctx)

/-- In READY each marker, staged or waiting, is the one marker of a context that marks, for its live epoch (R69, R107,
R117). -/
def markerLaw (b : Blocks) : Bool :=
  decide (b.journal.state ≠ .ready) ||
    (decide (markerCtxs b.journal).Nodup && (markerCtxs b.journal).all (fun c => marks (b.ctx c))
      && b.journal.staging.all fun x =>
        match x.use with
        | .marker _ c e => decide ((b.ctx c).epoch = some e)
        | _ => true)

/-- The ring in order and its space accounted for: the anchored head, the head and the tail in ring order; the head given
by the live-epoch list, whose entries are live epochs in ring order; 2 slots reserved for each capture not staged and 1
for each live epoch without a staged marker; and the slots in use and the reserved ones within the ring (R62, R65, R66,
R68). -/
def spaceLaw (cfg : Image) (b : Blocks) : Bool :=
  let j := b.journal
  decide (j.head = j.headNow) && decide (j.anchored.distance j.head ≤ j.inUse)
    && decide (List.IsChain (· < ·) ((j.live.map fun l => j.anchored.distance l.first) ++ [j.inUse]))
    && j.live.all (fun l => decide ((b.ctx l.ctx).epoch = some l.epoch))
    && decide (j.reserved = 2 * (unstaged b).length
      + (allCtxs.filter fun c => (b.ctx c).epoch.isSome && !markerStaged b c).length)
    && decide (j.inUse + j.reserved ≤ cfg.ringN)

/-- The ring while it is written: in READY before the notice; and before it is, in FORMATTING and at recovery's finish, an
empty ring with nothing reserved (R65, R66, R84, R160). -/
def ringLaw (cfg : Image) (b : Blocks) : Bool :=
  let j := b.journal
  j.notice || (match j.state with
    | .ready => spaceLaw cfg b
    | .formatting => spaceLaw cfg b
    | .recovering => decide (b.recovery.phase ≠ .finish) || spaceLaw cfg b
    | _ => true)

/-- The cause of a stall still stands (R15, R54, R81, R147). -/
def causeStands (cfg : Image) (b : Blocks) (i : StreamId) : StallCause → Bool
  | .recovering => decide (b.journal.state = .recovering)
  | .formatting => decide (b.journal.state = .formatting)
  | .restoring => (b.stream i).currentLine.any b.lineRestoring
  | .context => cfg.bindings[i].any fun c => decide ((b.ctx c).state = .draining) || decide ((b.ctx c).state = .marking)
      || decide ((b.ctx c).state = .rollback)
  | .conflict => (b.stream i).conflict.any fun w =>
      (b.entryOf w.line).any fun e => decide (e.ctx = w.ctx) && decide (e.epoch = w.epoch)
  | .capture => decide (b.journal.state = .ready) && (b.stream i).captureStall.isSome && (b.journal.pause ||
      decide (b.journal.unreserved cfg.ringN < ((cfg.bindings[i]).map fun c => slotsNeeded (b.ctx c).state).getD 3))
  | .heldFull => b.held.full

/-- No request stays stalled once its cause has gone: it is classified again at the event that ends the cause. -/
def stallLaw (cfg : Image) (b : Blocks) : Bool :=
  allStreams.all fun i =>
    match (b.stream i).phase with
    | .stalled cause => causeStands cfg b i cause
    | _ => true

/-- The law of service. -/
def serviceLaw (cfg : Image) (b : Blocks) : Bool :=
  heldLaw b && releaseLaw b && allCtxs.all (entriesLaw b) && captureLaw b && outsideLaw b && anchorLaw b && markerLaw b
    && ringLaw cfg b && stallLaw cfg b

/-! ## Answers in order (R139, R140) -/

/-- The responses to the oldest n requests of a queue, with a status and bytes for each. -/
def responsesTo (queue : List Request) (given : List (UpStatus × Option LineData)) : List Response :=
  List.zipWith (fun q g => responseTo q g.1 g.2) queue given

/-- From a queue and the responses sent, a stream has gone on by answering its oldest requests in order. -/
def answeredInOrder (queue : List Request) (sent : List Response) (r : StreamRec) : Prop :=
  ∃ given, given.length ≤ queue.length ∧ r.queue = queue.drop given.length ∧ r.sent = sent ++ responsesTo queue given

end Sys2Proof.Safety
end

