-- ==== Sys2Proof/Certificates/Slice0/Obligations.lean ====
section
/-! DEFINITION. The statements about the model: the queue and the laws, the requests, the management commands, resets
and expiries, completions, layouts. -/

open Sys2Proof Sys2Proof.Machine Sys2Proof.Safety

/-! ## The queue of commands -/

/-- A step takes the command at the front of the queue and runs it on the state with the queue's rest; with no command
waiting, one µs passes and nothing else changes (the model's choices, log 1 and log 3). -/
def Obligations.StepTakesTheFrontCommand : Prop :=
  (∀ (c : Instr) (rest : List Instr) (s : State), step (s.withQueue (c :: rest)) = exec c (s.withQueue rest))
    ∧ ∀ s : State, s.pending = [] → step s = .next (after s { s.blocks with clock := s.blocks.clock + 1 })

/-- No step ends in a fault or a refusal. -/
def Obligations.EveryStepGoesOn : Prop := ∀ s : State, GoesOn s

/-! ## Laws that every step keeps -/

/-- After reset: contexts IDLE with no epoch, the counter 1, no entries, the streams empty with the restart indication
sent, issue numbers 0, the event mask 0, NO_RESPONSE in the buffer, the default image. The journal is UNFORMATTED with
NO_AREA and RECOVERY_DONE is pending, since recovery ends at once without a ring. The blank store and the levels of the
pins are the model's choice (log 4). Every law below holds there, and the part is at rest. -/
def Obligations.ResetLeavesTheSpecsValues : Prop :=
  let s := State.reset
  (∀ c, s.blocks.ctx c = Context.reset) ∧ s.blocks.epochs.counter = 1 ∧ s.blocks.track = []
    ∧ s.blocks.held = ⟨[], [], []⟩ ∧ (∀ i, s.blocks.stream i = StreamRec.reset)
    ∧ s.blocks.mem.waiting = [] ∧ (∀ k : SlotNo, s.blocks.mem.slots[k] = none ∧ s.blocks.mem.issue[k] = 0)
    ∧ s.blocks.journal.state = .unformatted ∧ s.blocks.journal.reason = some .noArea ∧ s.blocks.journal.notice = false
    ∧ s.blocks.recovery.phase = .ended ∧ s.blocks.events.pending = 1#18 <<< EventFlag.recoveryDone.bit
    ∧ s.blocks.events.mask = 0 ∧ s.mgmt.staged = Config.defaults ∧ s.mgmt.active = Config.defaults
    ∧ s.mgmt.response = ⟨0, .noResponse, .empty⟩ ∧ s.mgmt.programming = none
    ∧ ctxsLaw s.blocks = true ∧ trackLaw s.mgmt.active s.blocks = true ∧ queueLaw s.blocks = true
    ∧ safeLaw s.blocks = true ∧ writeLaw s.blocks.mem = true ∧ configLaw s.mgmt = true
    ∧ serviceLaw s.mgmt.active s.blocks = true
    ∧ alone s = true ∧ calm s = true

/-- Context records stay consistent: no epoch exactly in IDLE, a rollback record exactly in ROLLBACK, a fault record
exactly in FAULTED, the idle timer in OPEN only, waiters in DRAINING and MARKING only, no UNDO records in IDLE. -/
def Obligations.StepKeepsContextLaw : Prop :=
  ∀ s t : State, ctxsLaw s.blocks = true → trackLaw s.mgmt.active s.blocks = true → step s = .next t →
    ctxsLaw t.blocks = true

/-- A line stays tracked by at most one entry, in the live epoch of its context, and no context goes beyond its quota.
-/
def Obligations.StepKeepsTrackingLaw : Prop :=
  ∀ s t : State, ctxsLaw s.blocks = true → trackLaw s.mgmt.active s.blocks = true → step s = .next t →
    trackLaw t.mgmt.active t.blocks = true

/-- Streams stay at 4 requests or fewer and the Held Write Queue at 64 entries or fewer. -/
def Obligations.StepKeepsQueueLaw : Prop :=
  ∀ s t : State, queueLaw s.blocks = true → step s = .next t → queueLaw t.blocks = true

/-- From the notice on nothing waits at the Memory Port, and in SAFE no operation is outstanding. -/
def Obligations.StepKeepsSafeLaw : Prop :=
  ∀ s t : State, safeLaw s.blocks = true → step s = .next t → safeLaw t.blocks = true

/-- At most one LINE_WRITE of a line is outstanding. -/
def Obligations.StepKeepsWriteLaw : Prop :=
  ∀ s t : State, writeLaw s.blocks.mem = true → step s = .next t → writeLaw t.blocks.mem = true

/-- The active image, the stored images and the one being programmed have passed the checks of APPLY. -/
def Obligations.StepKeepsConfigLaw : Prop :=
  ∀ s t : State, configLaw s.mgmt = true → step s = .next t → configLaw t.mgmt = true

/-- Every well-formed command but a reset answers requests of a stream oldest first, each by the response its kind has,
with its tag; a request that arrives with room joins the queue's end. -/
def Obligations.RequestsAreAnsweredInOrder : Prop :=
  ∀ (c : Instr) (s t : State) (i : StreamId), c.wf = true → isReset c = false → s.pins.resetLow = false →
    s.blocks.journal.notice = false → exec c s = .next t →
    let r := s.blocks.stream i
    answeredInOrder
      (match arrivalOf c with
        | some (k, q) => if k = i ∧ r.queue.length < Config.queueDepth then r.queue ++ [q] else r.queue
        | none => r.queue)
      r.sent (t.blocks.stream i)

/-- The rank of a class, 0 the highest (R129). -/
def rankOf : MemClass → Nat
  | .anchor => 0
  | .burst => 1
  | .restore => 2
  | .capture => 3
  | .release => 4
  | .passThrough => 5

/-- The class a grant goes to: the highest-ranked eligible class at 16 when there is one, otherwise the highest-ranked
eligible class (R130). -/
def choosesClass (m : MemoryPort) (c : MemClass) : Prop :=
  ∀ x ∈ m.waiting, m.eligible x = true →
    (m.passOver.get c ≠ 16 → m.passOver.get x.cls ≠ 16 ∧ rankOf c ≤ rankOf x.cls)
    ∧ (m.passOver.get c = 16 → m.passOver.get x.cls = 16 → rankOf c ≤ rankOf x.cls)

/-- After an arrival, an expiry or a completion that is taken, no grant is left to be made: either no operation slot is
free, or no request is eligible, or the notice has been taken. A grant goes to the first eligible request of the class
that the pass-over counts choose, in a free slot with the next issue number; the class granted is counted 0, every other
class with an eligible request before and after it one more, up to 16, and the rest 0. -/
def Obligations.EventsLeaveNoGrant : Prop :=
  (∀ (cfg : Image) (b b' : Blocks), grantOne cfg b = some b' →
    ∃ (k : SlotNo) (r : MemRequest) (before behind : List MemRequest) (o : Outstanding),
      b.mem.waiting = before ++ r :: behind ∧ b.mem.eligible r = true
      ∧ (∀ x ∈ before, x.cls = r.cls → b.mem.eligible x = false) ∧ choosesClass b.mem r.cls
      ∧ b.mem.slots[k] = none ∧ b'.mem.slots = b.mem.slots.set k.val (some o)
      ∧ o.cls = r.cls ∧ o.owner = r.owner ∧ o.order = r.order ∧ o.deadline = b.clock + cfg.timing.downstream.toNat
      ∧ b'.mem.issue = b.mem.issue.set k.val (b.mem.issue[k] + 1) ∧ b'.mem.waiting = before ++ behind
      ∧ ∀ c, b'.mem.passOver.get c =
        if c ≠ r.cls ∧ (∃ x ∈ b.mem.waiting, x.cls = c ∧ b.mem.eligible x = true)
          ∧ (∃ x ∈ before ++ behind, x.cls = c ∧ b'.mem.eligible x = true) then min 16 (b.mem.passOver.get c + 1)
        else 0)
  ∧ ∀ (c : Instr) (s t : State), s.pins.resetLow = false → exec c s = .next t →
    ((arrivalOf c).isSome ∨ isExpiry c = true ∨
      ∃ id k, completionOf c = some (id, k) ∧ (s.blocks.mem.matching id).isSome) →
    t.blocks.journal.notice = true ∨ t.blocks.mem.freeSlots = []
      ∨ ∀ r ∈ t.blocks.mem.waiting, t.blocks.mem.eligible r = false

/-- From the notice until a reset nothing is issued: every operation outstanding afterwards was outstanding before, and
the notice stays. -/
def Obligations.NothingIsIssuedAfterTheNotice : Prop :=
  ∀ (c : Instr) (s t : State), c.wf = true → isReset c = false → s.blocks.journal.notice = true → exec c s = .next t →
    t.blocks.journal.notice = true ∧
      ∀ (k : SlotNo) (o : Outstanding), t.blocks.mem.slots[k] = some o → s.blocks.mem.slots[k] = some o

/-! ## Terms: what becomes of the streams and of the ring -/

/-- From s to t stream i has been sent a response to its one request. -/
def answers (s t : State) (i : StreamId) (x : Response) : Prop :=
  idleStream (t.blocks.stream i) = true ∧ (t.blocks.stream i).sent = (s.blocks.stream i).sent ++ [x]

/-- The writes of stream i that held entries carry. -/
def writesOf (i : StreamId) (entries : List HeldEntry) : List (StreamId × Nat) :=
  (entries.flatMap fun h => h.contributors).filter fun x => decide (x.1 = i)

/-- A stream whose held writes in some entries end with a loss reason; a reason that stands is kept (R97, R143). -/
def afterLoss (reason : LossReason) (i : StreamId) (entries : List HeldEntry) (r : StreamRec) : StreamRec :=
  { r with
    outstanding := r.outstanding - ((writesOf i entries).map (·.2)).sum
    loss := if writesOf i entries = [] then r.loss else r.loss.or (some reason) }

/-- A stream whose held writes in some entries are discarded with loss reason CONTEXT_FAULTED (R97). -/
def afterDiscard (i : StreamId) (entries : List HeldEntry) (r : StreamRec) : StreamRec :=
  afterLoss .contextFaulted i entries r

/-- The part is at rest, the commit waiters of context c wait with one COMMIT each, and no other stream holds a request.
-/
def commitsWait (s : State) (c : CtxId) (tag : StreamId → Tag) : Prop :=
  atRest s = true
    ∧ (∀ i ∈ (s.blocks.ctx c).waiters,
      (s.blocks.stream i).phase = .commitWaiter ∧ (s.blocks.stream i).queue = [⟨tag i, .commit⟩])
    ∧ ∀ i, i ∉ (s.blocks.ctx c).waiters → idleStream (s.blocks.stream i) = true

/-- The commit waiters that context c had are answered with a status (R30). -/
def waitersTold (s : State) (c : CtxId) (tag : StreamId → Tag) (st : UpStatus) (t : State) : Prop :=
  ∀ i ∈ (s.blocks.ctx c).waiters, answers s t i (.done (tag i) st)

/-- The part is at rest, no stream waits for a commit, and a stream that holds requests has a READ whose data is being
obtained as its current one. -/
def onlyReads (s : State) : Prop :=
  atRest s = true ∧ (∀ c, (s.blocks.ctx c).waiters = [])
    ∧ ∀ i, idleStream (s.blocks.stream i) = true ∨ (s.blocks.stream i).phase = .reading

/-- The overlay records after bytes of a line have persisted (R94, R100). -/
def overlaid (line : Addr) (m : ByteMask) (d : LineData) (l : List Overlay) : List Overlay :=
  l.map fun v => if v.line = line then { v with data := overlay v.data m d, mask := v.mask ||| m } else v

/-- The pause flag as a READY journal evaluates it: set below the pause level, cleared at the resume level (R80). -/
def pauseNow (act : Image) (j : JournalWriter) : Bool :=
  if j.pause then decide (j.unreserved act.ringN < act.resumeAt) else decide (j.unreserved act.ringN < act.pauseAt)

/-- The Event Unit after that evaluation: CAPTURE_PAUSED or CAPTURE_RESUMED is raised at a change (R80). -/
def pauseRaises (act : Image) (j : JournalWriter) (e : EventUnit) : EventUnit :=
  if pauseNow act j = j.pause then e
  else { e with pending :=
    e.pending ||| (1#18 <<< (if j.pause then EventFlag.captureResumed else EventFlag.capturePaused).bit) }

/-- The generation an anchor state holds for a copy. -/
def genOf (a : AnchorState) : AnchorCopy → Count32
  | .a => a.genA
  | .b => a.genB

/-- Whether an anchor state holds a copy for suspect. -/
def suspectOf (a : AnchorState) : AnchorCopy → Bool
  | .a => a.suspectA
  | .b => a.suspectB

/-- The copy an anchor update writes: the suspect one, otherwise the one with the lower generation (R78). -/
def updateTarget (a : AnchorState) (copy : AnchorCopy) : Prop :=
  suspectOf a copy.other = false
    ∧ (suspectOf a copy = true
      ∨ (aheadOf (genOf a copy.other) (genOf a copy) = true ∧ aheadOf (genOf a copy) (genOf a copy.other) = false))

/-- A READY journal evaluates the anchor condition (R77, R78). When no anchor write is in flight, and the head is the
stride ahead of the anchored head, or not at it while capture is paused, an update stands at the port: the target copy
with one more than the other's generation, the head, the epoch counter, the ring size and the format count. Otherwise
none starts. -/
def updateEvaluated (act : Image) (j : JournalWriter) (counter : Epoch) (t : State) : Prop :=
  let gap := j.anchored.distance j.head
  let due := j.anchor.busy = false ∧ (act.stride ≤ gap ∨ (j.pause = true ∧ gap ≠ 0))
  (due → ∀ copy, updateTarget j.anchor copy →
    let gen := genOf j.anchor copy.other + 1
    inPort t.blocks.mem (.anchorWrite (anchorLine act copy) (buildAnchor
        ⟨gen, BitVec.ofNat 32 j.head.idx, j.head.seq, counter, act.journal.ringSize, j.anchor.formatCount⟩))
        (.anchor (.update copy gen j.head)) = true
      ∧ t.blocks.journal.anchor = { j.anchor with busy := true })
  ∧ (¬due → t.blocks.journal.anchor = j.anchor)

/-- So many buffer slots are neither occupied nor promised (R70). -/
def bufferHas (k : Nat) (j : JournalWriter) : Prop := j.staging.length + 2 * j.promises.length + k ≤ 16

/-- The burst of some unburst slots, oldest first, stands at the port: up to 16 of them, stopping before slot 0 (R73).
-/
def burstStands (act : Image) (slots : List StagedSlot) (t : State) : Prop :=
  ∀ first rest, slots = first :: rest →
    inPort t.blocks.mem (.slotBurst (slotLine act first.pos.idx)
      ((first :: (rest.takeWhile fun x => decide (x.pos.idx ≠ 0)).take 15).map (·.bytes))) .burst = true

/-- The marker of kind k for epoch n of context c is asked for in blocks b of a READY journal (R70, R71, R72, R107,
R117): it waits while another marker waits or no buffer slot is free, and is otherwise staged at the tail in its
reserved slot, with a burst in flight: one of all the unburst slots, the marker last, when none was in flight or due
before. -/
def markerAsked (act : Image) (b : Blocks) (k : RecordKind) (c : CtxId) (n : Epoch) (t : State) : Prop :=
  let j := b.journal
  let marker : StagedSlot := ⟨buildHeader j.anchor.formatCount k c j.tail.seq n 0 none, j.tail, false, .marker k c n⟩
  (j.markerQueue ≠ [] ∨ ¬bufferHas 1 j → ⟨k, c⟩ ∈ t.blocks.journal.markerQueue)
  ∧ (j.markerQueue = [] → bufferHas 1 j →
    t.blocks.journal.tail = j.tail.advance act.ringN 1 ∧ t.blocks.journal.reserved = j.reserved - 1
      ∧ (∃ x ∈ t.blocks.journal.staging, { x with inFlight := false } = marker) ∧ burstBusy t.blocks = true
      ∧ (burstBusy b = false → burstDue act b = false → burstStands act (j.unburst ++ [marker]) t))

/-- The marker of kind k for epoch n of context c waits for a buffer slot, and none is free, or it is staged, and a
burst is in flight (R70, R71, R72, R107). -/
def markerStands (k : RecordKind) (c : CtxId) (n : Epoch) (t : State) : Prop :=
  let j := t.blocks.journal
  (⟨k, c⟩ ∈ j.markerQueue ∧ ¬bufferHas 1 j)
    ∨ (burstBusy t.blocks = true ∧ ∃ x ∈ j.staging, x.use = .marker k c n
      ∧ x.bytes = buildHeader j.anchor.formatCount k c x.pos.seq n 0 none)

/-! ## Requests -/

/-- R138: what the port does with an arrival, by what the stream's queue holds and whether the notice has been taken. -/
def Obligations.ArrivalByTheQueue : Prop :=
  ∀ (c : Instr) (i : StreamId) (q : Request) (s : State), arrivalOf c = some (i, q) → s.pins.resetLow = false →
    still s.mgmt.active s.blocks = true → noFresh s.blocks = true →
    grantOne s.mgmt.active s.blocks = none → enterSafe s.blocks = s.blocks →
    (s.blocks.journal.notice = false → 1 ≤ (s.blocks.stream i).queue.length →
      (s.blocks.stream i).queue.length < 4 → exec c s =
        .next (after s (s.blocks.modStream i fun r => { r with queue := r.queue ++ [q] })))
    ∧ (s.blocks.journal.notice = false → (s.blocks.stream i).queue = [] → exec c s =
        .next (after s (finishEvent s.mgmt.active
          (s.blocks.modStream i fun r => { r with queue := [q], phase := .fresh }))))
    ∧ (s.blocks.journal.notice = true → exec c s = .next (after s (sends i (responseTo q .power none) s.blocks)))
    ∧ (s.blocks.journal.notice = false → 4 ≤ (s.blocks.stream i).queue.length → exec c s =
        .next (after s (s.blocks.modEvents fun e =>
          { e with pending := e.pending ||| (1#18 <<< EventFlag.portError.bit), lastPortError := some i })))

/-- A READ in a DIRECT or READ_ONLY window becomes a pass-through LINE_READ of its line and stays current. -/
def Obligations.PassThroughReadIsIssued : Prop :=
  ∀ (i : StreamId) (tag : Tag) (a : Addr) (w : Window) (s : State), atRest s = true →
    idleStream (s.blocks.stream i) = true → lookup s.mgmt.active (lineOf a) = .window w → w.kind ≠ .journaled →
    ∃ t, exec (.read i tag a) s = .next t ∧
      blocksBecome s (s.blocks.modStream i fun r => { r with queue := [⟨tag, .read a⟩], phase := .reading }) t ∧
      inPort t.blocks.mem (.lineRead (lineOf a)) (.passRead i false) = true

/-- A journaled READ whose line's detached write and held entries enable all 64 bytes is answered from them at once. -/
def Obligations.CoveredReadIsAnsweredFromHeldBytes : Prop :=
  ∀ (i : StreamId) (tag : Tag) (a : Addr) (w : Window) (s : State), atRest s = true →
    idleStream (s.blocks.stream i) = true → lookup s.mgmt.active (lineOf a) = .window w → w.kind = .journaled →
    s.blocks.journal.state ≠ .recovering → s.blocks.lineRestoring (lineOf a) = false →
    s.blocks.held.coverMask (lineOf a) = fullMask →
    exec (.read i tag a) s =
      .next (after s (sends i (.data tag .okay (some (s.blocks.held.layOver (lineOf a) 0))) s.blocks))

/-- A journaled READ that the held bytes do not cover goes to memory with an empty overlay record. -/
def Obligations.UncoveredReadGoesToMemory : Prop :=
  ∀ (i : StreamId) (tag : Tag) (a : Addr) (w : Window) (s : State), atRest s = true →
    idleStream (s.blocks.stream i) = true → lookup s.mgmt.active (lineOf a) = .window w → w.kind = .journaled →
    s.blocks.journal.state ≠ .recovering → s.blocks.lineRestoring (lineOf a) = false →
    s.blocks.held.coverMask (lineOf a) ≠ fullMask →
    ∃ t, exec (.read i tag a) s = .next t ∧
      blocksBecome s ((s.blocks.modHeld fun h => { h with overlays := h.overlays ++ [⟨i, lineOf a, 0, 0⟩] }).modStream i
        fun r => { r with queue := [⟨tag, .read a⟩], phase := .reading }) t ∧
      inPort t.blocks.mem (.lineRead (lineOf a)) (.passRead i true) = true

/-- A READ of the journal area or of no valid window is answered DATA UNMAPPED and leaves no state behind it; a
journaled READ stalls while the journal is RECOVERING, and while its line is RESTORING. -/
def Obligations.ReadIsRefusedOrStalls : Prop :=
  ∀ (i : StreamId) (tag : Tag) (a : Addr) (s : State), atRest s = true → idleStream (s.blocks.stream i) = true →
    let stalls := fun cause => exec (.read i tag a) s = .next (after s
      (s.blocks.modStream i fun r => { r with queue := [⟨tag, .read a⟩], phase := .stalled cause }))
    (lookup s.mgmt.active (lineOf a) = .journalArea ∨ lookup s.mgmt.active (lineOf a) = .unmapped →
      exec (.read i tag a) s = .next (after s (sends i (.data tag .unmapped none) s.blocks)))
    ∧ ∀ w, lookup s.mgmt.active (lineOf a) = .window w → w.kind = .journaled →
      (s.blocks.journal.state = .recovering → stalls .recovering)
      ∧ (s.blocks.journal.state ≠ .recovering → s.blocks.lineRestoring (lineOf a) = true → stalls .restoring)

/-- A WRITE refused by the window table, by its binding, by the journal state or by a FAULTED context: an ACK with the
status of the first check that applies, and nothing else changes; in FAILED also where another context tracks the line
(the model's choice between R12 and R52, log 30). While 65,535 writes of its stream are outstanding a WRITE is not
classified at all: it waits at the port with no stall record. -/
def Obligations.RefusedWriteIsAcknowledgedWithItsStatus : Prop :=
  ∀ (i : StreamId) (tag : Tag) (a : Addr) (m : ByteMask) (d : LineData) (s : State), atRest s = true →
    idleStream (s.blocks.stream i) = true →
    ((s.blocks.stream i).outstanding = 65535 → exec (.write i tag a m d) s = .next (after s (s.blocks.modStream i fun r =>
      { r with queue := [⟨tag, .write a m d⟩], phase := .countHold })))
    ∧ ((s.blocks.stream i).outstanding < Config.outstandingLimit →
    let refused := fun st => exec (.write i tag a m d) s = .next (after s (sends i (.ack tag st) s.blocks))
    (m = 0 → refused .malformed)
    ∧ (m ≠ 0 → lookup s.mgmt.active (lineOf a) = .journalArea ∨ lookup s.mgmt.active (lineOf a) = .unmapped →
      refused .unmapped)
    ∧ ∀ w, m ≠ 0 → lookup s.mgmt.active (lineOf a) = .window w →
      (w.kind = .readOnly → refused .readOnly)
      ∧ (w.kind ≠ .readOnly → w.writers.getLsbD i.val = false → refused .notPermitted)
      ∧ (w.kind = .journaled → w.writers.getLsbD i.val = true →
        (s.mgmt.active.bindings[i] = none → refused .unbound)
        ∧ ∀ c, s.mgmt.active.bindings[i] = some c →
          (s.blocks.journal.state = .unformatted ∨ s.blocks.journal.state = .failed → refused .journalUnavailable)
          ∧ (s.blocks.journal.state = .ready → (s.blocks.ctx c).state = .faulted → refused .contextFaulted)))

/-- What stands before a journaled WRITE of stream i to a line reaches the steps after 6f of R12: the window, the
writer set, the binding, the journal READY, the context IDLE or OPEN. -/
def reachesContext (s : State) (i : StreamId) (a : Addr) (m : ByteMask) (c : CtxId) : Prop :=
  m ≠ 0 ∧ (∃ w, lookup s.mgmt.active (lineOf a) = .window w ∧ w.kind = .journaled ∧ w.writers.getLsbD i.val = true)
    ∧ s.mgmt.active.bindings[i] = some c ∧ s.blocks.journal.state = .ready
    ∧ ((s.blocks.ctx c).state = .idle ∨ (s.blocks.ctx c).state = .opened)
    ∧ (s.blocks.stream i).outstanding < Config.outstandingLimit

/-- A first touch of a context at its quota is refused CAPACITY: WRITE_REFUSED is set and the last refusal record names
the stream, the line and the reason. -/
def Obligations.WriteOverQuotaIsRefused : Prop :=
  ∀ (i : StreamId) (tag : Tag) (a : Addr) (m : ByteMask) (d : LineData) (c : CtxId) (s : State), atRest s = true →
    idleStream (s.blocks.stream i) = true → reachesContext s i a m c → s.blocks.entryOf (lineOf a) = none →
    s.mgmt.active.ctxs[c].quota.toNat ≤ s.blocks.trackedCount c →
    exec (.write i tag a m d) s = .next (after s ((sends i (.ack tag .capacity) s.blocks).modEvents fun e =>
      { e with
        pending := e.pending ||| (1#18 <<< EventFlag.writeRefused.bit)
        lastRefusal := some ⟨i, lineOf a, .capacity⟩ }))

/-- A WRITE to a DIRECT window is acknowledged at once, counts as outstanding, and its LINE_WRITE goes to the port. -/
def Obligations.DirectWriteIsForwarded : Prop :=
  ∀ (i : StreamId) (tag : Tag) (a : Addr) (m : ByteMask) (d : LineData) (w : Window) (s : State), atRest s = true →
    idleStream (s.blocks.stream i) = true → (s.blocks.stream i).outstanding < Config.outstandingLimit → m ≠ 0 →
    lookup s.mgmt.active (lineOf a) = .window w → w.kind = .direct → w.writers.getLsbD i.val = true →
    ∃ t, exec (.write i tag a m d) s = .next t ∧
      blocksBecome s ((sends i (.ack tag .okay) s.blocks).modStream i fun r => { r with outstanding := r.outstanding + 1 }) t ∧
      inPort t.blocks.mem (.lineWrite (lineOf a) m d) (.directWrite i) = true

/-- The idle timer of a context after the acceptance of a journaled write in OPEN (R31). -/
def timerAfterAcceptance (s : State) (c : CtxId) : Option Nat :=
  if s.mgmt.active.ctxs[c].idleInterval = 0 then none
  else some (s.blocks.clock + 10 * s.mgmt.active.ctxs[c].idleInterval.toNat)

/-- An entry after a write to a line: an unissued entry of the line takes the enabled bytes, the union of the masks and
the stream among its contributors (R90). -/
def afterMerge (i : StreamId) (line : Addr) (m : ByteMask) (d : LineData) (e : HeldEntry) : HeldEntry :=
  if e.line = line ∧ e.state ≠ .issued then
    { e with mask := e.mask ||| m, data := overlay e.data m d, contributors := addContributor i e.contributors }
  else e

/-- A WRITE to a line tracked by its own OPEN context joins a held entry; ACK OKAY, and the idle timer restarts. It
merges into the line's unissued entry: the enabled bytes replace the entry's, the masks unite, the stream counts as a
contributor. With no unissued entry and room in the queue it makes a new one: WAIT_LOG while the line is CAPTURING,
otherwise READY, and its release is asked for when it is the line's only entry and no detached write of the line is
left. -/
def Obligations.WriteMergesIntoTheUnissuedEntry : Prop :=
  ∀ (i : StreamId) (tag : Tag) (a : Addr) (m : ByteMask) (d : LineData) (c : CtxId) (e : TrackEntry) (s : State),
    atRest s = true → idleStream (s.blocks.stream i) = true → reachesContext s i a m c →
    (s.blocks.ctx c).state = .opened → s.blocks.entryOf (lineOf a) = some e → e.ctx = c →
    let joined := fun (entries : List HeldEntry) =>
      ((s.blocks.modHeld fun h => { h with entries := entries }).modCtx c
        fun x => { x with idleTimer := timerAfterAcceptance s c }).modStream i
        fun r => { r with outstanding := r.outstanding + 1, sent := r.sent ++ [Response.ack tag .okay] }
    (s.blocks.held.mergeable (lineOf a) = true → exec (.write i tag a m d) s =
      .next (after s (joined (s.blocks.held.entries.map (afterMerge i (lineOf a) m d)))))
    ∧ (s.blocks.held.mergeable (lineOf a) = false → s.blocks.held.full = false →
      ∃ t, exec (.write i tag a m d) s = .next t
        ∧ blocksBecome s (joined (s.blocks.held.entries ++
          [⟨i, [(i, 1)], c, lineOf a, m, d, if e.state = .capturing then .waitLog else .ready, false⟩])) t
        ∧ (e.state ≠ .capturing → (∀ h ∈ s.blocks.held.entries, h.line ≠ lineOf a) →
          (∀ w ∈ s.blocks.held.detached, w.line ≠ lineOf a) →
          (∀ r ∈ s.blocks.mem.waiting, r.owner ≠ .release (lineOf a)) →
          inPort t.blocks.mem (.lineWrite (lineOf a) m d) (.release (lineOf a)) = true)
        ∧ (e.state = .capturing →
          ∀ h ∈ t.blocks.held.entries, h.line = lineOf a → h.state = .issued ∨ h.state = .waitLog))

/-- The capture of a new entry of a line is asked for (R45, R70): its LINE_READ stands at the port, and two buffer slots
are promised to it, when no marker and no capture waits and two are free; otherwise it waits at the end of the capture
queue. -/
def captureAsked (s : State) (line : Addr) (t : State) : Prop :=
  let j := s.blocks.journal
  (j.markerQueue = [] → j.captureQueue = [] → bufferHas 2 j → captureLaw s.blocks = true →
    inPort t.blocks.mem (.lineRead line) (.capture s.blocks.nextCapture) = true
      ∧ t.blocks.journal.promises = j.promises ++ [s.blocks.nextCapture] ∧ t.blocks.journal.captureQueue = [])
  ∧ (j.markerQueue ≠ [] ∨ j.captureQueue ≠ [] ∨ ¬bufferHas 2 j →
    t.blocks.journal.captureQueue = j.captureQueue ++ [s.blocks.nextCapture])

/-- A WRITE that passes every check is a first touch, accepted as one step: the epoch is opened if the context was IDLE,
a CAPTURING entry and a WAIT_LOG entry are made, the capture read is asked for, slots are reserved, the write is
acknowledged and counted, and the idle timer starts. The pause flag is set with CAPTURE_PAUSED when unreserved space
falls below the pause level, and the anchor condition is then evaluated. An epoch opened at 2^48 - 1 takes that number
and the counter stays: the journal is FAILED with EPOCH_EXHAUSTED, every live context FAULTED, and the write lost with
CONTEXT_FAULTED. -/
def Obligations.FirstTouchIsAccepted : Prop :=
  (∀ (i : StreamId) (tag : Tag) (a : Addr) (m : ByteMask) (d : LineData) (c : CtxId) (s : State), alone s = true →
    s.blocks.mem.waiting = [] → reachesContext s i a m c → s.blocks.entryOf (lineOf a) = none →
    s.blocks.trackedCount c < s.mgmt.active.ctxs[c].quota.toNat → s.blocks.journal.pause = false →
    slotsNeeded (s.blocks.ctx c).state ≤ s.blocks.journal.unreserved s.mgmt.active.ringN → s.blocks.held.full = false →
    s.blocks.epochs.counter ≠ lastEpoch → (s.blocks.ctx c).state = .idle ∨ (s.blocks.ctx c).epoch.isSome →
    ∃ t, exec (.write i tag a m d) s = .next t ∧ t.mgmt = s.mgmt ∧
      let opens := decide ((s.blocks.ctx c).state = .idle)
      let epoch := if opens then s.blocks.epochs.counter else (s.blocks.ctx c).epoch.getD 0
      t.blocks.track = s.blocks.track ++ [⟨lineOf a, c, epoch, .capturing, none, s.blocks.nextCapture, i⟩]
      ∧ t.blocks.held.entries = s.blocks.held.entries ++ [⟨i, [(i, 1)], c, lineOf a, m, d, .waitLog, false⟩]
      ∧ t.blocks.journal.reserved = s.blocks.journal.reserved + slotsNeeded (s.blocks.ctx c).state
      ∧ t.blocks.epochs.counter = (if opens then s.blocks.epochs.counter + 1 else s.blocks.epochs.counter)
      ∧ t.blocks.ctx c = { s.blocks.ctx c with
          state := .opened
          epoch := some epoch
          undoCount := if opens then 0 else (s.blocks.ctx c).undoCount
          idleTimer := timerAfterAcceptance s c }
      ∧ (∀ k, k ≠ c → t.blocks.ctx k = s.blocks.ctx k)
      ∧ t.blocks.stream i = { s.blocks.stream i with
          outstanding := (s.blocks.stream i).outstanding + 1
          sent := (s.blocks.stream i).sent ++ [.ack tag .okay] }
      ∧ (∀ k, k ≠ i → t.blocks.stream k = s.blocks.stream k)
      ∧ captureAsked s (lineOf a) t
      ∧ (let j := { s.blocks.journal with
            reserved := s.blocks.journal.reserved + slotsNeeded (s.blocks.ctx c).state }
        t.blocks.journal.pause = pauseNow s.mgmt.active j
          ∧ t.blocks.events = pauseRaises s.mgmt.active j s.blocks.events
          ∧ (pauseNow s.mgmt.active j = true →
            updateEvaluated s.mgmt.active { j with pause := true } t.blocks.epochs.counter t)
          ∧ (pauseNow s.mgmt.active j = false → t.blocks.journal.anchor = s.blocks.journal.anchor)))
  ∧ ∀ (i : StreamId) (tag : Tag) (a : Addr) (m : ByteMask) (d : LineData) (c : CtxId) (s : State), alone s = true →
    ctxsLaw s.blocks = true → reachesContext s i a m c → s.blocks.entryOf (lineOf a) = none →
    s.blocks.trackedCount c < s.mgmt.active.ctxs[c].quota.toNat → s.blocks.journal.pause = false →
    3 ≤ s.blocks.journal.unreserved s.mgmt.active.ringN → s.blocks.held.full = false →
    s.blocks.epochs.counter = lastEpoch → (s.blocks.ctx c).state = .idle →
    ∃ t, exec (.write i tag a m d) s = .next t ∧ t.mgmt = s.mgmt
      ∧ t.blocks.journal.state = .failed ∧ t.blocks.journal.reason = some .epochExhausted
      ∧ t.blocks.events.isPending .journalFailed = true ∧ t.blocks.epochs.counter = lastEpoch
      ∧ (∀ k n, (s.blocks.ctx k).epoch = some n ∨ (k = c ∧ n = lastEpoch) → (s.blocks.ctx k).state ≠ .faulted →
        (t.blocks.ctx k).state = .faulted ∧ (t.blocks.ctx k).epoch = some n
          ∧ (t.blocks.ctx k).fault = some ⟨.journalFailed, n, none, none, none⟩
          ∧ t.blocks.events.isPending (.contextFault k) = true)
      ∧ (∃ e ∈ t.blocks.track, e.line = lineOf a ∧ e.ctx = c ∧ e.epoch = lastEpoch ∧ e.state = .capturing)
      ∧ t.blocks.stream i = { afterDiscard i (s.blocks.held.entries.filter fun h => decide (h.state = .waitLog))
            (s.blocks.stream i) with
          loss := (s.blocks.stream i).loss.or (some .contextFaulted)
          sent := (s.blocks.stream i).sent ++ [.ack tag .okay] }

/-- A WRITE stalls: on RECOVERING and FORMATTING, on a DRAINING, MARKING or ROLLBACK context, on a full Held Write
Queue, on another context's line with a conflict-wait record, and on space or pause with a capture-stall record. It
holds nothing: only its stream's record changes. -/
def Obligations.JournaledWriteStalls : Prop :=
  ∀ (i : StreamId) (tag : Tag) (a : Addr) (m : ByteMask) (d : LineData) (c : CtxId) (w : Window) (s : State),
    atRest s = true → idleStream (s.blocks.stream i) = true → m ≠ 0 → lookup s.mgmt.active (lineOf a) = .window w →
    w.kind = .journaled → w.writers.getLsbD i.val = true → s.mgmt.active.bindings[i] = some c →
    (s.blocks.stream i).outstanding < Config.outstandingLimit →
    let stalls := fun cause conflict capture => exec (.write i tag a m d) s =
      .next (after s (s.blocks.modStream i fun r => { r with
        queue := [⟨tag, .write a m d⟩], phase := .stalled cause, conflict := conflict, captureStall := capture }))
    let x := s.blocks.ctx c
    (s.blocks.journal.state = .recovering → stalls .recovering none none)
    ∧ (s.blocks.journal.state = .formatting → stalls .formatting none none)
    ∧ (s.blocks.journal.state = .ready → x.state = .draining ∨ x.state = .marking ∨ x.state = .rollback →
      stalls .context none none)
    ∧ (s.blocks.journal.state = .ready → x.state = .idle ∨ x.state = .opened →
      (∀ e, s.blocks.entryOf (lineOf a) = some e → e.ctx ≠ c → stalls .conflict
        (some ⟨lineOf a, e.ctx, e.epoch, s.blocks.clock + s.mgmt.active.timing.conflictWait.toNat⟩) none)
      ∧ (∀ e, s.blocks.entryOf (lineOf a) = some e → e.ctx = c → s.blocks.held.mergeable (lineOf a) = false →
        s.blocks.held.full = true → stalls .heldFull none none)
      ∧ (s.blocks.entryOf (lineOf a) = none → s.blocks.trackedCount c < s.mgmt.active.ctxs[c].quota.toNat →
        (s.blocks.journal.pause = true ∨ s.blocks.journal.unreserved s.mgmt.active.ringN < slotsNeeded x.state →
          stalls .capture none (some (s.blocks.clock + s.mgmt.active.timing.captureStall.toNat)))
        ∧ (s.blocks.journal.pause = false → slotsNeeded x.state ≤ s.blocks.journal.unreserved s.mgmt.active.ringN →
          s.blocks.held.full = true → stalls .heldFull none none)))

/-- A BARRIER that finds no outstanding write is answered at once with its stream's loss reason, and the flag is
cleared; one that finds outstanding writes waits, with the lines of the WAIT_LOG entries that carry a write of its
stream, and a demand stands for each of them whose record is staged. -/
def Obligations.BarrierIsAnsweredOrWaits : Prop :=
  ∀ (i : StreamId) (tag : Tag) (s : State), atRest s = true → idleStream (s.blocks.stream i) = true →
    ((s.blocks.stream i).outstanding = 0 → (∀ d ∈ s.blocks.journal.demands, d.source ≠ .barrier i) →
    exec (.barrier i tag) s = .next (after s (s.blocks.modStream i fun r => { r with
      loss := none
      sent := r.sent ++ [.done tag (match r.loss with
        | none => .okay
        | some .memory => .memory
        | some .contextFaulted => .contextFaulted)] })))
    ∧ ((s.blocks.stream i).outstanding ≠ 0 →
    ∃ t, exec (.barrier i tag) s = .next t ∧ t.mgmt = s.mgmt ∧
      t.blocks.req = (s.blocks.modStream i fun r => { r with
        queue := [⟨tag, .barrier⟩]
        phase := .barrier (s.blocks.held.waitLinesOf i) }).req
      ∧ t.blocks.epochs = s.blocks.epochs ∧ t.blocks.track = s.blocks.track
      ∧ t.blocks.journal.tail = s.blocks.journal.tail ∧ t.blocks.journal.durable = s.blocks.journal.durable
      ∧ (∀ l ∈ s.blocks.held.waitLinesOf i, ∀ e p, s.blocks.entryOf l = some e → e.pos = some p →
        (∃ x ∈ s.blocks.journal.staging, x.pos.seq = p.dataSeq) →
        (⟨p.dataSeq, .barrier i⟩ : Demand) ∈ t.blocks.journal.demands)
      ∧ ∀ x ∈ s.blocks.journal.demands, x ∈ t.blocks.journal.demands)

/-- An upstream COMMIT that is answered at once: by its binding, the journal state and the context's state. While the
journal is RECOVERING or FORMATTING it stalls. -/
def Obligations.CommitIsAnsweredByTheContextsState : Prop :=
  ∀ (i : StreamId) (tag : Tag) (s : State), atRest s = true → idleStream (s.blocks.stream i) = true →
    let answered := fun st => exec (.upstreamCommit i tag) s = .next (after s (sends i (.done tag st) s.blocks))
    let stalls := fun cause => exec (.upstreamCommit i tag) s = .next (after s (s.blocks.modStream i fun r =>
      { r with queue := [⟨tag, .commit⟩], phase := .stalled cause }))
    (s.mgmt.active.bindings[i] = none → answered .unbound)
    ∧ ∀ c, s.mgmt.active.bindings[i] = some c →
      (s.blocks.journal.state = .unformatted ∨ s.blocks.journal.state = .failed → answered .journalUnavailable)
      ∧ (s.blocks.journal.state = .recovering → stalls .recovering)
      ∧ (s.blocks.journal.state = .formatting → stalls .formatting)
      ∧ (s.blocks.journal.state = .ready →
        ((s.blocks.ctx c).state = .idle → answered .okay)
        ∧ ((s.blocks.ctx c).state = .rollback → answered .aborted)
        ∧ ((s.blocks.ctx c).state = .faulted → answered .contextFaulted))

/-- Whether a context of a part at rest still has to drain: a held entry or a CAPTURING entry is left (R106). -/
def mustDrain (b : Blocks) (c : CtxId) : Bool := decide (b.heldCount c ≠ 0) || b.capturing c

/-- What the beginning of a commit in a READY journal leaves in the ring: with something to drain a demand on each
staged record of the context, and a burst in flight when there is one; otherwise its COMMIT marker is asked for (R72,
R105, R107). -/
def commitBegun (s : State) (c : CtxId) (t : State) : Prop :=
  (mustDrain s.blocks c = true → ∀ e ∈ s.blocks.track, e.ctx = c → e.state = .capturing → ∀ p, e.pos = some p →
    (∃ x ∈ s.blocks.journal.staging, x.pos.seq = p.dataSeq) →
    (⟨p.dataSeq, .drain c⟩ : Demand) ∈ t.blocks.journal.demands ∧ burstBusy t.blocks = true)
  ∧ (mustDrain s.blocks c = false → ∀ n, (s.blocks.ctx c).epoch = some n →
    markerAsked s.mgmt.active s.blocks .commit c n t)

/-- An upstream COMMIT of an OPEN context begins the commit: the stream waits, and the context is DRAINING with demands
on its staged records, or MARKING at once with its marker asked for when nothing is left to drain; a COMMIT of a
DRAINING or MARKING context joins the waiters. -/
def Obligations.CommitBeginsOrJoins : Prop :=
  ∀ (i : StreamId) (tag : Tag) (c : CtxId) (s : State), alone s = true → s.mgmt.active.bindings[i] = some c →
    s.blocks.journal.state = .ready →
    ((s.blocks.ctx c).state = .opened → ∃ t, exec (.upstreamCommit i tag) s = .next t ∧ t.mgmt = s.mgmt ∧
      t.blocks.ctx c = { s.blocks.ctx c with
        state := if mustDrain s.blocks c then .draining else .marking
        idleTimer := none
        waiters := (s.blocks.ctx c).waiters ++ [i] }
      ∧ (∀ k, k ≠ c → t.blocks.ctx k = s.blocks.ctx k) ∧ t.blocks.track = s.blocks.track
      ∧ t.blocks.req = (s.blocks.modStream i fun r => { r with queue := [⟨tag, .commit⟩], phase := .commitWaiter }).req
      ∧ commitBegun s c t)
    ∧ ((s.blocks.ctx c).state = .draining ∨ (s.blocks.ctx c).state = .marking →
      exec (.upstreamCommit i tag) s = .next (after s
        ((s.blocks.modCtx c fun x => { x with waiters := x.waiters ++ [i] }).modStream i fun r =>
          { r with queue := [⟨tag, .commit⟩], phase := .commitWaiter })))

/-! ## Management commands -/

/-- The byte of a context argument. -/
def ctxByte (c : CtxId) : Byte := BitVec.ofNat 8 c.val

/-- IDENTIFY, READ_STATUS, READ_CONTEXT and READ_EVENTS are answered OK with what they report, in every journal state,
and change nothing else; ACK_EVENTS clears the flags it names and no other, and SET_EVENT_MASK replaces the mask. -/
def Obligations.ReportsAndEventCommands : Prop :=
  ∀ (q : Byte) (f : BitVec 18) (s : State), s.pins.resetLow = false →
    exec (.identify q []) s = .next (respond q .ok (.identity ⟨16, 8, 16, 2048, 64, 16, 32, 4194304⟩) s)
    ∧ exec (.readStatus q []) s = .next (respond q .ok (.status (statusPayload s)) s)
    ∧ (∀ c, exec (.readContext q [ctxByte c]) s = .next (respond q .ok (.context (contextPayload s c)) s))
    ∧ exec (.readEvents q []) s =
      .next (respond q .ok (.events s.blocks.events.pending s.blocks.events.mask) s)
    ∧ (s.blocks.journal.notice = false → exec (.ackEvents q (leBytes 3 f.toNat)) s = .next (respond q .ok .empty
      (after s (s.blocks.modEvents fun e => { e with pending := e.pending &&& ~~~f })))
      ∧ exec (.setEventMask q (leBytes 3 f.toNat)) s = .next (respond q .ok .empty
        (after s (s.blocks.modEvents fun e => { e with mask := f }))))

/-- The stored image: the current bank's, or the defaults when there is none (R167, R171). -/
def storedOf (m : Management) : Image :=
  match m.current with
  | some k => m.banks[k].image
  | none => Config.defaults

/-- The programming a STORE starts: the active image, for the bank that is not current, with one more than its
generation; for bank 0 with generation 1 when the store is blank (R171). -/
def programmingOf (m : Management) (now : Nat) : Programming :=
  match m.current with
  | some k => ⟨1 - k, m.active, m.banks[k].generation + 1, now⟩
  | none => ⟨0, m.active, 1, now⟩

/-- WRITE_CONFIG puts an item's value into the staged image, where READ_CONFIG reads the same bytes back, and touches no
other item; READ_CONFIG reports the item of the image it names. -/
def Obligations.ConfigurationItemsAreWrittenAndRead : Prop :=
  ∀ (q : Byte) (item : Item) (src : Image) (s : State), s.pins.resetLow = false → s.blocks.journal.notice = false →
    (∃ t, exec (.writeConfig q (item.code :: readItem src item)) s = .next t ∧
      t = { s with mgmt := { s.mgmt with staged := t.mgmt.staged, response := ⟨q, .ok, .empty⟩ } }
      ∧ readItem t.mgmt.staged item = readItem src item
      ∧ ∀ other, other ≠ item → readItem t.mgmt.staged other = readItem s.mgmt.staged other)
    ∧ exec (.readConfig q [item.code, 0#8]) s = .next (respond q .ok (.config (readItem s.mgmt.staged item)) s)
    ∧ exec (.readConfig q [item.code, 1#8]) s = .next (respond q .ok (.config (readItem s.mgmt.active item)) s)
    ∧ exec (.readConfig q [item.code, 2#8]) s = .next (respond q .ok (.config (readItem (storedOf s.mgmt) item)) s)

/-- The states in which APPLY is refused (R168). -/
def applyBarred (s : State) : Prop :=
  s.blocks.journal.state = .recovering ∨ s.blocks.journal.state = .formatting ∨ s.blocks.journal.state = .safe
    ∨ (∃ c, (s.blocks.ctx c).state ≠ .idle)
    ∨ ((s.mgmt.staged.journal.areaBase ≠ s.mgmt.active.journal.areaBase
          ∨ s.mgmt.staged.journal.ringSize ≠ s.mgmt.active.journal.ringSize)
        ∧ s.blocks.journal.state = .ready
        ∧ ¬(s.blocks.journal.live = [] ∧ s.blocks.journal.staging = [] ∧ s.blocks.journal.anchor.busy = false))

/-- APPLY: refused by the state, or INVALID naming the first item that fails its check, or the staged image becomes the
active one; a change of geometry takes a READY journal to UNFORMATTED. -/
def Obligations.ApplyMakesTheStagedImageActive : Prop :=
  ∀ (q : Byte) (s : State), s.pins.resetLow = false → s.blocks.journal.notice = false →
    (applyBarred s → exec (.apply q []) s = .next (respond q .refusedState .empty s))
    ∧ (¬applyBarred s →
      (∀ item, failingItem s.mgmt.staged = some item →
        exec (.apply q []) s = .next (respond q .invalid (.invalidItem item.code) s))
      ∧ (failingItem s.mgmt.staged = none → ∃ t, exec (.apply q []) s = .next t
        ∧ t.mgmt = { s.mgmt with active := s.mgmt.staged, response := ⟨q, .ok, .empty⟩ }
        ∧ t.pins = s.pins ∧ t.pending = s.pending
        ∧ (s.mgmt.staged = s.mgmt.active → t.blocks = s.blocks)
        ∧ (s.mgmt.staged.journal.areaBase ≠ s.mgmt.active.journal.areaBase
              ∨ s.mgmt.staged.journal.ringSize ≠ s.mgmt.active.journal.ringSize →
            s.blocks.journal.state = .ready →
            t.blocks.journal.state = .unformatted ∧ t.blocks.journal.pause = false
              ∧ t.blocks.journal.reason =
                some (if s.mgmt.staged.journal.ringSize = 0 then .noArea else .geometryChanged))))

/-- LOAD and STORE, and the end of programming: LOAD copies the stored image into the staged one; STORE captures the
active image for the other bank; while a STORE programs, both are BUSY; a verified end makes the target bank current,
any other leaves it invalid and the current bank as it was. That the target bank counts as it did until then, with its
old generation, is the model's choice (log 32), and so is that an end without a programming has no effect (log 22). -/
def Obligations.StoreCommandsWorkOnTheBanks : Prop :=
  ∀ (q : Byte) (how : ProgrammingEnd) (s : State), s.pins.resetLow = false →
    (s.blocks.journal.notice = false → s.mgmt.programming = none →
      exec (.load q []) s =
        .next (respond q .ok .empty { s with mgmt := { s.mgmt with staged := storedOf s.mgmt } })
      ∧ exec (.store q []) s = .next (respond q .started .empty
        { s with mgmt := { s.mgmt with programming := some (programmingOf s.mgmt s.blocks.clock) } }))
    ∧ (s.blocks.journal.notice = false → s.mgmt.programming.isSome = true →
      exec (.load q []) s = .next (respond q .busy .empty s)
      ∧ exec (.store q []) s = .next (respond q .busy .empty s))
    ∧ (s.mgmt.programming = none → exec (.storeProgrammingEnd how) s = .next s)
    ∧ ∀ p, s.mgmt.programming = some p → ∃ t, exec (.storeProgrammingEnd how) s = .next t
      ∧ t.mgmt = { s.mgmt with
          programming := none
          banks := t.mgmt.banks
          current := if how = .verified then some p.target else s.mgmt.current
          outcome := if how = .verified then some .ok else some .failed }
      ∧ (∀ k : Fin 2, k ≠ p.target → t.mgmt.banks[k] = s.mgmt.banks[k])
      ∧ (how = .verified → t.mgmt.banks[p.target] = ⟨p.image, p.generation, true⟩)
      ∧ (how ≠ .verified → t.mgmt.banks[p.target].valid = false)
      ∧ t.blocks = { s.blocks with
          events := { s.blocks.events with
            pending := s.blocks.events.pending ||| (1#18 <<< EventFlag.storeDone.bit) }
          clock := t.blocks.clock }

/-- From the notice every management command but the four that read and WARM_RESET is answered without being carried
out: REFUSED_STATE, or INVALID where its arguments are (the order of the tests is the model's reading, log 8). That
LOAD, STORE and WRITE_CONFIG are among them from the notice on, and not from SAFE only, is the model's choice (log 27).
-/
def Obligations.NoticeNarrowsTheCommands : Prop :=
  ∀ (q : Byte) (args : List Byte) (c : CtxId) (item : Item) (src : Image) (s : State), s.pins.resetLow = false →
    s.blocks.journal.notice = true →
    (∀ cmd ∈ [Instr.ackEvents q args, .setEventMask q args, .readConfig q args, .writeConfig q args, .apply q args,
        .load q args, .store q args, .managementCommit q args, .abort q args, .clearFault q args, .forceRetire q args,
        .format q args],
      exec cmd s = .next (respond q .refusedState .empty s) ∨ ∃ p, exec cmd s = .next (respond q .invalid p s))
    ∧ ∀ cmd ∈ [Instr.ackEvents q [0, 0, 0], .setEventMask q [0, 0, 0], .readConfig q [0, 0],
        .writeConfig q (item.code :: readItem src item), .apply q [], .load q [],
        .store q [], .managementCommit q [ctxByte c], .abort q [ctxByte c], .clearFault q [ctxByte c],
        .forceRetire q [ctxByte c], .format q []],
      exec cmd s = .next (respond q .refusedState .empty s)

/-- Frames are judged by their length, then their CRC-8, then their code; a context argument above 7 is INVALID, after
the notice too (that the argument tests come first then is the model's reading, log 8). In each case the response is all
that changes. -/
def Obligations.BadFramesAndContextsAreAnswered : Prop :=
  ∀ s : State, s.pins.resetLow = false →
    (∀ f : List Byte, f.length < 3 →
      exec (.commandFrameRejected f) s = .next (respond ((f[1]?).getD 0) .frameError .empty s))
    ∧ (∀ (code seq len : Byte) (rest : List Byte), ¬(len.toNat ≤ 48 ∧ rest.length = len.toNat + 1) →
      exec (.commandFrameRejected (code :: seq :: len :: rest)) s = .next (respond seq .frameError .empty s))
    ∧ (∀ (code seq len crc : Byte) (args : List Byte), len.toNat ≤ 48 → args.length = len.toNat →
      (crc ≠ crc8 (code :: seq :: len :: args) →
        exec (.commandFrameRejected (code :: seq :: len :: (args ++ [crc]))) s =
          .next (respond seq .frameError .empty s))
      ∧ (crc = crc8 (code :: seq :: len :: args) → commandOfCode code = none →
        exec (.commandFrameRejected (code :: seq :: len :: (args ++ [crc]))) s =
          .next (respond seq .unknownCommand .empty s)))
    ∧ ∀ (q x : Byte), 8 ≤ x.toNat → ∀ cmd ∈ [Instr.readContext q [x], .managementCommit q [x], .abort q [x],
        .clearFault q [x], .forceRetire q [x]],
      exec cmd s = .next (respond q .invalid (.invalidArgument 0) s)

/-- COMMIT c by the state of context c; one of an OPEN context begins the commit as an upstream COMMIT does. -/
def Obligations.ManagementCommitByTheContextsState : Prop :=
  ∀ (q : Byte) (c : CtxId) (s : State), atRest s = true →
    let cmd := Instr.managementCommit q [ctxByte c]
    let x := s.blocks.ctx c
    (x.state = .idle → exec cmd s = .next (respond q .ok .empty s))
    ∧ (x.state = .rollback ∨ x.state = .faulted → exec cmd s = .next (respond q .refusedState .empty s))
    ∧ (x.state = .draining ∨ x.state = .marking → exec cmd s = .next (respond q .started .empty
        (after s (s.blocks.modCtx c fun y => { y with mgmtWaiter := true }))))
    ∧ (x.state = .opened → alone s = true → ∃ t, exec cmd s = .next t
      ∧ t.mgmt = { s.mgmt with response := ⟨q, .started, .empty⟩ }
      ∧ t.blocks.ctx c = { x with
          state := if mustDrain s.blocks c then .draining else .marking
          idleTimer := none
          mgmtWaiter := true }
      ∧ (∀ k, k ≠ c → t.blocks.ctx k = s.blocks.ctx k) ∧ t.blocks.track = s.blocks.track
      ∧ t.blocks.req = s.blocks.req ∧ (s.blocks.journal.state = .ready → commitBegun s c t))

/-- Nothing holds up the end of QUIESCE of context c once its unissued held entries are gone (R112). -/
def quiescent (b : Blocks) (c : CtxId) : Prop :=
  (∀ h ∈ b.held.entries, h.ctx = c → h.state ≠ .issued) ∧ b.mem.restoreOutstanding c = false

/-- The tracking entries after the end of QUIESCE of context c in a mode (R113). -/
def settledTrack (c : CtxId) (mode : RollbackMode) (entries : List TrackEntry) : List TrackEntry :=
  (entries.filter fun e => decide (e.ctx ≠ c) || decide (e.state ≠ .capturing) || e.pos.isSome).map fun e =>
    if mode = .restore ∧ e.ctx = c ∧ e.state = .logged then { e with state := .restoring } else e

/-- What the end of QUIESCE leaves, from blocks b, in state t with the rollback record r (R113, R114, R117): in mode
RETIRE_ONLY phase RETIRE; in mode RESTORE phase RETIRE when every entry left is RESTORED, otherwise phase RESTORE, with
a slot and the old data for each staged record, and RESTORE_READs of the data slots of the RESTORING lines, 8 slots at
most. Entry to phase RETIRE asks for the RETIRE marker, after the slots of the captures removed are released. -/
def settles (act : Image) (b : Blocks) (c : CtxId) (mode : RollbackMode) (r : Rollback) (t : State) : Prop :=
  let left := settledTrack c mode b.track
  let lost := b.track.filter fun e => decide (e.ctx = c) && decide (e.state = .capturing) && e.pos.isNone
  t.blocks.track = left
    ∧ (r.phase = .retire → ∀ n, (b.ctx c).epoch = some n → markerAsked act
      (b.modJournal fun j => { j with reserved := j.reserved - 2 * lost.length }) .retire c n t)
    ∧ (mode = .retireOnly → r.phase = .retire ∧ r.slots = [])
    ∧ (mode = .restore → (∀ e ∈ left, e.ctx = c → e.state = .restored) → r.phase = .retire ∧ r.slots = [])
    ∧ (mode = .restore → (∃ e ∈ left, e.ctx = c ∧ e.state ≠ .restored) → r.phase = .restore
      ∧ (∀ e ∈ left, e.ctx = c → e.state = .capturing → ∀ p, e.pos = some p →
        ⟨e.line, p, stagedData b.journal e.capture, .idle⟩ ∈ r.slots)
      ∧ (∀ e ∈ left, e.ctx = c → e.state = .restoring → e.pos.isSome = true →
        (∃ x ∈ r.slots, x.line = e.line) ∨ 8 ≤ r.slots.length)
      ∧ ∀ x ∈ r.slots, x.op = .read →
        inPort t.blocks.mem (.lineRead (slotLine act (x.pos.advance act.ringN 1).idx)) (.restoreRead c x.line) = true
        ∧ ∃ e ∈ left, e.ctx = c ∧ e.line = x.line ∧ e.state = .restoring ∧ e.pos = some x.pos)

/-- ABORT c and FORCE_RETIRE c by the state of context c and the journal: the rollback begins in mode RESTORE from OPEN,
DRAINING and FAULTED, or in mode RETIRE_ONLY from FAULTED; the waiters are gone, the unissued held entries of the
context are discarded, with the counts and loss flags of their contributors, and its ISSUED ones are flagged. With no
ISSUED entry and no restore operation outstanding QUIESCE ends in the same event: captures not staged are removed, and
the lines are restored, or the epoch retired with its RETIRE marker asked for. The streams that wait for the commit of a
DRAINING context are answered ABORTED. -/
def Obligations.RollbackBeginsByTheContextsState : Prop :=
  (∀ (q : Byte) (c : CtxId) (tag : StreamId → Tag) (s : State), commitsWait s c tag → s.blocks.journal.state = .ready →
    (s.blocks.ctx c).state = .draining →
    ∃ t, exec (.abort q [ctxByte c]) s = .next t ∧ t.mgmt = { s.mgmt with response := ⟨q, .started, .empty⟩ }
      ∧ (t.blocks.ctx c).state = .rollback ∧ (t.blocks.ctx c).waiters = [] ∧ (t.blocks.ctx c).mgmtWaiter = false
      ∧ waitersTold s c tag .aborted t)
  ∧ ∀ (q : Byte) (c : CtxId) (s : State), alone s = true →
    let abort := Instr.abort q [ctxByte c]
    let force := Instr.forceRetire q [ctxByte c]
    let x := s.blocks.ctx c
    let begins := fun cmd mode => ∃ t r, exec cmd s = .next t
      ∧ t.mgmt = { s.mgmt with response := ⟨q, .started, .empty⟩ }
      ∧ t.blocks.ctx c = { x with
          state := .rollback, idleTimer := none, fault := none, waiters := [], mgmtWaiter := false, rollback := some r }
      ∧ r.mode = mode ∧ r.linesRestored = 0
      ∧ (∀ k, k ≠ c → t.blocks.ctx k = s.blocks.ctx k)
      ∧ (∀ i, t.blocks.stream i = afterDiscard i
        (s.blocks.held.entries.filter fun h => decide (h.ctx = c) && decide (h.state ≠ .issued)) (s.blocks.stream i))
      ∧ (quiescent s.blocks c → settles s.mgmt.active s.blocks c mode r t)
      ∧ (¬quiescent s.blocks c → r.phase = .quiesce ∧ r.slots = [] ∧ t.blocks.track = s.blocks.track)
      ∧ (∀ e ∈ t.blocks.held.entries, e.ctx = c → e.state = .issued ∧ e.loss = true)
      ∧ (t.blocks.held.entries.filter fun e => decide (e.ctx ≠ c)).map asIssued =
        (s.blocks.held.entries.filter fun e => decide (e.ctx ≠ c)).map asIssued
    (x.state = .idle → exec abort s = .next (respond q .ok .empty s))
    ∧ (x.state ≠ .idle → s.blocks.journal.state ≠ .ready → exec abort s = .next (respond q .refusedState .empty s))
    ∧ (s.blocks.journal.state = .ready → x.state = .marking → exec abort s = .next (respond q .tooLate .empty s))
    ∧ (s.blocks.journal.state = .ready → x.state = .rollback → exec abort s = .next (respond q .busy .empty s))
    ∧ (s.blocks.journal.state = .ready → x.state = .opened ∨ x.state = .draining ∨ x.state = .faulted →
      begins abort .restore)
    ∧ (s.blocks.journal.state = .ready → x.state = .faulted → begins force .retireOnly)
    ∧ (s.blocks.journal.state ≠ .ready ∨ x.state ≠ .faulted → exec force s = .next (respond q .refusedState .empty s))

/-- CLEAR_FAULT c returns a context whose capture read or release write failed to OPEN, with the same epoch, entries and
counts, and starts its idle timer; otherwise it is REFUSED_STATE and changes nothing. -/
def Obligations.ClearFaultReturnsTheContextToOpen : Prop :=
  ∀ (q : Byte) (c : CtxId) (s : State), calm s = true →
    let x := s.blocks.ctx c
    let may := s.blocks.journal.state = .ready ∧ x.state = .faulted
      ∧ ∃ r, x.fault = some r ∧ (r.kind = .captureReadFailed ∨ r.kind = .releaseWriteFailed)
    (may → exec (.clearFault q [ctxByte c]) s = .next (respond q .ok .empty
      (after s (s.blocks.modCtx c fun y =>
        { y with state := .opened, fault := none, idleTimer := timerAfterAcceptance s c }))))
    ∧ (¬may → exec (.clearFault q [ctxByte c]) s = .next (respond q .refusedState .empty s))

/-- The outstanding restore write of an operation as a detached write, with no contributors (R123). -/
def restoreDetached (o : Outstanding) : Option Detached :=
  match o.owner, o.op with
  | .restoreWrite _ l, .lineWrite _ m d => some ⟨l, m, d, []⟩
  | _, _ => none

/-- FORMAT: refused by the state, INVALID without a ring, and otherwise every epoch ends without a marker, the table,
the held entries and the ring are emptied, the format count rises, and copy A is written, at once or after an anchor
write that is still outstanding. ISSUED entries and outstanding restore writes become detached writes, to which their
LINE_WRITEs then belong; an outstanding restore read is dropped. The other held entries are discarded, and their
contributors' writes end with loss CONTEXT_FAULTED. -/
def Obligations.FormatLaysDownAnEmptyRing : Prop :=
  ∀ (q : Byte) (s : State), s.pins.resetLow = false → s.blocks.journal.notice = false →
    let allowed := s.blocks.journal.state = .unformatted ∨ s.blocks.journal.state = .failed
      ∨ (s.blocks.journal.state = .ready ∧ ∀ c, (s.blocks.ctx c).state = .idle)
    (¬allowed → exec (.format q []) s = .next (respond q .refusedState .empty s))
    ∧ (allowed → s.mgmt.active.journal.ringSize = 0 →
      exec (.format q []) s = .next (respond q .invalid (.invalidItem 0x30#8) s))
    ∧ (allowed → s.mgmt.active.journal.ringSize ≠ 0 → ∃ t, exec (.format q []) s = .next t
      ∧ t.mgmt = { s.mgmt with response := ⟨q, .started, .empty⟩ }
      ∧ t.blocks.journal.state = .formatting ∧ t.blocks.journal.reason = none
      ∧ t.blocks.journal.tail = ⟨0, 0⟩ ∧ t.blocks.journal.durable = ⟨0, 0⟩ ∧ t.blocks.journal.head = ⟨0, 0⟩
      ∧ t.blocks.journal.anchored = ⟨0, 0⟩ ∧ t.blocks.journal.reserved = 0 ∧ t.blocks.journal.live = []
      ∧ t.blocks.journal.staging = [] ∧ t.blocks.journal.demands = [] ∧ t.blocks.journal.pause = false
      ∧ t.blocks.journal.anchor.formatCount = s.blocks.journal.anchor.formatCount + 1
      ∧ t.blocks.track = [] ∧ t.blocks.held.entries = [] ∧ t.blocks.epochs.counter = 1
      ∧ (∀ c, t.blocks.ctx c = { Context.reset with abortOutcome := (s.blocks.ctx c).abortOutcome })
      ∧ t.blocks.held.detached = s.blocks.held.detached
        ++ (s.blocks.held.entries.filter fun h => decide (h.state = .issued)).map
          (fun h => ⟨h.line, h.mask, h.data, h.contributors⟩) ++ s.blocks.mem.ops.filterMap restoreDetached
      ∧ (∀ (k : SlotNo) (o : Outstanding), s.blocks.mem.slots[k] = some o →
        (∀ l, o.owner = .release l ∨ (∃ c, o.owner = .restoreWrite c l) →
          t.blocks.mem.slots[k] = some { o with owner := .detached l })
        ∧ (∀ c l, o.owner = .restoreRead c l → t.blocks.mem.slots[k] = some { o with owner := .dropped }))
      ∧ (alone s = true → ∀ i, t.blocks.stream i = afterDiscard i
        (s.blocks.held.entries.filter fun h => decide (h.state ≠ .issued)) (s.blocks.stream i))
      ∧ (anchorOutstanding s.blocks = true → t.blocks.journal.formatWaits = true)
      ∧ (anchorOutstanding s.blocks = false → inPort t.blocks.mem
        (.anchorWrite (anchorLine s.mgmt.active .a) (buildAnchor
          ⟨1, 0, 0, 1, s.mgmt.active.journal.ringSize, s.blocks.journal.anchor.formatCount + 1⟩)) (.anchor .formatA) = true))

/-! ## Resets and PFAIL -/

/-- What both resets leave in the blocks (R40, R59, R86, R103, R149, R153, R154, R172, R173): records at their reset
values, the restart indication sent, no recovery read when there is no ring, and both anchor copies read when there is
one and PFAIL is not asserted. -/
def resetLeaves (s t : State) (mask : BitVec 18) : Prop :=
  (∀ c, t.blocks.ctx c = Context.reset) ∧ t.blocks.epochs.counter = 1 ∧ t.blocks.track = []
    ∧ t.blocks.held = ⟨[], [], []⟩
    ∧ (∀ i, t.blocks.stream i = { StreamRec.reset with sent := (s.blocks.stream i).sent ++ [.restart] })
    ∧ t.blocks.events.mask = mask ∧ t.blocks.events.lastRefusal = none ∧ t.blocks.events.lastPortError = none
    ∧ t.blocks.events.pending = (if t.mgmt.active.journal.ringSize = 0 then 1#18 <<< EventFlag.recoveryDone.bit else 0)
    ∧ t.blocks.journal.tail = ⟨0, 0⟩ ∧ t.blocks.journal.live = [] ∧ t.blocks.journal.staging = []
    ∧ t.blocks.journal.notice = s.pins.pfail
    ∧ (s.pins.pfail = false → t.blocks.journal.state =
        if t.mgmt.active.journal.ringSize = 0 then .unformatted else .recovering)
    ∧ (t.mgmt.active.journal.ringSize ≠ 0 → s.pins.pfail = false →
        inPort t.blocks.mem (.lineRead (anchorLine t.mgmt.active .a)) (.recoveryRead (.anchor .a)) = true
        ∧ inPort t.blocks.mem (.lineRead (anchorLine t.mgmt.active .b)) (.recoveryRead (.anchor .b)) = true)

/-- WARM_RESET: answered OK; the images, the mask and the store are kept, operations in flight lose their owners, and
recovery begins when there is a ring and PFAIL is not asserted. -/
def Obligations.WarmResetKeepsConfigurationAndStartsRecovery : Prop :=
  ∀ (q : Byte) (s : State), s.pins.resetLow = false →
    ∃ t, exec (.warmReset q []) s = .next t ∧ t.mgmt = { s.mgmt with response := ⟨q, .ok, .empty⟩ } ∧ t.pins = s.pins
      ∧ resetLeaves s t s.blocks.events.mask
      ∧ ∀ (k : SlotNo) (o : Outstanding), s.blocks.mem.slots[k] = some o →
        t.blocks.mem.slots[k] = some { o with owner := .orphan }

/-- COLD_RESET: the images come from the current bank or the defaults, the mask and the response are reset, programming
is abandoned, and recovery begins when there is a ring and PFAIL is not asserted; without a ring no operation is left.
-/
def Obligations.ColdResetLoadsTheStoredImage : Prop :=
  ∀ (p : Bool) (s : State), ∃ t, exec (.coldReset p) s = .next t ∧ t.pins = { s.pins with resetLow := false }
    ∧ t.mgmt.response = ⟨0, .noResponse, .empty⟩ ∧ t.mgmt.programming = none ∧ t.mgmt.outcome = none
    ∧ t.mgmt.staged = t.mgmt.active
    ∧ (match t.mgmt.current with
        | some k => t.mgmt.banks[k].valid = true
        | none => ∀ k : Fin 2, t.mgmt.banks[k].valid = false)
    ∧ t.mgmt.active = storedOf t.mgmt
    ∧ (s.mgmt.programming = none → t.mgmt.banks = s.mgmt.banks)
    ∧ resetLeaves s t 0
    ∧ (t.mgmt.active.journal.ringSize = 0 → ∀ k : SlotNo, t.blocks.mem.slots[k] = none
        ∧ t.blocks.mem.issue[k] = if p then 0 else s.blocks.mem.issue[k])

/-- RESET_N low: the pin is all that changes, and from then on nothing is taken but the end of the reset and the levels
of the pins; IRQ_N and SAFE_OUT are inactive. -/
def Obligations.NothingIsTakenWhileResetIsLow : Prop :=
  (∀ s : State, exec .resetNLow s = .next { s with pins := { s.pins with resetLow := true } })
    ∧ (∀ (c : Instr) (s : State), s.pins.resetLow = true → (∀ p, c ≠ .coldReset p) → (∀ l, c ≠ .powerFailNotice l) →
      exec c s = .next s)
    ∧ (∀ (l : Bool) (s : State), s.pins.resetLow = true →
      exec (.powerFailNotice l) s = .next { s with pins := { s.pins with pfail := l } })
    ∧ ∀ s : State, s.pins.resetLow = true → irqLow s = false ∧ safeOut s = false

/-- The power-fail notice: every request is answered POWER, oldest first, with the barrier records kept; unissued held
entries and waiting operations are gone, idle timers stop, and the journal is in SAFE at once when no operation is
outstanding. A recovery in progress keeps its state, and READ_STATUS goes on to report where it stands. PFAIL found
inactive has no effect. -/
def Obligations.PowerFailNoticeAnswersEveryRequest : Prop :=
  ∀ s : State, s.pins.resetLow = false → s.blocks.journal.notice = false → s.blocks.journal.state ≠ .safe →
    (atRest s = true → exec (.powerFailNotice false) s = .next { s with pins := { s.pins with pfail := false } })
    ∧ ∃ t, exec (.powerFailNotice true) s = .next t ∧ t.mgmt = s.mgmt
      ∧ t.blocks.journal.notice = true ∧ t.blocks.mem.waiting = [] ∧ t.blocks.mem.slots = s.blocks.mem.slots
      ∧ (∀ i, (t.blocks.stream i).queue = [] ∧ (t.blocks.stream i).phase = .idle
        ∧ (t.blocks.stream i).conflict = none ∧ (t.blocks.stream i).captureStall = none
        ∧ (t.blocks.stream i).loss = (s.blocks.stream i).loss
        ∧ (t.blocks.stream i).sent = (s.blocks.stream i).sent
          ++ (s.blocks.stream i).queue.map fun q => responseTo q .power none)
      ∧ t.blocks.held.entries = s.blocks.held.entries.filter (fun e => decide (e.state = .issued))
      ∧ (∀ c, (t.blocks.ctx c).idleTimer = none ∧ (t.blocks.ctx c).waiters = []
        ∧ (t.blocks.ctx c).epoch = (s.blocks.ctx c).epoch ∧ (t.blocks.ctx c).mgmtWaiter = (s.blocks.ctx c).mgmtWaiter)
      ∧ t.blocks.journal.state = (if s.blocks.mem.quiet then .safe else s.blocks.journal.state)
      ∧ t.blocks.recovery = { s.blocks.recovery with noticed := decide (s.blocks.journal.state = .recovering) }
      ∧ (s.blocks.journal.state = .recovering → (statusPayload t).recoveryAt =
        some (s.blocks.recovery.phase, s.blocks.recovery.pos, s.blocks.recovery.passed))

/-! ## Expiries -/

/-- An idle timer that expires in OPEN sets the management waiter and begins the commit, as an upstream COMMIT does;
elsewhere, or stopped, its expiry has no effect. That the clock then stands at the deadline or later, and that an expiry
with no timer running has no effect, are the model's choices (log 1). -/
def Obligations.IdleExpiryBeginsTheCommit : Prop :=
  ∀ (c : CtxId) (s : State),
    (atRest s = true → (s.blocks.ctx c).state ≠ .opened ∨ (s.blocks.ctx c).idleTimer = none →
      exec (.idleTimerExpiry c) s = .next s)
    ∧ ∀ at', alone s = true → (s.blocks.ctx c).state = .opened → (s.blocks.ctx c).idleTimer = some at' →
      ∃ t, exec (.idleTimerExpiry c) s = .next t ∧ t.mgmt = s.mgmt
        ∧ t.blocks.ctx c = { s.blocks.ctx c with
            state := if mustDrain s.blocks c then .draining else .marking
            idleTimer := none
            mgmtWaiter := true }
        ∧ (∀ k, k ≠ c → t.blocks.ctx k = s.blocks.ctx k) ∧ t.blocks.track = s.blocks.track
        ∧ t.blocks.req = s.blocks.req ∧ t.blocks.clock = max s.blocks.clock at'
        ∧ (s.blocks.journal.state = .ready → commitBegun s c t)

/-- The group timer becomes due when it expires, and its burst is handed over at once when no burst is in flight: the
unburst slots from the oldest, up to 16, stopping before slot 0. That the clock then stands at the deadline or later,
and that the expiry of a stopped timer has no effect, are the model's choices (log 1); that a burst left to end by
FORMAT counts as in flight is its reading (log 26). -/
def Obligations.GroupExpiryIssuesTheBurst : Prop :=
  ∀ s : State, atRest s = true →
    ((∀ at', s.blocks.journal.groupTimer ≠ .running at') → exec .groupTimerExpiry s = .next s)
    ∧ ∀ at', s.blocks.journal.groupTimer = .running at' → s.blocks.journal.state = .ready →
      ∃ t, exec .groupTimerExpiry s = .next t ∧ t.mgmt = s.mgmt ∧ t.blocks.req = s.blocks.req
        ∧ t.blocks.epochs = s.blocks.epochs ∧ t.blocks.track = s.blocks.track
        ∧ t.blocks.journal.tail = s.blocks.journal.tail ∧ t.blocks.journal.durable = s.blocks.journal.durable
        ∧ t.blocks.clock = max s.blocks.clock at'
        ∧ (burstBusy s.blocks = true ∨ s.blocks.journal.unburst = [] →
          t.blocks.journal = { s.blocks.journal with groupTimer := .due })
        ∧ ∀ first rest, burstBusy s.blocks = false → s.blocks.journal.unburst = first :: rest →
          let taken := first :: (rest.takeWhile fun x => decide (x.pos.idx ≠ 0)).take 15
          inPort t.blocks.mem (.slotBurst (slotLine s.mgmt.active first.pos.idx) (taken.map (·.bytes))) .burst = true
            ∧ t.blocks.journal.groupTimer =
              (if taken.length = (first :: rest).length then .stopped else .due)

/-- A conflict wait or a capture stall whose deadline expires is answered CONFLICT_TIMEOUT or JOURNAL_FULL, its records
go, and the refusal is reported; the requests behind it go on. Without its record an expiry has no effect. That the
clock then stands at the deadline or later, and that an expiry with no record has no effect, are the model's choices
(log 1). -/
def Obligations.DeadlinesRefuseTheStalledWrite : Prop :=
  ∀ (i : StreamId) (tag : Tag) (a : Addr) (m : ByteMask) (d : LineData) (s : State), atRest s = true →
    let r := s.blocks.stream i
    let refused := fun (rest : List Request) (st : UpStatus) (line : Addr) (reason : RefusalReason) (at' : Nat) =>
      ({ s.blocks with clock := max s.blocks.clock at' }.modStream i fun r => { r with
          queue := rest, phase := if rest.isEmpty then .idle else .fresh, conflict := none, captureStall := none,
          sent := r.sent ++ [Response.ack tag st] }).modEvents
        fun e => { e with
          pending := e.pending ||| (1#18 <<< EventFlag.writeRefused.bit), lastRefusal := some ⟨i, line, reason⟩ }
    (r.phase ≠ .stalled .conflict ∨ r.conflict = none → exec (.conflictWaitExpiry i) s = .next s)
    ∧ (∀ w rest, r.phase = .stalled .conflict → r.conflict = some w → r.queue = ⟨tag, .write a m d⟩ :: rest →
      exec (.conflictWaitExpiry i) s = .next (after s (finishEvent s.mgmt.active
        (refused rest .conflictTimeout w.line .conflictTimeout w.deadline)))
      ∧ (rest = [] → exec (.conflictWaitExpiry i) s =
        .next (after s (refused [] .conflictTimeout w.line .conflictTimeout w.deadline))))
    ∧ (r.phase ≠ .stalled .capture ∨ r.captureStall = none → exec (.captureStallExpiry i) s = .next s)
    ∧ ∀ at' rest, r.phase = .stalled .capture → r.captureStall = some at' → r.queue = ⟨tag, .write a m d⟩ :: rest →
      exec (.captureStallExpiry i) s = .next (after s (finishEvent s.mgmt.active
        (refused rest .journalFull (lineOf a) .journalFull at')))
      ∧ (rest = [] → exec (.captureStallExpiry i) s =
        .next (after s (refused [] .journalFull (lineOf a) .journalFull at')))

/-! ## Completions and timeouts -/

/-- Whether the kind of a completion fits an operation: DATA a LINE_READ, PERSISTED a write, ERROR every operation
(R128). -/
def fits : MemOp → Completion → Bool
  | _, .error => true
  | .lineRead _, .data _ => true
  | .lineRead _, .persisted => false
  | _, .persisted => true
  | _, .data _ => false

/-- R128: a completion matches the operation of its slot when the slot is occupied and the issue numbers are equal; one
that matches none is discarded without effect, and one whose kind does not fit is taken as an ERROR. -/
def Obligations.CompletionsAreMatchedByTheirIdentifier : Prop :=
  ∀ (c : Instr) (id : OpId) (k : Completion) (s : State), completionOf c = some (id, k) → s.pins.resetLow = false →
    (∀ o, s.blocks.mem.matching id = some o ↔
      s.blocks.mem.slots[id.slot] = some o ∧ s.blocks.mem.issue[id.slot] = id.issue)
    ∧ (s.blocks.mem.matching id = none → exec c s = .next s)
    ∧ ∀ o, s.blocks.mem.matching id = some o →
      (fits o.op k = true → ∃ e, exec c s = .next (s.event fun b => handBack s.mgmt.active o e (freeSlot id.slot b))
        ∧ e = (match k with
          | .data d => .data d
          | .persisted => .persisted
          | .error => .failed .error))
      ∧ (fits o.op k = false → ∀ c', completionOf c' = some (id, .error) → exec c s = exec c' s)

/-- The end of a pass-through read answers its READ: with the data, the held bytes laid over it when the window was
JOURNALED, or MEMORY when it ends by ERROR or its timeout; its overlay record goes, and the requests behind it go on.
That the clock stands at the deadline or later after a timeout is the model's choice (log 1). -/
def Obligations.PassThroughReadEndsWithItsAnswer : Prop :=
  ∀ (i : StreamId) (j : Bool) (tag : Tag) (a l : Addr) (d : LineData) (id : OpId) (o : Outstanding) (s : State),
    atRest s = true → s.blocks.mem.matching id = some o → o.op = .lineRead l → o.owner = .passRead i j →
    (s.blocks.stream i).phase = .reading → ∀ rest, (s.blocks.stream i).queue = ⟨tag, .read a⟩ :: rest →
    let ended := fun (now : Nat) (x : Response) =>
      (({ s.blocks with clock := now }.modStream i fun r => { r with
          queue := rest, phase := if rest.isEmpty then .idle else .fresh, conflict := none, captureStall := none,
          sent := r.sent ++ [x] }).modHeld fun h =>
        if j then { h with overlays := h.overlays.filter fun v => decide (v.stream ≠ i) } else h)
    let ends := fun (cmd : Instr) (now : Nat) (x : Response) =>
      exec cmd s = .next (after s (finishEvent s.mgmt.active (freeSlot id.slot (ended now x))))
      ∧ (rest = [] → ∃ t, exec cmd s = .next t ∧ blocksBecome s (ended now x) t)
    ends (.passThroughReadDone id (.data d)) s.blocks.clock
        (.data tag .okay (some (if j then s.blocks.held.journaledData i l d else d)))
    ∧ ends (.passThroughReadDone id .error) s.blocks.clock (.data tag .memory none)
    ∧ ends (.downstreamTimeout id.slot) (max s.blocks.clock o.deadline) (.data tag .memory none)

/-- The end of a direct write settles it: the outstanding-write count falls, and a failure sets the loss flag; a waiting
BARRIER whose count reaches 0 is answered in the same event, and one whose count does not waits on; a WRITE held at a
count of 65,535 is handed on, here to a DIRECT window. That the clock stands at the deadline or later after a timeout is
the model's choice (log 1). -/
def Obligations.DirectWriteEndsSettleTheCount : Prop :=
  ∀ (i : StreamId) (tag : Tag) (l : Addr) (m : ByteMask) (d : LineData) (id : OpId) (o : Outstanding) (s : State),
    atRest s = true → s.blocks.mem.matching id = some o → o.op = .lineWrite l m d → o.owner = .directWrite i →
    let r := s.blocks.stream i
    let settled := fun (now : Nat) (reason : Option LossReason) =>
      { s.blocks with clock := now }.modStream i fun r =>
        { r with outstanding := r.outstanding - 1, loss := r.loss.or reason }
    let answered := fun (now : Nat) (loss : Option LossReason) =>
      ({ s.blocks with clock := now }.modStream i fun r => { r with
          queue := [], phase := .idle, conflict := none, captureStall := none, outstanding := 0, loss := none,
          sent := r.sent ++ [Response.done tag (barrierStatus loss)] }).modJournal fun j =>
        { j with demands := j.demands.filter fun x => decide (x.source ≠ DemandSource.barrier i) }
    let handedOn := fun (cmd : Instr) (now : Nat) (reason : Option LossReason) => ∀ a m' d' w,
      r.phase = .countHold → r.outstanding = 65535 → r.queue = [⟨tag, .write a m' d'⟩] → m' ≠ 0 →
      lookup s.mgmt.active (lineOf a) = .window w → w.kind = .direct → w.writers.getLsbD i.val = true →
      ∃ t, exec cmd s = .next t ∧ blocksBecome s ({ s.blocks with clock := now }.modStream i fun r => { r with
          queue := [], phase := .idle, conflict := none, captureStall := none, loss := r.loss.or reason,
          sent := r.sent ++ [Response.ack tag .okay] }) t
        ∧ inPort t.blocks.mem (.lineWrite (lineOf a) m' d') (.directWrite i) = true
    ((∀ ls, r.phase = .barrier ls → 2 ≤ r.outstanding) → r.phase ≠ .countHold →
      (∃ t, exec (.directWriteDone id .persisted) s = .next t ∧ blocksBecome s (settled s.blocks.clock none) t)
      ∧ (∃ t, exec (.directWriteDone id .error) s = .next t ∧ blocksBecome s (settled s.blocks.clock (some .memory)) t)
      ∧ ∃ t, exec (.downstreamTimeout id.slot) s = .next t ∧
        blocksBecome s (settled (max s.blocks.clock o.deadline) (some .memory)) t)
    ∧ (∀ ls, r.phase = .barrier ls → r.queue = [⟨tag, .barrier⟩] → r.outstanding = 1 →
      (∃ t, exec (.directWriteDone id .persisted) s = .next t ∧ blocksBecome s (answered s.blocks.clock r.loss) t)
      ∧ (∃ t, exec (.directWriteDone id .error) s = .next t ∧
        blocksBecome s (answered s.blocks.clock (r.loss.or (some .memory))) t)
      ∧ ∃ t, exec (.downstreamTimeout id.slot) s = .next t ∧
        blocksBecome s (answered (max s.blocks.clock o.deadline) (r.loss.or (some .memory))) t)
    ∧ handedOn (.directWriteDone id .persisted) s.blocks.clock none
    ∧ handedOn (.directWriteDone id .error) s.blocks.clock (some .memory)
    ∧ handedOn (.downstreamTimeout id.slot) (max s.blocks.clock o.deadline) (some .memory)

/-- The held entries that a failed capture of entry e discards first: those of its line that are not ISSUED (R50). -/
def onLine (b : Blocks) (e : TrackEntry) : List HeldEntry :=
  b.held.entries.filter fun h => decide (h.line = e.line) && decide (h.state ≠ .issued)

/-- The held entries that its context's entry to FAULTED discards then: the others that are not ISSUED (R34). -/
def offLine (b : Blocks) (e : TrackEntry) : List HeldEntry :=
  b.held.entries.filter fun h => decide (h.ctx = e.ctx) && decide (h.line ≠ e.line) && decide (h.state ≠ .issued)

/-- A capture read that returns data stages the UNDO record of its entry at the tail: header and data slot, the record
position, the undo record count, the reservation; outside READY its data is discarded and its promise given up. One that
fails removes the entry, releases its two slots and faults its context: the held writes of the line are lost with
MEMORY, the other unissued ones of the context with CONTEXT_FAULTED, and the streams that wait for its commit are told.
The laws that every step keeps are premises. -/
def Obligations.CaptureReadStagesTheRecord : Prop :=
  ∀ (n : Nat) (l : Addr) (d : LineData) (e : TrackEntry) (id : OpId) (o : Outstanding) (s : State),
    s.blocks.mem.matching id = some o → o.op = .lineRead l → o.owner = .capture n → captureEntry s.blocks n = some e →
    ctxsLaw s.blocks = true → trackLaw s.mgmt.active s.blocks = true → serviceLaw s.mgmt.active s.blocks = true →
    let N := s.mgmt.active.ringN
    let j := s.blocks.journal
    let p := j.tail
    let x := s.blocks.ctx e.ctx
    let faults := fun (t : State) => t.mgmt = s.mgmt
      ∧ t.blocks.track = s.blocks.track.filter (fun y => decide (y.capture ≠ n))
      ∧ t.blocks.ctx e.ctx = { x with
          state := .faulted, idleTimer := none, waiters := [], mgmtWaiter := false
          fault := some ⟨.captureReadFailed, e.epoch, some e.line, some e.stream, some .error⟩ }
      ∧ (∀ k, k ≠ e.ctx → t.blocks.ctx k = s.blocks.ctx k)
      ∧ t.blocks.events.isPending (.contextFault e.ctx) = true
      ∧ (j.state = .ready → t.blocks.journal.pause = pauseNow s.mgmt.active { j with reserved := j.reserved - 2 })
      ∧ ∀ h ∈ t.blocks.held.entries, h.ctx = e.ctx → h.state = .issued
    (alone s = true → j.state = .ready → ∃ t, exec (.captureReadDone id (.data d)) s = .next t ∧ t.mgmt = s.mgmt
      ∧ t.blocks.journal.tail = p.advance N 2 ∧ t.blocks.journal.durable = j.durable
      ∧ t.blocks.journal.reserved = j.reserved - 2
      ∧ t.blocks.track = s.blocks.track.map (fun y => if y.capture = n then { y with pos := some p } else y)
      ∧ t.blocks.ctx e.ctx = { x with undoCount := x.undoCount + 1 }
      ∧ (∀ k, k ≠ e.ctx → t.blocks.ctx k = s.blocks.ctx k) ∧ t.blocks.req = s.blocks.req
      ∧ (∃ h ∈ t.blocks.journal.staging, h.pos = p ∧ h.bytes =
          buildHeader j.anchor.formatCount .undo e.ctx p.seq e.epoch e.line (some d))
      ∧ ∃ h ∈ t.blocks.journal.staging, h.pos = p.advance N 1 ∧ h.bytes = d)
    ∧ (alone s = true → j.state ≠ .ready → ∃ t, exec (.captureReadDone id (.data d)) s = .next t
      ∧ blocksBecome s (s.blocks.modJournal fun j => { j with promises := j.promises.erase n }) t)
    ∧ (alone s = true → x.state = .opened ∨ x.state = .draining →
      ∃ t, exec (.captureReadDone id .error) s = .next t ∧ faults t
        ∧ ∀ i, t.blocks.stream i =
          afterDiscard i (offLine s.blocks e) (afterLoss .memory i (onLine s.blocks e) (s.blocks.stream i)))
    ∧ ∀ tag, commitsWait s e.ctx tag → x.state = .draining →
      ∃ t, exec (.captureReadDone id .error) s = .next t ∧ faults t ∧ waitersTold s e.ctx tag .contextFaulted t

/-- The one ISSUED entry of a line. -/
def issuedAlone (s : State) (l : Addr) (e : HeldEntry) : Prop :=
  s.blocks.held.entries.filter (fun x => decide (x.line = l) && decide (x.state = .issued)) = [e]

/-- A release that persists takes its entry out of the queue, settles its contributors' writes and copies its bytes into
the overlay records of the READs of its line; a DRAINING context with no other held entry and nothing CAPTURING goes to
MARKING in the same event, with its marker asked for. One that fails takes its entry out too, as a loss of reason
MEMORY, and faults an OPEN or DRAINING context: its unissued entries are lost with CONTEXT_FAULTED, and the streams that
wait for its commit are told. -/
def Obligations.ReleaseWriteEndsItsEntry : Prop :=
  (∀ (l : Addr) (e : HeldEntry) (id : OpId) (o : Outstanding) (s : State), onlyReads s →
    s.blocks.mem.matching id = some o → o.op.writeLine = some l → o.owner = .release l → issuedAlone s l e →
    (∃ t, exec (.releaseWriteDone id .persisted) s = .next t
      ∧ t.blocks.held.overlays = overlaid l e.mask e.data s.blocks.held.overlays
      ∧ ∀ i, (t.blocks.stream i).phase = (s.blocks.stream i).phase)
    ∧ ∃ t, exec (.releaseWriteDone id .error) s = .next t ∧ t.blocks.held.overlays = s.blocks.held.overlays)
  ∧ (∀ (l : Addr) (e : HeldEntry) (n : Epoch) (tag : StreamId → Tag) (id : OpId) (o : Outstanding) (s : State),
    commitsWait s e.ctx tag → s.blocks.mem.matching id = some o → o.op.writeLine = some l → o.owner = .release l →
    issuedAlone s l e → (s.blocks.ctx e.ctx).state = .draining → (s.blocks.ctx e.ctx).epoch = some n →
    ∃ t, exec (.releaseWriteDone id .error) s = .next t ∧ (t.blocks.ctx e.ctx).state = .faulted
      ∧ (t.blocks.ctx e.ctx).fault = some ⟨.releaseWriteFailed, n, some l, some e.stream, some .error⟩
      ∧ waitersTold s e.ctx tag .contextFaulted t)
  ∧ ∀ (l : Addr) (e : HeldEntry) (id : OpId) (o : Outstanding) (s : State), alone s = true →
    s.blocks.mem.matching id = some o → o.op.writeLine = some l → o.owner = .release l → issuedAlone s l e →
    (e.contributors.map (·.1)).Nodup →
    let x := s.blocks.ctx e.ctx
    let drained := decide (x.state = .draining) && decide (s.blocks.heldCount e.ctx = 1) && !s.blocks.capturing e.ctx
    (x.state ≠ .rollback → ∃ t, exec (.releaseWriteDone id .persisted) s = .next t ∧ t.mgmt = s.mgmt
      ∧ t.blocks.held.entries.map asIssued =
        (s.blocks.held.entries.filter fun x => decide (x.line ≠ l) || decide (x.state ≠ .issued)).map asIssued
      ∧ (∀ i n, (i, n) ∈ e.contributors →
        (t.blocks.stream i).outstanding = (s.blocks.stream i).outstanding - n
        ∧ (t.blocks.stream i).loss = (s.blocks.stream i).loss.or (if e.loss then some .contextFaulted else none))
      ∧ (∀ i, i ∉ e.contributors.map (·.1) → t.blocks.stream i = s.blocks.stream i)
      ∧ t.blocks.held.overlays = s.blocks.held.overlays.map (fun v =>
        if v.line = l then { v with data := overlay v.data e.mask e.data, mask := v.mask ||| e.mask } else v)
      ∧ t.blocks.ctx e.ctx = (if drained then { x with state := .marking } else x)
      ∧ (∀ k, k ≠ e.ctx → t.blocks.ctx k = s.blocks.ctx k)
      ∧ t.blocks.epochs.counter = s.blocks.epochs.counter ∧ t.blocks.track = s.blocks.track
      ∧ (drained = true → s.blocks.journal.state = .ready → ∀ n, x.epoch = some n →
        markerAsked s.mgmt.active s.blocks .commit e.ctx n t))
    ∧ ∀ n, x.epoch = some n → x.state = .opened ∨ x.state = .draining →
      ∃ t, exec (.releaseWriteDone id .error) s = .next t ∧ t.mgmt = s.mgmt
      ∧ t.blocks.ctx e.ctx = { x with
          state := .faulted, idleTimer := none, waiters := [], mgmtWaiter := false
          fault := some ⟨.releaseWriteFailed, n, some l, some e.stream, some .error⟩ }
      ∧ t.blocks.events.isPending (.contextFault e.ctx) = true
      ∧ (∀ h ∈ t.blocks.held.entries, h.ctx = e.ctx → h.state = .issued)
      ∧ (∀ c ∈ e.contributors, (t.blocks.stream c.1).loss = (s.blocks.stream c.1).loss.or (some .memory))
      ∧ t.blocks.held.entries.map asIssued = (s.blocks.held.entries.filter fun h => if h.state = .issued
        then decide (h.line ≠ l) else decide (h.ctx ≠ e.ctx)).map asIssued
      ∧ ∀ i, t.blocks.stream i = afterDiscard i
        (s.blocks.held.entries.filter fun h => decide (h.ctx = e.ctx) && decide (h.state ≠ .issued))
        (afterLoss .memory i [e] (s.blocks.stream i))

/-- The end of a detached write removes it, settles its contributors' writes and, when it has persisted, copies its
bytes into the overlay records of the READs of its line; a failure is a loss of reason MEMORY. -/
def Obligations.DetachedWriteEndsItsRecord : Prop :=
  (∀ (l : Addr) (w : Detached) (id : OpId) (o : Outstanding) (s : State), onlyReads s →
    s.blocks.mem.matching id = some o → o.op.writeLine = some l → o.owner = .detached l →
    s.blocks.held.detached.find? (fun x => decide (x.line = l)) = some w →
    (∃ t, exec (.detachedWriteDone id .persisted) s = .next t
      ∧ t.blocks.held.overlays = overlaid l w.mask w.data s.blocks.held.overlays)
    ∧ ∃ t, exec (.detachedWriteDone id .error) s = .next t ∧ t.blocks.held.overlays = s.blocks.held.overlays)
  ∧ ∀ (l : Addr) (w : Detached) (id : OpId) (o : Outstanding) (s : State), alone s = true →
    s.blocks.mem.matching id = some o → o.op.writeLine = some l → o.owner = .detached l →
    s.blocks.held.detached.find? (fun x => decide (x.line = l)) = some w → (w.contributors.map (·.1)).Nodup →
    let settles := fun cmd (reason : Option LossReason) => ∃ t, exec cmd s = .next t ∧ t.mgmt = s.mgmt
      ∧ t.blocks.held.detached = s.blocks.held.detached.filter (fun x => decide (x.line ≠ l))
      ∧ (∀ i n, (i, n) ∈ w.contributors →
        (t.blocks.stream i).outstanding = (s.blocks.stream i).outstanding - n
        ∧ (t.blocks.stream i).loss = (s.blocks.stream i).loss.or reason)
      ∧ (∀ i, i ∉ w.contributors.map (·.1) → t.blocks.stream i = s.blocks.stream i)
      ∧ t.blocks.epochs = s.blocks.epochs ∧ t.blocks.track = s.blocks.track ∧ t.blocks.journal = s.blocks.journal
    settles (.detachedWriteDone id .persisted) none ∧ settles (.detachedWriteDone id .error) (some .memory)

/-- Stream i has one request, which is stalled on a cause, and no other stream has any. -/
def stalledAlone (s : State) (i : StreamId) (cause : StallCause) (q : Request) : Prop :=
  (s.blocks.stream i).phase = .stalled cause ∧ (s.blocks.stream i).queue = [q]
    ∧ ∀ k, k ≠ i → idleStream (s.blocks.stream k) = true

/-- A WRITE of stream i to a line of a JOURNALED window, bound to context c, that the port hands on (R10, R142). -/
def journaledWrite (s : State) (i : StreamId) (a : Addr) (m : ByteMask) (c : CtxId) : Prop :=
  m ≠ 0 ∧ (∃ w, lookup s.mgmt.active (lineOf a) = .window w ∧ w.kind = .journaled ∧ w.writers.getLsbD i.val = true)
    ∧ s.mgmt.active.bindings[i] = some c ∧ (s.blocks.stream i).outstanding < Config.outstandingLimit

/-- The slots of the burst in flight. -/
def burstOf (s : State) : List StagedSlot := s.blocks.journal.staging.filter fun x => x.inFlight

/-- A burst that persists moves the durable tail past its last slot, makes the entries whose data slots it carries
LOGGED, and takes their held entries out of WAIT_LOG; a DRAINING context left with no held entry and nothing CAPTURING
goes to MARKING in the same event, and its marker is staged or waits for a buffer slot (whether it comes before the
captures that wait is the model's choice, log 38). -/
def Obligations.BurstMakesItsRecordsDurable : Prop :=
  ∀ (last : StagedSlot) (id : OpId) (o : Outstanding) (s : State), alone s = true → s.blocks.journal.state = .ready →
    s.blocks.mem.matching id = some o → (∃ f bytes, o.op = .slotBurst f bytes) → o.owner = .burst →
    (burstOf s).getLast? = some last → (∀ x ∈ burstOf s, x.use.isMarker = false) →
    (∀ c, (s.blocks.ctx c).rollback = none) → (s.blocks.track.map (·.capture)).Nodup →
    ∃ t, exec (.slotBurstDone id .persisted) s = .next t ∧ t.mgmt = s.mgmt
      ∧ t.blocks.journal.durable = last.pos.advance s.mgmt.active.ringN 1 ∧ t.blocks.req = s.blocks.req
      ∧ (∀ c, t.blocks.ctx c =
        if (s.blocks.ctx c).state = .draining ∧ s.blocks.heldCount c = 0 ∧ t.blocks.capturing c = false then
          { s.blocks.ctx c with state := .marking }
        else s.blocks.ctx c)
      ∧ (∀ c n, (s.blocks.ctx c).state = .draining → (t.blocks.ctx c).state = .marking → (s.blocks.ctx c).epoch = some n →
        markerStands .commit c n t)
      ∧ ∀ x ∈ burstOf s, ∀ n, x.use = .undoData n → ∀ e ∈ s.blocks.track, e.capture = n → e.state = .capturing →
        { e with state := .logged } ∈ t.blocks.track ∧ ∀ h ∈ t.blocks.held.entries, h.line = e.line → h.state ≠ .waitLog

/-- A marker that becomes durable ends its epoch: the context is IDLE with its entries removed; a commit's waiters are
answered OKAY and COMMIT_DONE is raised for the management waiter, and a rollback leaves its outcome and ABORT_DONE. The
head moves to the oldest epoch still live, or to the tail, and the anchor condition is evaluated with it. A
WRITE in a conflict wait on one of its lines is classified again in the same event, and accepted as a first touch of its
own context when it passes every check. -/
def Obligations.DurableMarkerEndsTheEpoch : Prop :=
  (∀ (x : StagedSlot) (k : RecordKind) (c c' : CtxId) (n : Epoch) (i : StreamId) (tag : Tag) (a : Addr) (m : ByteMask)
    (d : LineData) (v : ConflictWait) (id : OpId) (o : Outstanding) (s : State), atRest s = true →
    s.blocks.mem.matching id = some o → (∃ f bytes, o.op = .slotBurst f bytes) → o.owner = .burst → burstOf s = [x] →
    x.use = .marker k c n → (s.blocks.ctx c).epoch = some n →
    (s.blocks.ctx c).state = .marking ∨ (s.blocks.ctx c).state = .rollback → s.blocks.journal.markerQueue = [] →
    stalledAlone s i .conflict ⟨tag, .write a m d⟩ → (s.blocks.ctx c).waiters = [] →
    (s.blocks.stream i).conflict = some v → v.line = lineOf a →
    (∃ e ∈ s.blocks.track, e.line = lineOf a) → (∀ e ∈ s.blocks.track, e.line = lineOf a → e.ctx = c) →
    reachesContext s i a m c' → c' ≠ c → s.blocks.trackedCount c' < s.mgmt.active.ctxs[c'].quota.toNat →
    s.blocks.journal.pause = false →
    slotsNeeded (s.blocks.ctx c').state ≤ s.blocks.journal.unreserved s.mgmt.active.ringN → s.blocks.held.full = false →
    s.blocks.epochs.counter ≠ lastEpoch →
    ∃ t, exec (.slotBurstDone id .persisted) s = .next t ∧ answers s t i (.ack tag .okay)
      ∧ (t.blocks.ctx c').state = .opened
      ∧ ∃ e, t.blocks.entryOf (lineOf a) = some e ∧ e.ctx = c' ∧ e.state = .capturing ∧ e.stream = i)
  ∧ ∀ (x : StagedSlot) (k : RecordKind) (c : CtxId) (n : Epoch) (tag : StreamId → Tag) (id : OpId) (o : Outstanding)
    (s : State), calm s = true → s.blocks.journal.state = .ready → s.blocks.mem.matching id = some o →
    (∃ f bytes, o.op = .slotBurst f bytes) → o.owner = .burst → burstOf s = [x] → x.use = .marker k c n →
    (s.blocks.ctx c).epoch = some n → (s.blocks.ctx c).waiters.Nodup →
    (∀ i ∈ (s.blocks.ctx c).waiters, (s.blocks.stream i).phase = .commitWaiter
      ∧ (s.blocks.stream i).queue = [⟨tag i, .commit⟩]) →
    let y := s.blocks.ctx c
    let head := (((s.blocks.journal.live.filter fun l => decide (l.epoch ≠ n)).head?.map (·.first)).getD
      s.blocks.journal.tail)
    let ends := fun (outcome : Option AbortOutcome) (flag : EventFlag) (raised : Bool) =>
      ∃ t, exec (.slotBurstDone id .persisted) s = .next t ∧ t.mgmt = s.mgmt
        ∧ t.blocks.ctx c = { Context.reset with abortOutcome := outcome }
        ∧ t.blocks.track = s.blocks.track.filter (fun e => decide (e.ctx ≠ c))
        ∧ t.blocks.journal.durable = x.pos.advance s.mgmt.active.ringN 1
        ∧ (∀ i ∈ y.waiters, (t.blocks.stream i).queue = []
          ∧ (t.blocks.stream i).sent = (s.blocks.stream i).sent ++ [.done (tag i) .okay])
        ∧ (raised = true → t.blocks.events.isPending flag = true)
        ∧ updateEvaluated s.mgmt.active { s.blocks.journal with head := head } s.blocks.epochs.counter t
    (y.state = .marking → y.rollback = none → ends y.abortOutcome .commitDone y.mgmtWaiter)
    ∧ ∀ r, y.state = .rollback → y.rollback = some r →
      ends (some (match r.mode with
        | .restore => .restored
        | .retireOnly => .forced)) .abortDone true

/-- A record burst that fails, and a second failure of an anchor write, take the journal to FAILED with their reason;
the durable tail stays, CAPTURING entries stay, and every live context is FAULTED with JOURNAL_FAILED and the downstream
status, and the streams that wait for a commit are told. A stalled journaled WRITE is classified again in the same event
and refused JOURNAL_UNAVAILABLE, one in a conflict wait too (the model's choice between R12 and R52, log 30). -/
def Obligations.JournalWriteFailureFailsTheJournal : Prop :=
  ∀ (cmd : Instr) (st : DownStatus) (reason : JournalReason) (id : OpId) (o : Outstanding) (s : State),
    s.pins.resetLow = false → s.blocks.journal.notice = false → s.blocks.journal.state = .ready →
    ctxsLaw s.blocks = true → s.blocks.mem.matching id = some o →
    ((∃ f bytes, o.op = .slotBurst f bytes) ∧ o.owner = .burst ∧ reason = .recordWriteFailed
        ∧ (cmd = .slotBurstDone id .error ∧ st = .error ∨ cmd = .downstreamTimeout id.slot ∧ st = .timeout))
      ∨ ((∃ l bytes, o.op = .anchorWrite l bytes) ∧ (∃ copy gen head, o.owner = .anchor (.update copy gen head))
        ∧ s.blocks.journal.anchor.failures ≠ 0 ∧ reason = .anchorWriteFailed
        ∧ (cmd = .anchorWriteDone id .error ∧ st = .error ∨ cmd = .downstreamTimeout id.slot ∧ st = .timeout)) →
    ∃ t, exec cmd s = .next t ∧ t.mgmt = s.mgmt ∧ t.blocks.journal.state = .failed
      ∧ t.blocks.journal.reason = some reason ∧ t.blocks.journal.durable = s.blocks.journal.durable
      ∧ t.blocks.events.isPending .journalFailed = true
      ∧ (∀ e ∈ s.blocks.track, e.state = .capturing → e ∈ t.blocks.track)
      ∧ (∀ c n, (s.blocks.ctx c).epoch = some n → (s.blocks.ctx c).state ≠ .faulted →
        (t.blocks.ctx c).state = .faulted ∧ (t.blocks.ctx c).epoch = some n
          ∧ (t.blocks.ctx c).fault = some ⟨.journalFailed, n, none, none, some st⟩)
      ∧ (∀ c i tag, i ∈ (s.blocks.ctx c).waiters → (s.blocks.stream i).phase = .commitWaiter →
        (s.blocks.stream i).queue = [⟨tag, .commit⟩] → answers s t i (.done tag .contextFaulted))
      ∧ ∀ i tag a m d c cause, stalledAlone s i cause ⟨tag, .write a m d⟩ → (∀ k, i ∉ (s.blocks.ctx k).waiters) →
        journaledWrite s i a m c → answers s t i (.ack tag .journalUnavailable)

/-- The anchor state when a write of a copy has persisted with a generation (R79). -/
def afterWritten (a : AnchorState) (copy : AnchorCopy) (gen : Count32) : AnchorState :=
  match copy with
  | .a => { a with genA := gen, suspectA := false, failures := 0, busy := false }
  | .b => { a with genB := gen, suspectB := false, failures := 0, busy := false }

/-- The anchor state when a write of a copy has failed for the first time (R79). -/
def afterFirstFailure (a : AnchorState) (copy : AnchorCopy) : AnchorState :=
  match copy with
  | .a => { a with suspectA := true, failures := 1, busy := false }
  | .b => { a with suspectB := true, failures := 1, busy := false }

/-- An anchor update that persists moves the anchored head to the head it carried and clears its copy's suspicion; the
pause flag is evaluated, with CAPTURE_RESUMED when space has reached the resume level, and so is the anchor condition; a
WRITE in a capture stall is classified again in the same event and accepted when it passes every check. A first failure
makes the copy suspect and counts; the anchor condition is evaluated, so that the copy is written again while it holds
(that there is no retry when it no longer does is the model's choice, log 37). -/
def Obligations.AnchorUpdateMovesTheAnchoredHead : Prop :=
  ∀ (copy : AnchorCopy) (gen : Count32) (head : RingPtr) (id : OpId) (o : Outstanding) (s : State), atRest s = true →
    s.blocks.journal.state = .ready → s.blocks.mem.matching id = some o → (∃ l bytes, o.op = .anchorWrite l bytes) →
    o.owner = .anchor (.update copy gen head) →
    (∃ t, exec (.anchorWriteDone id .persisted) s = .next t ∧ t.mgmt = s.mgmt ∧ t.blocks.journal.anchored = head
      ∧ genOf t.blocks.journal.anchor copy = gen ∧ suspectOf t.blocks.journal.anchor copy = false
      ∧ t.blocks.journal.anchor.failures = 0
      ∧ genOf t.blocks.journal.anchor copy.other = genOf s.blocks.journal.anchor copy.other)
    ∧ (s.blocks.journal.anchor.failures = 0 →
      ∃ t, exec (.anchorWriteDone id .error) s = .next t ∧ t.mgmt = s.mgmt ∧ t.blocks.journal.state = .ready
      ∧ t.blocks.journal.anchored = s.blocks.journal.anchored ∧ t.blocks.journal.anchor.failures = 1
      ∧ suspectOf t.blocks.journal.anchor copy = true)
    ∧ (let j := { s.blocks.journal with anchored := head, anchor := afterWritten s.blocks.journal.anchor copy gen }
      let pause := pauseNow s.mgmt.active j
      (calm s = true → ∃ t, exec (.anchorWriteDone id .persisted) s = .next t
        ∧ t.blocks.journal.pause = pause ∧ t.blocks.events = pauseRaises s.mgmt.active j s.blocks.events
        ∧ updateEvaluated s.mgmt.active { j with pause := pause } s.blocks.epochs.counter t)
      ∧ ∀ i tag a m d c, stalledAlone s i .capture ⟨tag, .write a m d⟩ → reachesContext s i a m c →
        s.blocks.entryOf (lineOf a) = none → s.blocks.trackedCount c < s.mgmt.active.ctxs[c].quota.toNat →
        pause = false → slotsNeeded (s.blocks.ctx c).state ≤ j.unreserved s.mgmt.active.ringN →
        s.blocks.held.full = false → s.blocks.epochs.counter ≠ lastEpoch →
        ∃ t, exec (.anchorWriteDone id .persisted) s = .next t ∧ answers s t i (.ack tag .okay)
          ∧ ∃ e, t.blocks.entryOf (lineOf a) = some e ∧ e.ctx = c ∧ e.state = .capturing ∧ e.stream = i)
    ∧ (s.blocks.journal.anchor.failures = 0 → ∀ cmd ∈ [Instr.anchorWriteDone id .error, .downstreamTimeout id.slot],
      ∃ t, exec cmd s = .next t ∧ updateEvaluated s.mgmt.active
        { s.blocks.journal with anchor := afterFirstFailure s.blocks.journal.anchor copy } s.blocks.epochs.counter t)

/-- The two copies of FORMAT are written one after the other, and the second makes the journal READY with FORMAT_DONE;
the first copy of recovery's finish is followed by the chosen copy, with 2 more than the chosen generation, which makes
it READY with the epoch counter loaded and RECOVERY_DONE. A copy that fails leaves the journal FAILED. Stalled requests
are classified again in the same event: a COMMIT of an IDLE context is answered OKAY, and a READ goes to memory. -/
def Obligations.LastAnchorCopyMakesTheJournalReady : Prop :=
  ∀ (id : OpId) (o : Outstanding) (s : State), s.pins.resetLow = false → s.blocks.journal.notice = false →
    s.blocks.mem.matching id = some o → (∃ l bytes, o.op = .anchorWrite l bytes) →
    (∀ i tag c, s.blocks.journal.state = .formatting → o.owner = .anchor .formatB → atRest s = true →
      stalledAlone s i .formatting ⟨tag, .commit⟩ → s.mgmt.active.bindings[i] = some c →
      (s.blocks.ctx c).state = .idle →
      ∃ t, exec (.anchorWriteDone id .persisted) s = .next t ∧ t.blocks.journal.state = .ready
        ∧ answers s t i (.done tag .okay))
    ∧ (∀ i tag a w, s.blocks.journal.state = .recovering → s.blocks.recovery.phase = .finish →
      o.owner = .anchor .finishSecond → atRest s = true → stalledAlone s i .recovering ⟨tag, .read a⟩ →
      lookup s.mgmt.active (lineOf a) = .window w → w.kind = .journaled → s.blocks.lineRestoring (lineOf a) = false →
      s.blocks.held.coverMask (lineOf a) ≠ fullMask →
      ∃ t, exec (.anchorWriteDone id .persisted) s = .next t ∧ t.blocks.journal.state = .ready
        ∧ (t.blocks.stream i).phase = .reading
        ∧ inPort t.blocks.mem (.lineRead (lineOf a)) (.passRead i true) = true)
    ∧ (s.blocks.journal.state = .formatting → o.owner = .anchor .formatA →
      ∃ t, exec (.anchorWriteDone id .persisted) s = .next t ∧ t.blocks.journal.state = .formatting
      ∧ inPort t.blocks.mem (.anchorWrite (anchorLine s.mgmt.active .b) (buildAnchor
          ⟨2, 0, 0, 1, s.mgmt.active.journal.ringSize, s.blocks.journal.anchor.formatCount⟩)) (.anchor .formatB) = true)
    ∧ (s.blocks.journal.state = .formatting → o.owner = .anchor .formatB → calm s = true →
      ∃ t, exec (.anchorWriteDone id .persisted) s = .next t ∧ t.blocks.journal.state = .ready
      ∧ t.blocks.journal.reason = none ∧ t.blocks.events.isPending .formatDone = true
      ∧ t.blocks.journal.anchor.genA = 1 ∧ t.blocks.journal.anchor.genB = 2)
    ∧ (s.blocks.recovery.phase = .finish → o.owner = .anchor .finishSecond → calm s = true →
      ∃ t, exec (.anchorWriteDone id .persisted) s = .next t ∧ t.blocks.journal.state = .ready
      ∧ t.blocks.recovery.phase = .ended ∧ t.blocks.events.isPending .recoveryDone = true
      ∧ t.blocks.epochs.counter = BitVec.ofNat 48 s.blocks.recovery.nextEpoch
      ∧ ∀ ch, s.blocks.recovery.chosen = some ch → genOf t.blocks.journal.anchor ch.copy = ch.generation + 2
        ∧ genOf t.blocks.journal.anchor ch.copy.other = ch.generation + 1)
    ∧ (∀ ch q, s.blocks.journal.state = .recovering → s.blocks.recovery.phase = .finish →
      o.owner = .anchor .finishFirst → s.blocks.recovery.chosen = some ch → s.blocks.recovery.endOfLog = some q →
      ∃ t, exec (.anchorWriteDone id .persisted) s = .next t ∧ t.blocks.journal.state = .recovering
        ∧ t.blocks.recovery.phase = .finish
        ∧ inPort t.blocks.mem (.anchorWrite (anchorLine s.mgmt.active ch.copy) (buildAnchor
          ⟨ch.generation + 2, 0, q.seq,
            BitVec.ofNat 48 (max ch.nextEpoch.toNat (s.blocks.recovery.largest.toNat + 1)),
            s.mgmt.active.journal.ringSize, ch.formatCount⟩)) (.anchor .finishSecond) = true)
    ∧ (s.blocks.journal.state = .formatting → o.owner = .anchor .formatA ∨ o.owner = .anchor .formatB →
      ∃ t, exec (.anchorWriteDone id .error) s = .next t ∧ t.blocks.journal.state = .failed
      ∧ t.blocks.journal.reason = some .anchorWriteFailed ∧ t.blocks.events.isPending .journalFailed = true)
    ∧ (s.blocks.recovery.phase = .finish → o.owner = .anchor .finishFirst ∨ o.owner = .anchor .finishSecond →
      ∃ t, exec (.anchorWriteDone id .error) s = .next t ∧ t.blocks.journal.state = .failed
      ∧ t.blocks.journal.reason = some .recoveryWriteFailed ∧ t.blocks.recovery.phase = .ended
      ∧ t.blocks.events.isPending .recoveryDone = true ∧ t.blocks.events.isPending .journalFailed = true)

/-- The restore slot of a line, in flight with its read, in phase RESTORE of a rollback. -/
def restoreReading (s : State) (c : CtxId) (r : Rollback) (l : Addr) : Prop :=
  (s.blocks.ctx c).state = .rollback ∧ (s.blocks.ctx c).rollback = some r ∧ r.phase = .restore
    ∧ ∃ x ∈ r.slots, x.line = l ∧ x.op = .read

/-- R115: a RESTORE_READ that returns DATA gives its slot the old data and the RESTORE_WRITE of the line is asked for;
one that ends by ERROR or its timeout is a restore fault, its entry goes back to LOGGED, and a later completion matches
nothing. -/
def Obligations.RestoreReadGivesTheOldData : Prop :=
  ∀ (c : CtxId) (r : Rollback) (l lr : Addr) (d : LineData) (n : Epoch) (id : OpId) (o : Outstanding) (s : State),
    calm s = true → s.blocks.mem.matching id = some o → o.op = .lineRead lr → o.owner = .restoreRead c l →
    restoreReading s c r l → (s.blocks.ctx c).epoch = some n →
    (∃ t, exec (.restoreReadDone id (.data d)) s = .next t
      ∧ blocksBecome s (s.blocks.modCtx c fun x => { x with rollback := some { r with slots := r.slots.map fun y =>
          if y.line = l then { y with oldData := some d, op := .write } else y } }) t
      ∧ inPort t.blocks.mem (.lineWrite l fullMask d) (.restoreWrite c l) = true)
    ∧ ∀ (cmd : Instr) (st : DownStatus), (cmd = .restoreReadDone id .error ∧ st = .error)
        ∨ (cmd = .downstreamTimeout id.slot ∧ st = .timeout) →
      ∃ t, exec cmd s = .next t ∧ (t.blocks.ctx c).state = .faulted
      ∧ (t.blocks.ctx c).fault = some ⟨.restoreReadFailed, n, some l, none, some st⟩
      ∧ (∀ e ∈ s.blocks.track, e.ctx = c → e.line = l → e.state = .restoring →
        { e with state := .logged } ∈ t.blocks.track)
      ∧ t.blocks.mem.matching id = none

/-- A RESTORE_WRITE that persists makes its line RESTORED and counts it, and the RETIRE phase follows when that was the
last line, with the RETIRE marker asked for; a READ stalled on the line is classified again in the same event and goes
to memory. One that fails is a restore fault. -/
def Obligations.RestoreWriteRestoresTheLine : Prop :=
  (∀ (i : StreamId) (tag : Tag) (a : Addr) (w : Window) (c : CtxId) (e : TrackEntry) (id : OpId) (o : Outstanding)
    (s : State), atRest s = true → s.blocks.mem.matching id = some o → o.op.writeLine = some (lineOf a) →
    o.owner = .restoreWrite c (lineOf a) → stalledAlone s i .restoring ⟨tag, .read a⟩ →
    lookup s.mgmt.active (lineOf a) = .window w → w.kind = .journaled → s.blocks.journal.state ≠ .recovering →
    s.blocks.entryOf (lineOf a) = some e → e.ctx = c → e.state = .restoring →
    s.blocks.held.coverMask (lineOf a) ≠ fullMask →
    ∃ t, exec (.restoreWriteDone id .persisted) s = .next t ∧ (t.blocks.stream i).phase = .reading
      ∧ inPort t.blocks.mem (.lineRead (lineOf a)) (.passRead i true) = true)
  ∧ ∀ (c : CtxId) (r : Rollback) (l : Addr) (n : Epoch) (id : OpId) (o : Outstanding) (s : State), calm s = true →
    s.blocks.mem.matching id = some o → o.op.writeLine = some l → o.owner = .restoreWrite c l →
    (s.blocks.ctx c).state = .rollback → (s.blocks.ctx c).rollback = some r → r.phase = .restore →
    (∃ x ∈ r.slots, x.line = l ∧ x.op = .write) → (s.blocks.ctx c).epoch = some n →
    (∃ t r', exec (.restoreWriteDone id .persisted) s = .next t ∧ t.mgmt = s.mgmt
      ∧ t.blocks.ctx c = { s.blocks.ctx c with rollback := some r' } ∧ r'.mode = r.mode
      ∧ r'.linesRestored = r.linesRestored + 1 ∧ (∀ x ∈ r'.slots, x.line ≠ l)
      ∧ t.blocks.track = s.blocks.track.map (fun e =>
        if e.ctx = c ∧ e.line = l ∧ e.state = .restoring then { e with state := .restored } else e)
      ∧ ((∀ e ∈ s.blocks.track, e.ctx = c → e.state = .restored ∨ (e.line = l ∧ e.state = .restoring)) →
        r'.phase = .retire ∧ (s.blocks.journal.state = .ready → markerAsked s.mgmt.active s.blocks .retire c n t)))
    ∧ ∃ t, exec (.restoreWriteDone id .error) s = .next t ∧ (t.blocks.ctx c).state = .faulted
      ∧ (t.blocks.ctx c).fault = some ⟨.restoreWriteFailed, n, some l, none, some .error⟩
      ∧ (t.blocks.ctx c).rollback = none ∧ (t.blocks.ctx c).abortOutcome = some .failed

/-- Recovery has failed for a reason (R161, R162). -/
def recoveryFails (reason : JournalReason) (t : State) : Prop :=
  t.blocks.journal.state = .failed ∧ t.blocks.journal.reason = some reason ∧ t.blocks.recovery.phase = .ended
    ∧ t.blocks.events.isPending .recoveryDone = true ∧ t.blocks.events.isPending .journalFailed = true

/-- The slot at a position is being read, for a recovery in the given state. -/
def readsSlot (act : Image) (r : RecoveryEngine) (what : RecoveryRead) (pos : RingPtr) (t : State) : Prop :=
  t.blocks.recovery = r ∧ inPort t.blocks.mem (.lineRead (slotLine act pos.idx)) (.recoveryRead what) = true

/-- The finish of recovery begins with the end of log at sequence q (R160): an empty ring at slot 0, and the copy that
was not chosen written with one more than the chosen generation; or FAILED when the epochs are exhausted. That the
pointers take the sequence here, and not when the finish has succeeded, is the model's choice (log 40). -/
def finishes (act : Image) (ch : ChosenAnchor) (q : Count32) (r : RecoveryEngine) (t : State) : Prop :=
  let next := max ch.nextEpoch.toNat (r.largest.toNat + 1)
  (2 ^ 48 ≤ next → recoveryFails .epochExhausted t)
    ∧ (next < 2 ^ 48 → t.blocks.recovery = { r with phase := .finish, step := .idle }
      ∧ t.blocks.journal.tail = ⟨0, q⟩ ∧ t.blocks.journal.durable = ⟨0, q⟩ ∧ t.blocks.journal.head = ⟨0, q⟩
      ∧ t.blocks.journal.anchored = ⟨0, q⟩ ∧ t.blocks.journal.reserved = 0 ∧ t.blocks.journal.live = []
      ∧ inPort t.blocks.mem (.anchorWrite (anchorLine act ch.copy.other) (buildAnchor
        ⟨ch.generation + 1, 0, q, BitVec.ofNat 48 next, act.journal.ringSize, ch.formatCount⟩)) (.anchor .finishFirst) = true)

/-- The restore pass goes on with recovery in state r, the end of log at sequence q (R159): the next header is read, or
waits while 8 writes are in flight; at the end of log the finish begins, or waits for the last writes. -/
def passGoesOn (act : Image) (ch : ChosenAnchor) (q : Count32) (r : RecoveryEngine) (t : State) : Prop :=
  (r.toVisit ≠ [] → 8 ≤ r.writes → t.blocks.recovery = { r with step := .writesFull })
    ∧ (r.toVisit ≠ [] → r.writes < 8 → readsSlot act { r with step := .header } .header r.pos t)
    ∧ (r.toVisit = [] → r.writes ≠ 0 → t.blocks.recovery = { r with step := .lastWrites })
    ∧ (r.toVisit = [] → r.writes = 0 → finishes act ch q r t)

/-- The scan pass ends at its position (R157, R158, R161): the incomplete epochs stay in the table and are counted; with
none the finish begins, and otherwise the restore pass begins at the anchored head. -/
def scanEnds (act : Image) (ch : ChosenAnchor) (r : RecoveryEngine) (t : State) : Prop :=
  let left := r.table.filter fun x => !x.complete
  let r' := { r with
    endOfLog := some r.pos, table := left, summary := { r.summary with endOfLog := some r.pos, epochsUndone := left.length } }
  (left = [] → finishes act ch r.pos.seq r' t)
    ∧ (left ≠ [] → passGoesOn act ch r.pos.seq
      { r' with phase := .restore, pos := ch.head, passed := 0, toVisit := r.found } t)

/-- The scan pass takes a record (R157, R158): its epoch is entered in the table, or the ring is inconsistent; the next
slot is read. -/
def takesRecord (act : Image) (ch : ChosenAnchor) (r : RecoveryEngine) (k : RecordKind) (h : LineData) (t : State) : Prop :=
  (tableTake r.table k (headerEpoch h) (headerCtx h) = none → recoveryFails .ringInconsistent t)
    ∧ ∀ table, tableTake r.table k (headerEpoch h) (headerCtx h) = some table →
      readsSlot act { r with
        pos := r.pos.advance ch.ringSize k.slots, passed := r.passed + k.slots, table := table, step := .header
        largest := if r.largest.toNat < (headerEpoch h).toNat then headerEpoch h else r.largest
        found := r.found ++ [k] } .header (r.pos.advance ch.ringSize k.slots) t

/-- The rows of R158: the table after a record of epoch e and context c, with an entry of that epoch or without. -/
def tableRows (table : List RecoveryEpoch) (e : Epoch) (c : CtxId) : Prop :=
  ((∀ x ∈ table, x.epoch ≠ e) →
    tableTake table .commit e c = some table ∧ tableTake table .retire e c = some table
    ∧ (table.length < 8 → tableTake table .undo e c = some (table ++ [⟨e, c, false⟩]))
    ∧ (8 ≤ table.length → (∀ x ∈ table, x.complete = false) → tableTake table .undo e c = none)
    ∧ ∀ before x behind, 8 ≤ table.length → table = before ++ x :: behind → (∀ y ∈ before, y.complete = false) →
      x.complete = true → tableTake table .undo e c = some (before ++ behind ++ [⟨e, c, false⟩]))
  ∧ ∀ before x behind, table = before ++ x :: behind → x.epoch = e → (∀ y ∈ before ++ behind, y.epoch ≠ e) →
    (x.ctx ≠ c → ∀ k, tableTake table k e c = none)
    ∧ (x.ctx = c → tableTake table .undo e c = (if x.complete then none else some table)
      ∧ tableTake table .commit e c = some (before ++ { x with complete := true } :: behind)
      ∧ tableTake table .retire e c = some (before ++ { x with complete := true } :: behind))

/-- What the data of a recovery read leads to in the scan and the restore pass, by the tests of R157 and R159. -/
def passReads (act : Image) (ch : ChosenAnchor) (r : RecoveryEngine) (what : RecoveryRead) (d : LineData) (t : State) :
    Prop :=
  let q := (r.endOfLog.map (·.seq)).getD 0
  (r.phase = .scan → what = .header → r.step = .header →
    let fits := r.passed < ch.ringSize ∧ headerSeq d = r.pos.seq
    (fits → headerKind d = some .undo → r.passed + 2 ≤ ch.ringSize →
      readsSlot act { r with step := .dataSlot d } .dataSlot (r.pos.advance ch.ringSize 1) t)
    ∧ (∀ k, fits → headerKind d = some k → k ≠ .undo → storedCheck d = headerCheck ch.formatCount d none →
      takesRecord act ch r k d t)
    ∧ (¬fits ∨ headerKind d = none ∨ (headerKind d = some .undo ∧ ch.ringSize < r.passed + 2)
        ∨ (headerKind d ≠ some .undo ∧ storedCheck d ≠ headerCheck ch.formatCount d none) → scanEnds act ch r t))
  ∧ (∀ h, r.phase = .scan → what = .dataSlot → r.step = .dataSlot h →
    let line := lineOf (headerLine h)
    let inRing := act.journal.areaBase.toNat ≤ line.toNat
      ∧ line.toNat < act.journal.areaBase.toNat + 64 * (ch.ringSize + 2) ∧ ch.ringSize ≠ 0
    (storedCheck h ≠ headerCheck ch.formatCount h (some d) → scanEnds act ch r t)
    ∧ (storedCheck h = headerCheck ch.formatCount h (some d) →
      (inRing → recoveryFails .ringInconsistent t) ∧ (¬inRing → takesRecord act ch r .undo h t)))
  ∧ ∀ k rest, r.phase = .restore → r.toVisit = k :: rest →
    let past := { r with pos := r.pos.advance ch.ringSize k.slots, passed := r.passed + k.slots, toVisit := rest }
    (what = .header → r.step = .header →
      (headerKind d ≠ some k ∨ headerSeq d ≠ r.pos.seq → recoveryFails .ringInconsistent t)
      ∧ (headerKind d = some k → headerSeq d = r.pos.seq →
        let restores := k = .undo ∧ ∃ x ∈ r.table, x.epoch = headerEpoch d
        (restores → readsSlot act { r with step := .dataSlot d } .dataSlot (r.pos.advance ch.ringSize 1) t)
        ∧ (¬restores → passGoesOn act ch q past t)))
    ∧ ∀ h, what = .dataSlot → r.step = .dataSlot h → k = .undo →
      (storedCheck h ≠ headerCheck ch.formatCount h (some d) → recoveryFails .ringInconsistent t)
      ∧ (storedCheck h = headerCheck ch.formatCount h (some d) →
        inPort t.blocks.mem (.lineWrite (lineOf (headerLine h)) fullMask d) .recoveryWrite = true
        ∧ passGoesOn act ch q { past with writes := r.writes + 1 } t)

/-- The choice of the anchor from the lines of copy A and copy B (R156): the valid one; of two valid ones the one whose
format count is ahead, at equal format counts the one whose generation is ahead, and copy A when those are equal too. -/
def anchorRows (a b : LineData) : Prop :=
  let fa := readAnchor a
  let fb := readAnchor b
  (anchorValid a = false → anchorValid b = false → chooseAnchor a b = none)
  ∧ (anchorValid a = true → anchorValid b = false → chooseAnchor a b = some .a)
  ∧ (anchorValid a = false → anchorValid b = true → chooseAnchor a b = some .b)
  ∧ (anchorValid a = true → anchorValid b = true →
    (fa.formatCount ≠ fb.formatCount →
      chooseAnchor a b = some (if aheadOf fa.formatCount fb.formatCount then .a else .b))
    ∧ (fa.formatCount = fb.formatCount → fa.generation ≠ fb.generation →
      chooseAnchor a b = some (if aheadOf fa.generation fb.generation then .a else .b))
    ∧ (fa.formatCount = fb.formatCount → fa.generation = fb.generation → chooseAnchor a b = some .a))

/-- Both copies have been read (R156): without a choice the journal is UNFORMATTED, with the format count that is ahead
of the other; otherwise the chosen copy's fields are kept, its format count is taken, and the scan begins at its head.
-/
def anchorsJudged (act : Image) (a b : LineData) (t : State) : Prop :=
  (chooseAnchor a b = none →
    t.blocks.journal.state = .unformatted ∧ t.blocks.journal.reason = some .noAnchor
      ∧ t.blocks.recovery.phase = .ended ∧ t.blocks.events.isPending .recoveryDone = true
      ∧ t.blocks.journal.anchor.formatCount =
        if aheadOf (readAnchor b).formatCount (readAnchor a).formatCount then (readAnchor b).formatCount
        else (readAnchor a).formatCount)
  ∧ ∀ copy, chooseAnchor a b = some copy →
    let f := readAnchor (match copy with
      | .a => a
      | .b => b)
    t.blocks.recovery.phase = .scan ∧ t.blocks.recovery.passed = 0 ∧ t.blocks.recovery.summary.anchorUsed = some copy
      ∧ t.blocks.recovery.pos = ⟨f.headIdx.toNat, f.headSeq⟩
      ∧ t.blocks.recovery.chosen =
        some ⟨copy, f.generation, ⟨f.headIdx.toNat, f.headSeq⟩, f.nextEpoch, f.ringSize.toNat, f.formatCount⟩
      ∧ t.blocks.journal.anchor.formatCount = f.formatCount
      ∧ inPort t.blocks.mem (.lineRead (slotLine act f.headIdx.toNat)) (.recoveryRead .header) = true

/-- Recovery's operations: the anchor copy that is read first is kept, the two copies choose the anchor and the scan
begins at its head, or leave the journal UNFORMATTED; the scan pass takes record after record into the epoch table until
the end of log; the restore pass walks the same records, and writes back the old data of the epochs that are incomplete;
then the finish begins. A persisted recovery write counts a line restored, and the pass that waited for it goes on; a
failed operation ends recovery in FAILED. That a restore write counts as in flight from its hand-over is the model's
choice (log 28), as are the order of the tests on a table entry of another context (log 17) and the moment at which the
ring pointers take the end-of-log sequence (log 40). -/
def Obligations.RecoveryOperationsAdvanceRecovery : Prop :=
  (∀ table e c, tableRows table e c) ∧ (∀ a b, anchorRows a b)
  ∧ (∀ (id : OpId) (o : Outstanding) (ch : ChosenAnchor) (s : State), s.pins.resetLow = false →
    s.blocks.journal.notice = false → s.blocks.journal.state = .recovering → s.blocks.mem.matching id = some o →
    s.blocks.recovery.phase ≠ .ended → s.blocks.recovery.chosen = some ch →
    let r := s.blocks.recovery
    (∀ l what d, o.op = .lineRead l → o.owner = .recoveryRead what →
      ∃ t, exec (.recoveryReadDone id (.data d)) s = .next t ∧ passReads s.mgmt.active ch r what d t)
    ∧ ∀ l, o.op.writeLine = some l → o.owner = .recoveryWrite →
      let r' := { r with
        writes := r.writes - 1, summary := { r.summary with linesRestored := r.summary.linesRestored + 1 } }
      ∃ t, exec (.recoveryWriteDone id .persisted) s = .next t
        ∧ (r.step = .writesFull ∨ r.step = .lastWrites →
          passGoesOn s.mgmt.active ch ((r.endOfLog.map (·.seq)).getD 0) r' t)
        ∧ (r.step ≠ .writesFull → r.step ≠ .lastWrites → t.blocks.recovery = r'))
  ∧ ∀ (id : OpId) (o : Outstanding) (d : LineData) (s : State), s.pins.resetLow = false →
    s.blocks.journal.notice = false → s.blocks.mem.matching id = some o → s.blocks.recovery.phase ≠ .ended →
    (∀ l, o.op = .lineRead l →
      (o.owner = .recoveryRead (.anchor .a) → s.blocks.recovery.phase = .anchor →
        ∃ t, exec (.recoveryReadDone id (.data d)) s = .next t
          ∧ (s.blocks.recovery.anchorB = none → t.blocks.recovery = { s.blocks.recovery with anchorA := some d })
          ∧ ∀ e, s.blocks.recovery.anchorB = some e → anchorsJudged s.mgmt.active d e t)
      ∧ (o.owner = .recoveryRead (.anchor .b) → s.blocks.recovery.phase = .anchor →
        ∃ t, exec (.recoveryReadDone id (.data d)) s = .next t
          ∧ (s.blocks.recovery.anchorA = none → t.blocks.recovery = { s.blocks.recovery with anchorB := some d })
          ∧ ∀ e, s.blocks.recovery.anchorA = some e → anchorsJudged s.mgmt.active e d t)
      ∧ ((∃ what, o.owner = .recoveryRead what) → ∃ t, exec (.recoveryReadDone id .error) s = .next t
        ∧ t.blocks.journal.state = .failed ∧ t.blocks.journal.reason = some .recoveryReadFailed
        ∧ t.blocks.recovery.phase = .ended ∧ t.blocks.events.isPending .recoveryDone = true
        ∧ t.blocks.events.isPending .journalFailed = true))
    ∧ (∀ l, o.op.writeLine = some l → o.owner = .recoveryWrite →
      (∃ t, exec (.recoveryWriteDone id .persisted) s = .next t
        ∧ t.blocks.recovery.summary.linesRestored = s.blocks.recovery.summary.linesRestored + 1)
      ∧ ∃ t, exec (.recoveryWriteDone id .error) s = .next t
        ∧ t.blocks.journal.state = .failed ∧ t.blocks.journal.reason = some .recoveryWriteFailed)

/-- An operation slot whose timer expires ends as a failure with status TIMEOUT, handed to its owner in the event that
frees the slot; a slot that is free has no timer. That the clock then stands at the deadline or later, and that the
expiry of a free slot has no effect, are the model's choices (log 1). -/
def Obligations.TimeoutEndsTheOperation : Prop :=
  ∀ (k : SlotNo) (s : State), s.pins.resetLow = false →
    (s.blocks.mem.slots[k] = none → exec (.downstreamTimeout k) s = .next s)
    ∧ ∀ o, s.blocks.mem.slots[k] = some o → ∃ t, exec (.downstreamTimeout k) s = .next t
      ∧ t = s.event (fun b => handBack s.mgmt.active o (.failed .timeout)
          (freeSlot k { b with clock := max b.clock o.deadline }))
      ∧ t.blocks.clock = max s.blocks.clock o.deadline
      ∧ t.blocks.mem.matching ⟨k, s.blocks.mem.issue[k]⟩ = none

/-! ## Layouts -/

/-- A staged header and an anchor copy say what they were built from: every field reads back, the check of the header
matches under its format count, and the copy is valid when its ring size is legal and its head lies in the ring. A field
of a payload that is absent has every bit set. -/
def Obligations.LayoutsReadBack : Prop :=
  (∀ (fc : Count32) (k : RecordKind) (c : CtxId) (seq : Count32) (e : Epoch) (l : Addr) (data : Option LineData),
    let h := buildHeader fc k c seq e l data
    headerKind h = some k ∧ headerCtx h = c ∧ headerSeq h = seq ∧ headerEpoch h = e ∧ headerLine h = l
      ∧ storedCheck h = headerCheck fc h data)
  ∧ (∀ f : AnchorFields, readAnchor (buildAnchor f) = f
    ∧ (legalRingSize f.ringSize.toNat = true → f.headIdx.toNat < f.ringSize.toNat → anchorValid (buildAnchor f) = true))
  ∧ ∀ payload place bit : Nat, (FieldValue.absent.bits payload place).testBit bit =
      decide (bit < Config.fieldWidth payload place)

/-! ## The law of service -/

/-- The law of service: a READY or ISSUED held entry stands beside the LOGGED entry of its context and a WAIT_LOG one
beside its CAPTURING entry; while the ring is written its pointers are in order, reserved space is 2 for each capture
not staged and 1 for each live epoch without a staged marker, and the slots in use and reserved are at most the ring
size; and no request stays stalled once its cause has gone. What makes it inductive stands with it. -/
def Obligations.StepKeepsServiceLaw : Prop :=
  ∀ s t : State, ctxsLaw s.blocks = true → trackLaw s.mgmt.active s.blocks = true → configLaw s.mgmt = true →
    serviceLaw s.mgmt.active s.blocks = true → step s = .next t → serviceLaw t.mgmt.active t.blocks = true
end

