-- ==== Sys2Proof/Laws/State.lean ====
section
/-! SUPPORT. One lemma for each field under each update of the blocks, so that no proof unfolds a record update. -/

namespace Sys2Proof.Machine

variable (b : Blocks)

/-! ### modStream -/

@[simp] theorem Blocks.modStream_epochs (i : StreamId) (f : StreamRec → StreamRec) : (b.modStream i f).epochs = b.epochs := rfl
@[simp] theorem Blocks.modStream_track (i : StreamId) (f : StreamRec → StreamRec) : (b.modStream i f).track = b.track := rfl
@[simp] theorem Blocks.modStream_journal (i : StreamId) (f : StreamRec → StreamRec) : (b.modStream i f).journal = b.journal := rfl
@[simp] theorem Blocks.modStream_held (i : StreamId) (f : StreamRec → StreamRec) : (b.modStream i f).held = b.held := rfl
@[simp] theorem Blocks.modStream_mem (i : StreamId) (f : StreamRec → StreamRec) : (b.modStream i f).mem = b.mem := rfl
@[simp] theorem Blocks.modStream_recovery (i : StreamId) (f : StreamRec → StreamRec) : (b.modStream i f).recovery = b.recovery := rfl
@[simp] theorem Blocks.modStream_events (i : StreamId) (f : StreamRec → StreamRec) : (b.modStream i f).events = b.events := rfl
@[simp] theorem Blocks.modStream_clock (i : StreamId) (f : StreamRec → StreamRec) : (b.modStream i f).clock = b.clock := rfl
@[simp] theorem Blocks.modStream_nextCapture (i : StreamId) (f : StreamRec → StreamRec) : (b.modStream i f).nextCapture = b.nextCapture := rfl
@[simp] theorem Blocks.modStream_free (i : StreamId) (f : StreamRec → StreamRec) : (b.modStream i f).free = b.free := rfl
@[simp] theorem Blocks.modStream_ctx (i : StreamId) (f : StreamRec → StreamRec) (k : CtxId) : (b.modStream i f).ctx k = b.ctx k := rfl
@[simp] theorem Blocks.modStream_entryOf (i : StreamId) (f : StreamRec → StreamRec) (l : Addr) : (b.modStream i f).entryOf l = b.entryOf l := rfl
@[simp] theorem Blocks.modStream_entriesOf (i : StreamId) (f : StreamRec → StreamRec) (k : CtxId) : (b.modStream i f).entriesOf k = b.entriesOf k := rfl
@[simp] theorem Blocks.modStream_trackedCount (i : StreamId) (f : StreamRec → StreamRec) (k : CtxId) : (b.modStream i f).trackedCount k = b.trackedCount k := rfl
@[simp] theorem Blocks.modStream_heldCount (i : StreamId) (f : StreamRec → StreamRec) (k : CtxId) : (b.modStream i f).heldCount k = b.heldCount k := rfl

/-! ### mapStreams -/

@[simp] theorem Blocks.mapStreams_epochs (f : StreamId → StreamRec → StreamRec) : (b.mapStreams f).epochs = b.epochs := rfl
@[simp] theorem Blocks.mapStreams_track (f : StreamId → StreamRec → StreamRec) : (b.mapStreams f).track = b.track := rfl
@[simp] theorem Blocks.mapStreams_journal (f : StreamId → StreamRec → StreamRec) : (b.mapStreams f).journal = b.journal := rfl
@[simp] theorem Blocks.mapStreams_held (f : StreamId → StreamRec → StreamRec) : (b.mapStreams f).held = b.held := rfl
@[simp] theorem Blocks.mapStreams_mem (f : StreamId → StreamRec → StreamRec) : (b.mapStreams f).mem = b.mem := rfl
@[simp] theorem Blocks.mapStreams_recovery (f : StreamId → StreamRec → StreamRec) : (b.mapStreams f).recovery = b.recovery := rfl
@[simp] theorem Blocks.mapStreams_events (f : StreamId → StreamRec → StreamRec) : (b.mapStreams f).events = b.events := rfl
@[simp] theorem Blocks.mapStreams_clock (f : StreamId → StreamRec → StreamRec) : (b.mapStreams f).clock = b.clock := rfl
@[simp] theorem Blocks.mapStreams_nextCapture (f : StreamId → StreamRec → StreamRec) : (b.mapStreams f).nextCapture = b.nextCapture := rfl
@[simp] theorem Blocks.mapStreams_free (f : StreamId → StreamRec → StreamRec) : (b.mapStreams f).free = b.free := rfl
@[simp] theorem Blocks.mapStreams_ctx (f : StreamId → StreamRec → StreamRec) (k : CtxId) : (b.mapStreams f).ctx k = b.ctx k := rfl
@[simp] theorem Blocks.mapStreams_entryOf (f : StreamId → StreamRec → StreamRec) (l : Addr) : (b.mapStreams f).entryOf l = b.entryOf l := rfl
@[simp] theorem Blocks.mapStreams_entriesOf (f : StreamId → StreamRec → StreamRec) (k : CtxId) : (b.mapStreams f).entriesOf k = b.entriesOf k := rfl
@[simp] theorem Blocks.mapStreams_trackedCount (f : StreamId → StreamRec → StreamRec) (k : CtxId) : (b.mapStreams f).trackedCount k = b.trackedCount k := rfl
@[simp] theorem Blocks.mapStreams_heldCount (f : StreamId → StreamRec → StreamRec) (k : CtxId) : (b.mapStreams f).heldCount k = b.heldCount k := rfl

/-! ### modCtx -/

@[simp] theorem Blocks.modCtx_req (c : CtxId) (f : Context → Context) : (b.modCtx c f).req = b.req := rfl
@[simp] theorem Blocks.modCtx_track (c : CtxId) (f : Context → Context) : (b.modCtx c f).track = b.track := rfl
@[simp] theorem Blocks.modCtx_journal (c : CtxId) (f : Context → Context) : (b.modCtx c f).journal = b.journal := rfl
@[simp] theorem Blocks.modCtx_held (c : CtxId) (f : Context → Context) : (b.modCtx c f).held = b.held := rfl
@[simp] theorem Blocks.modCtx_mem (c : CtxId) (f : Context → Context) : (b.modCtx c f).mem = b.mem := rfl
@[simp] theorem Blocks.modCtx_recovery (c : CtxId) (f : Context → Context) : (b.modCtx c f).recovery = b.recovery := rfl
@[simp] theorem Blocks.modCtx_events (c : CtxId) (f : Context → Context) : (b.modCtx c f).events = b.events := rfl
@[simp] theorem Blocks.modCtx_clock (c : CtxId) (f : Context → Context) : (b.modCtx c f).clock = b.clock := rfl
@[simp] theorem Blocks.modCtx_nextCapture (c : CtxId) (f : Context → Context) : (b.modCtx c f).nextCapture = b.nextCapture := rfl
@[simp] theorem Blocks.modCtx_free (c : CtxId) (f : Context → Context) : (b.modCtx c f).free = b.free := rfl
@[simp] theorem Blocks.modCtx_stream (c : CtxId) (f : Context → Context) (k : StreamId) : (b.modCtx c f).stream k = b.stream k := rfl
@[simp] theorem Blocks.modCtx_entryOf (c : CtxId) (f : Context → Context) (l : Addr) : (b.modCtx c f).entryOf l = b.entryOf l := rfl
@[simp] theorem Blocks.modCtx_entriesOf (c : CtxId) (f : Context → Context) (k : CtxId) : (b.modCtx c f).entriesOf k = b.entriesOf k := rfl
@[simp] theorem Blocks.modCtx_trackedCount (c : CtxId) (f : Context → Context) (k : CtxId) : (b.modCtx c f).trackedCount k = b.trackedCount k := rfl
@[simp] theorem Blocks.modCtx_heldCount (c : CtxId) (f : Context → Context) (k : CtxId) : (b.modCtx c f).heldCount k = b.heldCount k := rfl

/-! ### modJournal -/

@[simp] theorem Blocks.modJournal_req (f : JournalWriter → JournalWriter) : (b.modJournal f).req = b.req := rfl
@[simp] theorem Blocks.modJournal_epochs (f : JournalWriter → JournalWriter) : (b.modJournal f).epochs = b.epochs := rfl
@[simp] theorem Blocks.modJournal_track (f : JournalWriter → JournalWriter) : (b.modJournal f).track = b.track := rfl
@[simp] theorem Blocks.modJournal_journal (f : JournalWriter → JournalWriter) : (b.modJournal f).journal = f b.journal := rfl
@[simp] theorem Blocks.modJournal_held (f : JournalWriter → JournalWriter) : (b.modJournal f).held = b.held := rfl
@[simp] theorem Blocks.modJournal_mem (f : JournalWriter → JournalWriter) : (b.modJournal f).mem = b.mem := rfl
@[simp] theorem Blocks.modJournal_recovery (f : JournalWriter → JournalWriter) : (b.modJournal f).recovery = b.recovery := rfl
@[simp] theorem Blocks.modJournal_events (f : JournalWriter → JournalWriter) : (b.modJournal f).events = b.events := rfl
@[simp] theorem Blocks.modJournal_clock (f : JournalWriter → JournalWriter) : (b.modJournal f).clock = b.clock := rfl
@[simp] theorem Blocks.modJournal_nextCapture (f : JournalWriter → JournalWriter) : (b.modJournal f).nextCapture = b.nextCapture := rfl
@[simp] theorem Blocks.modJournal_free (f : JournalWriter → JournalWriter) : (b.modJournal f).free = b.free := rfl
@[simp] theorem Blocks.modJournal_stream (f : JournalWriter → JournalWriter) (k : StreamId) : (b.modJournal f).stream k = b.stream k := rfl
@[simp] theorem Blocks.modJournal_ctx (f : JournalWriter → JournalWriter) (k : CtxId) : (b.modJournal f).ctx k = b.ctx k := rfl
@[simp] theorem Blocks.modJournal_entryOf (f : JournalWriter → JournalWriter) (l : Addr) : (b.modJournal f).entryOf l = b.entryOf l := rfl
@[simp] theorem Blocks.modJournal_entriesOf (f : JournalWriter → JournalWriter) (k : CtxId) : (b.modJournal f).entriesOf k = b.entriesOf k := rfl
@[simp] theorem Blocks.modJournal_trackedCount (f : JournalWriter → JournalWriter) (k : CtxId) : (b.modJournal f).trackedCount k = b.trackedCount k := rfl
@[simp] theorem Blocks.modJournal_heldCount (f : JournalWriter → JournalWriter) (k : CtxId) : (b.modJournal f).heldCount k = b.heldCount k := rfl

/-! ### modHeld -/

@[simp] theorem Blocks.modHeld_req (f : HeldQueue → HeldQueue) : (b.modHeld f).req = b.req := rfl
@[simp] theorem Blocks.modHeld_epochs (f : HeldQueue → HeldQueue) : (b.modHeld f).epochs = b.epochs := rfl
@[simp] theorem Blocks.modHeld_track (f : HeldQueue → HeldQueue) : (b.modHeld f).track = b.track := rfl
@[simp] theorem Blocks.modHeld_journal (f : HeldQueue → HeldQueue) : (b.modHeld f).journal = b.journal := rfl
@[simp] theorem Blocks.modHeld_held (f : HeldQueue → HeldQueue) : (b.modHeld f).held = f b.held := rfl
@[simp] theorem Blocks.modHeld_mem (f : HeldQueue → HeldQueue) : (b.modHeld f).mem = b.mem := rfl
@[simp] theorem Blocks.modHeld_recovery (f : HeldQueue → HeldQueue) : (b.modHeld f).recovery = b.recovery := rfl
@[simp] theorem Blocks.modHeld_events (f : HeldQueue → HeldQueue) : (b.modHeld f).events = b.events := rfl
@[simp] theorem Blocks.modHeld_clock (f : HeldQueue → HeldQueue) : (b.modHeld f).clock = b.clock := rfl
@[simp] theorem Blocks.modHeld_nextCapture (f : HeldQueue → HeldQueue) : (b.modHeld f).nextCapture = b.nextCapture := rfl
@[simp] theorem Blocks.modHeld_free (f : HeldQueue → HeldQueue) : (b.modHeld f).free = b.free := rfl
@[simp] theorem Blocks.modHeld_stream (f : HeldQueue → HeldQueue) (k : StreamId) : (b.modHeld f).stream k = b.stream k := rfl
@[simp] theorem Blocks.modHeld_ctx (f : HeldQueue → HeldQueue) (k : CtxId) : (b.modHeld f).ctx k = b.ctx k := rfl
@[simp] theorem Blocks.modHeld_entryOf (f : HeldQueue → HeldQueue) (l : Addr) : (b.modHeld f).entryOf l = b.entryOf l := rfl
@[simp] theorem Blocks.modHeld_entriesOf (f : HeldQueue → HeldQueue) (k : CtxId) : (b.modHeld f).entriesOf k = b.entriesOf k := rfl
@[simp] theorem Blocks.modHeld_trackedCount (f : HeldQueue → HeldQueue) (k : CtxId) : (b.modHeld f).trackedCount k = b.trackedCount k := rfl

/-! ### modMem -/

@[simp] theorem Blocks.modMem_req (f : MemoryPort → MemoryPort) : (b.modMem f).req = b.req := rfl
@[simp] theorem Blocks.modMem_epochs (f : MemoryPort → MemoryPort) : (b.modMem f).epochs = b.epochs := rfl
@[simp] theorem Blocks.modMem_track (f : MemoryPort → MemoryPort) : (b.modMem f).track = b.track := rfl
@[simp] theorem Blocks.modMem_journal (f : MemoryPort → MemoryPort) : (b.modMem f).journal = b.journal := rfl
@[simp] theorem Blocks.modMem_held (f : MemoryPort → MemoryPort) : (b.modMem f).held = b.held := rfl
@[simp] theorem Blocks.modMem_mem (f : MemoryPort → MemoryPort) : (b.modMem f).mem = f b.mem := rfl
@[simp] theorem Blocks.modMem_recovery (f : MemoryPort → MemoryPort) : (b.modMem f).recovery = b.recovery := rfl
@[simp] theorem Blocks.modMem_events (f : MemoryPort → MemoryPort) : (b.modMem f).events = b.events := rfl
@[simp] theorem Blocks.modMem_clock (f : MemoryPort → MemoryPort) : (b.modMem f).clock = b.clock := rfl
@[simp] theorem Blocks.modMem_nextCapture (f : MemoryPort → MemoryPort) : (b.modMem f).nextCapture = b.nextCapture := rfl
@[simp] theorem Blocks.modMem_free (f : MemoryPort → MemoryPort) : (b.modMem f).free = b.free := rfl
@[simp] theorem Blocks.modMem_stream (f : MemoryPort → MemoryPort) (k : StreamId) : (b.modMem f).stream k = b.stream k := rfl
@[simp] theorem Blocks.modMem_ctx (f : MemoryPort → MemoryPort) (k : CtxId) : (b.modMem f).ctx k = b.ctx k := rfl
@[simp] theorem Blocks.modMem_entryOf (f : MemoryPort → MemoryPort) (l : Addr) : (b.modMem f).entryOf l = b.entryOf l := rfl
@[simp] theorem Blocks.modMem_entriesOf (f : MemoryPort → MemoryPort) (k : CtxId) : (b.modMem f).entriesOf k = b.entriesOf k := rfl
@[simp] theorem Blocks.modMem_trackedCount (f : MemoryPort → MemoryPort) (k : CtxId) : (b.modMem f).trackedCount k = b.trackedCount k := rfl
@[simp] theorem Blocks.modMem_heldCount (f : MemoryPort → MemoryPort) (k : CtxId) : (b.modMem f).heldCount k = b.heldCount k := rfl

/-! ### modRecovery -/

@[simp] theorem Blocks.modRecovery_req (f : RecoveryEngine → RecoveryEngine) : (b.modRecovery f).req = b.req := rfl
@[simp] theorem Blocks.modRecovery_epochs (f : RecoveryEngine → RecoveryEngine) : (b.modRecovery f).epochs = b.epochs := rfl
@[simp] theorem Blocks.modRecovery_track (f : RecoveryEngine → RecoveryEngine) : (b.modRecovery f).track = b.track := rfl
@[simp] theorem Blocks.modRecovery_journal (f : RecoveryEngine → RecoveryEngine) : (b.modRecovery f).journal = b.journal := rfl
@[simp] theorem Blocks.modRecovery_held (f : RecoveryEngine → RecoveryEngine) : (b.modRecovery f).held = b.held := rfl
@[simp] theorem Blocks.modRecovery_mem (f : RecoveryEngine → RecoveryEngine) : (b.modRecovery f).mem = b.mem := rfl
@[simp] theorem Blocks.modRecovery_recovery (f : RecoveryEngine → RecoveryEngine) : (b.modRecovery f).recovery = f b.recovery := rfl
@[simp] theorem Blocks.modRecovery_events (f : RecoveryEngine → RecoveryEngine) : (b.modRecovery f).events = b.events := rfl
@[simp] theorem Blocks.modRecovery_clock (f : RecoveryEngine → RecoveryEngine) : (b.modRecovery f).clock = b.clock := rfl
@[simp] theorem Blocks.modRecovery_nextCapture (f : RecoveryEngine → RecoveryEngine) : (b.modRecovery f).nextCapture = b.nextCapture := rfl
@[simp] theorem Blocks.modRecovery_free (f : RecoveryEngine → RecoveryEngine) : (b.modRecovery f).free = b.free := rfl
@[simp] theorem Blocks.modRecovery_stream (f : RecoveryEngine → RecoveryEngine) (k : StreamId) : (b.modRecovery f).stream k = b.stream k := rfl
@[simp] theorem Blocks.modRecovery_ctx (f : RecoveryEngine → RecoveryEngine) (k : CtxId) : (b.modRecovery f).ctx k = b.ctx k := rfl
@[simp] theorem Blocks.modRecovery_entryOf (f : RecoveryEngine → RecoveryEngine) (l : Addr) : (b.modRecovery f).entryOf l = b.entryOf l := rfl
@[simp] theorem Blocks.modRecovery_entriesOf (f : RecoveryEngine → RecoveryEngine) (k : CtxId) : (b.modRecovery f).entriesOf k = b.entriesOf k := rfl
@[simp] theorem Blocks.modRecovery_trackedCount (f : RecoveryEngine → RecoveryEngine) (k : CtxId) : (b.modRecovery f).trackedCount k = b.trackedCount k := rfl
@[simp] theorem Blocks.modRecovery_heldCount (f : RecoveryEngine → RecoveryEngine) (k : CtxId) : (b.modRecovery f).heldCount k = b.heldCount k := rfl

/-! ### modEvents -/

@[simp] theorem Blocks.modEvents_req (f : EventUnit → EventUnit) : (b.modEvents f).req = b.req := rfl
@[simp] theorem Blocks.modEvents_epochs (f : EventUnit → EventUnit) : (b.modEvents f).epochs = b.epochs := rfl
@[simp] theorem Blocks.modEvents_track (f : EventUnit → EventUnit) : (b.modEvents f).track = b.track := rfl
@[simp] theorem Blocks.modEvents_journal (f : EventUnit → EventUnit) : (b.modEvents f).journal = b.journal := rfl
@[simp] theorem Blocks.modEvents_held (f : EventUnit → EventUnit) : (b.modEvents f).held = b.held := rfl
@[simp] theorem Blocks.modEvents_mem (f : EventUnit → EventUnit) : (b.modEvents f).mem = b.mem := rfl
@[simp] theorem Blocks.modEvents_recovery (f : EventUnit → EventUnit) : (b.modEvents f).recovery = b.recovery := rfl
@[simp] theorem Blocks.modEvents_events (f : EventUnit → EventUnit) : (b.modEvents f).events = f b.events := rfl
@[simp] theorem Blocks.modEvents_clock (f : EventUnit → EventUnit) : (b.modEvents f).clock = b.clock := rfl
@[simp] theorem Blocks.modEvents_nextCapture (f : EventUnit → EventUnit) : (b.modEvents f).nextCapture = b.nextCapture := rfl
@[simp] theorem Blocks.modEvents_free (f : EventUnit → EventUnit) : (b.modEvents f).free = b.free := rfl
@[simp] theorem Blocks.modEvents_stream (f : EventUnit → EventUnit) (k : StreamId) : (b.modEvents f).stream k = b.stream k := rfl
@[simp] theorem Blocks.modEvents_ctx (f : EventUnit → EventUnit) (k : CtxId) : (b.modEvents f).ctx k = b.ctx k := rfl
@[simp] theorem Blocks.modEvents_entryOf (f : EventUnit → EventUnit) (l : Addr) : (b.modEvents f).entryOf l = b.entryOf l := rfl
@[simp] theorem Blocks.modEvents_entriesOf (f : EventUnit → EventUnit) (k : CtxId) : (b.modEvents f).entriesOf k = b.entriesOf k := rfl
@[simp] theorem Blocks.modEvents_trackedCount (f : EventUnit → EventUnit) (k : CtxId) : (b.modEvents f).trackedCount k = b.trackedCount k := rfl
@[simp] theorem Blocks.modEvents_heldCount (f : EventUnit → EventUnit) (k : CtxId) : (b.modEvents f).heldCount k = b.heldCount k := rfl

/-! ### modTrack -/

@[simp] theorem Blocks.modTrack_req (f : List TrackEntry → List TrackEntry) : (b.modTrack f).req = b.req := rfl
@[simp] theorem Blocks.modTrack_epochs (f : List TrackEntry → List TrackEntry) : (b.modTrack f).epochs = b.epochs := rfl
@[simp] theorem Blocks.modTrack_track (f : List TrackEntry → List TrackEntry) : (b.modTrack f).track = f b.track := rfl
@[simp] theorem Blocks.modTrack_journal (f : List TrackEntry → List TrackEntry) : (b.modTrack f).journal = b.journal := rfl
@[simp] theorem Blocks.modTrack_held (f : List TrackEntry → List TrackEntry) : (b.modTrack f).held = b.held := rfl
@[simp] theorem Blocks.modTrack_mem (f : List TrackEntry → List TrackEntry) : (b.modTrack f).mem = b.mem := rfl
@[simp] theorem Blocks.modTrack_recovery (f : List TrackEntry → List TrackEntry) : (b.modTrack f).recovery = b.recovery := rfl
@[simp] theorem Blocks.modTrack_events (f : List TrackEntry → List TrackEntry) : (b.modTrack f).events = b.events := rfl
@[simp] theorem Blocks.modTrack_clock (f : List TrackEntry → List TrackEntry) : (b.modTrack f).clock = b.clock := rfl
@[simp] theorem Blocks.modTrack_nextCapture (f : List TrackEntry → List TrackEntry) : (b.modTrack f).nextCapture = b.nextCapture := rfl
@[simp] theorem Blocks.modTrack_free (f : List TrackEntry → List TrackEntry) : (b.modTrack f).free = b.free := rfl
@[simp] theorem Blocks.modTrack_stream (f : List TrackEntry → List TrackEntry) (k : StreamId) : (b.modTrack f).stream k = b.stream k := rfl
@[simp] theorem Blocks.modTrack_ctx (f : List TrackEntry → List TrackEntry) (k : CtxId) : (b.modTrack f).ctx k = b.ctx k := rfl
@[simp] theorem Blocks.modTrack_heldCount (f : List TrackEntry → List TrackEntry) (k : CtxId) : (b.modTrack f).heldCount k = b.heldCount k := rfl

/-! ### reachTime -/

@[simp] theorem Blocks.reachTime_req (t : Nat) : (b.reachTime t).req = b.req := rfl
@[simp] theorem Blocks.reachTime_epochs (t : Nat) : (b.reachTime t).epochs = b.epochs := rfl
@[simp] theorem Blocks.reachTime_track (t : Nat) : (b.reachTime t).track = b.track := rfl
@[simp] theorem Blocks.reachTime_journal (t : Nat) : (b.reachTime t).journal = b.journal := rfl
@[simp] theorem Blocks.reachTime_held (t : Nat) : (b.reachTime t).held = b.held := rfl
@[simp] theorem Blocks.reachTime_mem (t : Nat) : (b.reachTime t).mem = b.mem := rfl
@[simp] theorem Blocks.reachTime_recovery (t : Nat) : (b.reachTime t).recovery = b.recovery := rfl
@[simp] theorem Blocks.reachTime_events (t : Nat) : (b.reachTime t).events = b.events := rfl
@[simp] theorem Blocks.reachTime_clock (t : Nat) : (b.reachTime t).clock = max b.clock t := rfl
@[simp] theorem Blocks.reachTime_nextCapture (t : Nat) : (b.reachTime t).nextCapture = b.nextCapture := rfl
@[simp] theorem Blocks.reachTime_free (t : Nat) : (b.reachTime t).free = b.free := rfl
@[simp] theorem Blocks.reachTime_stream (t : Nat) (k : StreamId) : (b.reachTime t).stream k = b.stream k := rfl
@[simp] theorem Blocks.reachTime_ctx (t : Nat) (k : CtxId) : (b.reachTime t).ctx k = b.ctx k := rfl
@[simp] theorem Blocks.reachTime_entryOf (t : Nat) (l : Addr) : (b.reachTime t).entryOf l = b.entryOf l := rfl
@[simp] theorem Blocks.reachTime_entriesOf (t : Nat) (k : CtxId) : (b.reachTime t).entriesOf k = b.entriesOf k := rfl
@[simp] theorem Blocks.reachTime_trackedCount (t : Nat) (k : CtxId) : (b.reachTime t).trackedCount k = b.trackedCount k := rfl
@[simp] theorem Blocks.reachTime_heldCount (t : Nat) (k : CtxId) : (b.reachTime t).heldCount k = b.heldCount k := rfl

/-! ### The records themselves -/

/-- Reading a stream record after an update of one. -/
theorem Blocks.modStream_stream (i k : StreamId) (f : StreamRec → StreamRec) :
    (b.modStream i f).stream k = if k = i then f (b.stream i) else b.stream k := by
  unfold Blocks.modStream Blocks.stream
  by_cases h : k = i
  · subst h; simp
  · have : i.val ≠ k.val := fun e => h (Fin.ext e.symm)
    simp [h, this]

@[simp] theorem Blocks.modStream_stream_same (i : StreamId) (f : StreamRec → StreamRec) :
    (b.modStream i f).stream i = f (b.stream i) := by simp [Blocks.modStream_stream]

@[simp] theorem Blocks.mapStreams_stream (f : StreamId → StreamRec → StreamRec) (k : StreamId) :
    (b.mapStreams f).stream k = f k (b.stream k) := by
  simp [Blocks.mapStreams, Blocks.stream]

/-- Reading a context record after an update of one. -/
theorem Blocks.modCtx_ctx (c k : CtxId) (f : Context → Context) :
    (b.modCtx c f).ctx k = if k = c then f (b.ctx c) else b.ctx k := by
  unfold Blocks.modCtx Blocks.ctx
  by_cases h : k = c
  · subst h; simp
  · have : c.val ≠ k.val := fun e => h (Fin.ext e.symm)
    simp [h, this]

@[simp] theorem Blocks.modCtx_ctx_same (c : CtxId) (f : Context → Context) :
    (b.modCtx c f).ctx c = f (b.ctx c) := by simp [Blocks.modCtx_ctx]

@[simp] theorem Blocks.modCtx_counter (c : CtxId) (f : Context → Context) :
    (b.modCtx c f).epochs.counter = b.epochs.counter := rfl

/-- Two stream tables with equal records are equal. -/
theorem RequestPort.ext_stream {p q : RequestPort} (h : ∀ k : StreamId, p.streams[k] = q.streams[k]) : p = q := by
  cases p with
  | mk v =>
    cases q with
    | mk w =>
      congr 1
      ext k hk : 1
      exact h ⟨k, hk⟩

/-- An update of a stream record that changes nothing. -/
theorem Blocks.modStream_id (i : StreamId) (f : StreamRec → StreamRec) (h : f (b.stream i) = b.stream i) :
    b.modStream i f = b := by
  unfold Blocks.modStream
  have : (⟨b.req.streams.set i.val (f b.req.streams[i])⟩ : RequestPort) = b.req := by
    apply RequestPort.ext_stream
    intro k
    have := Blocks.modStream_stream b i k f
    unfold Blocks.modStream Blocks.stream at this
    simp only at this
    rw [this]
    by_cases hk : k = i
    · subst hk; simpa [Blocks.stream] using h
    · simp [hk]
  rw [this]

/-- Two updates of one stream record are one. -/
theorem Blocks.modStream_modStream (i : StreamId) (f g : StreamRec → StreamRec) :
    (b.modStream i f).modStream i g = b.modStream i (fun r => g (f r)) := by
  have : ((b.modStream i f).modStream i g).req = (b.modStream i (fun r => g (f r))).req := by
    apply RequestPort.ext_stream
    intro k
    show ((b.modStream i f).modStream i g).stream k = (b.modStream i (fun r => g (f r))).stream k
    by_cases hk : k = i
    · subst hk; simp
    · simp [Blocks.modStream_stream, hk]
  unfold Blocks.modStream at this ⊢
  simp only at this ⊢
  rw [this]

/-- Two updates of one context record are one. -/
theorem Blocks.modCtx_modCtx (c : CtxId) (f g : Context → Context) :
    (b.modCtx c f).modCtx c g = b.modCtx c (fun x => g (f x)) := by
  unfold Blocks.modCtx
  simp

/-! ### Lists of all numbers -/

@[simp] theorem mem_allStreams (i : StreamId) : i ∈ allStreams := by revert i; decide
@[simp] theorem mem_allCtxs (c : CtxId) : c ∈ allCtxs := by revert c; decide
@[simp] theorem mem_allSlots (k : SlotNo) : k ∈ allSlots := by revert k; decide

end Sys2Proof.Machine
end

