-- ==== Sys2Proof/Laws/Event.lean ====
section
/-! SUPPORT. What the rest of an event does: nothing in a part where nothing is due, one request where one is to be
handled, and the frame of the grants. -/

namespace Sys2Proof.Laws

open Sys2Proof.Machine Sys2Proof.Safety

/-! ## The terms of Safety -/

theorem still_iff (cfg : Image) (b : Blocks) : still cfg b = true ↔
    (∀ c, drainDue b c = false ∧ quiesceDue b c = false ∧ nextRestore b c = none ∧ retireDue b c = false)
      ∧ serveOne cfg b = none ∧ (∀ e ∈ b.held.entries, releaseDue b e = false)
      ∧ ∀ i, barrierDue b i = false ∧ countDue b i = false := by
  simp [still, List.all_eq_true, Option.isNone_iff_eq_none, and_assoc]

theorem noFresh_iff (b : Blocks) : noFresh b = true ↔ ∀ i, (b.stream i).phase ≠ .fresh := by
  simp [noFresh, List.all_eq_true]

theorem noStall_iff (b : Blocks) : noStall b = true ↔ ∀ i c, (b.stream i).phase ≠ .stalled c := by
  simp only [noStall, List.all_eq_true, mem_allStreams, true_implies]
  constructor
  · intro h i c hc
    have := h i
    simp [hc] at this
  · intro h i
    cases hp : (b.stream i).phase <;> simp
    exact h i _ hp

theorem atRest_iff (s : State) : atRest s = true ↔
    s.pins.resetLow = false ∧ s.blocks.journal.notice = false ∧ still s.mgmt.active s.blocks = true
      ∧ noFresh s.blocks = true ∧ grantOne s.mgmt.active s.blocks = none := by
  simp [atRest, Option.isNone_iff_eq_none, and_assoc]

theorem calm_iff (s : State) : calm s = true ↔ atRest s = true ∧ noStall s.blocks = true := by
  simp [calm]

theorem idleStream_iff (r : StreamRec) : idleStream r = true ↔
    r.queue = [] ∧ r.phase = .idle ∧ r.conflict = none ∧ r.captureStall = none := by
  simp [idleStream, and_assoc]

/-! ## Progress -/

theorem contextStep_still {cfg : Image} {b : Blocks} (h : still cfg b = true) (c : CtxId) : contextStep cfg b c = b := by
  obtain ⟨hd, hq, hr, ht⟩ := ((still_iff cfg b).1 h).1 c
  unfold contextStep
  split
  · simp [hd]
  · simp [rollbackStep, hq, fillSlots, hr, ht]
  · rfl

theorem foldl_fixed {α β : Type} (f : β → α → β) (b : β) (l : List α) (h : ∀ a ∈ l, f b a = b) : l.foldl f b = b := by
  induction l with
  | nil => rfl
  | cons a l ih =>
    rw [List.foldl_cons, h a (by simp)]
    exact ih fun x hx => h x (by simp [hx])

/-- Where nothing is due, nothing goes on. -/
theorem progress_still {cfg : Image} {b : Blocks} (h : still cfg b = true) : progress cfg b = b := by
  obtain ⟨_, hs, hr, hb⟩ := (still_iff cfg b).1 h
  have h1 : allCtxs.foldl (contextStep cfg) b = b := foldl_fixed _ _ _ fun c _ => contextStep_still h c
  have h2 : serveBuffer cfg Config.stagingCapacity b = b := by
    unfold Config.stagingCapacity serveBuffer
    simp [hs]
  have h3 : requestReleases b = b := by
    have : b.held.entries.filter (releaseDue b) = [] := by
      rw [List.filter_eq_nil_iff]
      intro e he
      simp [hr e he]
    simp [requestReleases, this]
  have h4 : answerBarriers b = b := by
    have : allStreams.filter (barrierDue b) = [] := by
      rw [List.filter_eq_nil_iff]
      intro i _
      simp [(hb i).1]
    simp [answerBarriers, this]
  have h5 : handOnCounts b = b := by
    have : allStreams.filter (countDue b) = [] := by
      rw [List.filter_eq_nil_iff]
      intro i _
      simp [(hb i).2]
    simp [handOnCounts, this]
  simp [progress, h1, h2, h3, h4, h5]

/-! ## Handling the current requests -/

theorem freshStreams_none {b : Blocks} (h : noFresh b = true) : freshStreams b = [] := by
  unfold freshStreams
  rw [List.filter_eq_nil_iff]
  intro i _
  simpa using (noFresh_iff b).1 h i

/-- Where nothing is due and no request is to be handled, nothing happens. -/
theorem settle_still {cfg : Image} {b : Blocks} (h : still cfg b = true) (hf : noFresh b = true) (n : Nat) :
    settle cfg n b = b := by
  cases n with
  | zero => simp [settle, progress_still h]
  | succ n => simp [settle, progress_still h, handleNext, freshStreams_none hf, chooseFrom]

theorem freshStreams_one {b : Blocks} {i : StreamId} (h : ∀ k, (b.stream k).phase = .fresh ↔ k = i) :
    freshStreams b = [i] := by
  unfold freshStreams
  have : (fun k => decide ((b.stream k).phase = .fresh)) = fun k => decide (k = i) := by
    funext k
    simp [h k]
  rw [this]
  clear this h
  revert i
  decide

/-- Where nothing is due, the one request that is to be handled is handled. -/
theorem settle_one {cfg : Image} {b : Blocks} {i : StreamId} (h : still cfg b = true)
    (hf : ∀ k, (b.stream k).phase = .fresh ↔ k = i) (n : Nat) :
    settle cfg (n + 1) b = settle cfg n (handleCurrent cfg i b) := by
  simp [settle, progress_still h, handleNext, freshStreams_one hf, chooseFrom, choose]

/-! ## Grants (R129, R135) -/

/-- Without a grant to be made, none is made. -/
theorem arbitrate_none {cfg : Image} {b : Blocks} (h : grantOne cfg b = none) (n : Nat) : arbitrate cfg n b = b := by
  cases n <;> simp [arbitrate, h]

/-- The form of a grant. -/
theorem grantOne_spec {cfg : Image} {b b' : Blocks} (h : grantOne cfg b = some b') :
    b.journal.notice = false ∧ ∃ r k f, b.mem.pick = some r ∧ chooseFrom b.mem.freeSlots b.free = some (k, f) ∧
      b' = { b with free := f, held := heldAtGrant b.held r, mem := b.mem.granted k r (operationOf cfg b r) } := by
  unfold grantOne at h
  split at h
  · simp at h
  · rename_i hn
    split at h
    · rename_i r k f hp hc
      exact ⟨by simpa using hn, r, k, f, hp, hc, by simpa using h.symm⟩
    · simp at h

theorem onlyGrants_refl (b : Blocks) : OnlyGrants b b := ⟨rfl, rfl, rfl, rfl, rfl, rfl, rfl, rfl, rfl, rfl, rfl⟩

theorem onlyGrants_trans {a b c : Blocks} (h : OnlyGrants a b) (k : OnlyGrants b c) : OnlyGrants a c :=
  ⟨k.req.trans h.req, k.epochs.trans h.epochs, k.track.trans h.track, k.journal.trans h.journal,
    k.recovery.trans h.recovery, k.events.trans h.events, k.clock.trans h.clock, k.nextCapture.trans h.nextCapture,
    k.entries.trans h.entries, k.detached.trans h.detached, k.overlays.trans h.overlays⟩

/-- Issuing the oldest entry of a line changes nothing else. -/
theorem issueOldest_asIssued (line : Addr) (l : List HeldEntry) :
    (issueOldest line l).map asIssued = l.map asIssued := by
  induction l with
  | nil => rfl
  | cons e rest ih =>
    unfold issueOldest
    split
    · simp [asIssued]
    · simp [ih]

theorem heldAtGrant_entries (h : HeldQueue) (r : MemRequest) :
    (heldAtGrant h r).entries.map asIssued = h.entries.map asIssued := by
  unfold heldAtGrant
  split
  · exact issueOldest_asIssued _ _
  · rfl

theorem heldAtGrant_detached (h : HeldQueue) (r : MemRequest) : (heldAtGrant h r).detached = h.detached := by
  unfold heldAtGrant; split <;> rfl

theorem heldAtGrant_overlays (h : HeldQueue) (r : MemRequest) : (heldAtGrant h r).overlays = h.overlays := by
  unfold heldAtGrant; split <;> rfl

theorem grantOne_frame {cfg : Image} {b b' : Blocks} (h : grantOne cfg b = some b') : OnlyGrants b b' := by
  obtain ⟨_, r, k, f, _, _, rfl⟩ := grantOne_spec h
  exact ⟨rfl, rfl, rfl, rfl, rfl, rfl, rfl, rfl, heldAtGrant_entries _ _, heldAtGrant_detached _ _, heldAtGrant_overlays _ _⟩

/-- The grants change nothing but the free choices, the Memory Port and the states of released held entries. -/
theorem arbitrate_frame (cfg : Image) (n : Nat) (b : Blocks) : OnlyGrants b (arbitrate cfg n b) := by
  induction n generalizing b with
  | zero => exact onlyGrants_refl b
  | succ n ih =>
    unfold arbitrate
    split
    · rename_i b' h
      exact onlyGrants_trans (grantOne_frame h) (ih b')
    · exact onlyGrants_refl b

/-- Grants of a port in which no release waits leave the Held Write Queue as it is. -/
theorem heldAtGrant_other {h : HeldQueue} {r : MemRequest} (hr : ∀ l, r.owner ≠ .release l) : heldAtGrant h r = h := by
  unfold heldAtGrant
  split
  · rename_i l hl; exact absurd hl (hr l)
  · rfl

/-! ## The end of an event -/

theorem enterSafe_live {b : Blocks} (h : b.journal.notice = false) : enterSafe b = b := by simp [enterSafe, h]

/-- An event of a part in which nothing is due afterwards: the grants are all that follows. -/
theorem finishEvent_still {cfg : Image} {b : Blocks} (h : still cfg b = true) (hf : noFresh b = true)
    (hn : b.journal.notice = false) : finishEvent cfg b = arbitrate cfg 32 b := by
  unfold finishEvent
  rw [settle_still h hf]
  exact enterSafe_live (by rw [(arbitrate_frame cfg 32 b).journal]; exact hn)

/-- An event that handles one request, after which nothing is due. -/
theorem finishEvent_one {cfg : Image} {b : Blocks} {i : StreamId} (h : still cfg b = true)
    (hf : ∀ k, (b.stream k).phase = .fresh ↔ k = i) (h' : still cfg (handleCurrent cfg i b) = true)
    (hf' : noFresh (handleCurrent cfg i b) = true) (hn : (handleCurrent cfg i b).journal.notice = false) :
    finishEvent cfg b = arbitrate cfg 32 (handleCurrent cfg i b) := by
  unfold finishEvent settleBound
  rw [settle_one h hf, settle_still h' hf']
  exact enterSafe_live (by rw [(arbitrate_frame cfg 32 _).journal]; exact hn)

end Sys2Proof.Laws
end

