-- ==== Sys2Proof/Laws/Rest.lean ====
section
/-! SUPPORT. When a part in which nothing is due stays so: what `still` and the grants depend on. -/

namespace Sys2Proof.Laws

open Sys2Proof.Machine Sys2Proof.Safety

/-! ## Free choices (log 2) -/

theorem choose_lt {n : Nat} (h : 0 < n) (f : FreeChoices) : (choose n f).1 < n := by
  unfold choose
  split
  · simpa using h
  · split
    · exact Nat.mod_lt _ h
    · exact Nat.mod_lt _ h

theorem chooseFrom_none {α : Type} {l : List α} {f : FreeChoices} : chooseFrom l f = none ↔ l = [] := by
  constructor
  · intro h
    by_contra hl
    have hlt := choose_lt (List.length_pos_of_ne_nil hl) f
    simp [chooseFrom, List.getElem?_eq_getElem hlt] at h
  · rintro rfl
    simp [chooseFrom]

theorem chooseFrom_mem {α : Type} {l : List α} {f g : FreeChoices} {a : α} (h : chooseFrom l f = some (a, g)) :
    a ∈ l := by
  unfold chooseFrom at h
  rw [Option.map_eq_some_iff] at h
  obtain ⟨x, hx, he⟩ := h
  rw [Prod.mk.injEq] at he
  rw [← he.1]
  exact List.mem_of_getElem? hx

/-! ## When no grant can be made -/

theorem grantOne_none {cfg : Image} {b : Blocks} : grantOne cfg b = none ↔
    b.journal.notice = true ∨ b.mem.pick = none ∨ b.mem.freeSlots = [] := by
  unfold grantOne
  by_cases hn : b.journal.notice = true
  · simp [hn]
  · rw [if_neg hn]
    cases hp : b.mem.pick with
    | none => simp
    | some r =>
      cases hc : chooseFrom b.mem.freeSlots b.free with
      | none =>
        simp [chooseFrom_none.1 hc]
      | some x =>
        have : b.mem.freeSlots ≠ [] := fun e => by
          rw [chooseFrom_none.2 e] at hc
          cases hc
        simp [hn, this]

/-- Whether a grant can be made depends on the notice and the Memory Port alone. -/
theorem grantOne_none_congr {cfg cfg' : Image} {b b' : Blocks} (hn : b'.journal.notice = b.journal.notice)
    (hm : b'.mem = b.mem) (h : grantOne cfg b = none) : grantOne cfg' b' = none := by
  rw [grantOne_none] at h ⊢
  rwa [hn, hm]

/-- With nothing waiting, no request is picked. -/
theorem pick_empty {m : MemoryPort} (h : m.waiting = []) : m.pick = none := by
  simp [MemoryPort.pick, MemoryPort.pickClass, MemoryPort.eligibleIn, h, allClasses]

/-- The request picked waits. -/
theorem pick_mem {m : MemoryPort} {r : MemRequest} (h : m.pick = some r) : r ∈ m.waiting ∧ m.eligible r = true := by
  unfold MemoryPort.pick at h
  rw [Option.bind_eq_some_iff] at h
  obtain ⟨c, _, hc⟩ := h
  unfold MemoryPort.eligibleIn at hc
  refine ⟨List.mem_of_find?_eq_some hc, ?_⟩
  have := List.find?_some hc
  simp only [Bool.and_eq_true] at this
  exact this.2

/-! ## When the staging buffer can serve nothing -/

/-- Whether a buffer slot can be given depends on the Journal Writer alone. -/
theorem serveOne_none_congr {cfg cfg' : Image} {b b' : Blocks} (hj : b'.journal = b.journal)
    (h : serveOne cfg b = none) : serveOne cfg' b' = none := by
  unfold serveOne at h ⊢
  rw [hj]
  generalize b.journal = j at h ⊢
  simp only at h ⊢
  split at h
  · rename_i hw
    rw [if_pos hw]
  · rename_i hw
    rw [if_neg hw]
    cases hm : j.markerQueue with
    | cons m rest =>
      simp only [hm] at h ⊢
      split at h
      · cases h
      · rename_i hf
        rw [if_neg hf]
    | nil =>
      simp only [hm] at h ⊢
      cases hc : j.captureQueue with
      | nil => rfl
      | cons id rest =>
        simp only [hc] at h ⊢
        split at h
        · cases h
        · rename_i hf
          rw [if_neg hf]

/-! ## When nothing is due stays so -/

/-- What the things due depend on. -/
theorem still_of {cfg : Image} {b b' : Blocks} (h : still cfg b = true) (hc : ∀ c, (b'.ctx c).state = (b.ctx c).state)
    (hk : ∀ c, (b'.ctx c).rollback = (b.ctx c).rollback)
    (ht : b'.track = b.track) (hh : b'.held.entries = b.held.entries)
    (hx : b'.held.detached = b.held.detached) (hn : b'.journal.notice = b.journal.notice)
    (hd : b'.journal.head = b.journal.head) (hs : serveOne cfg b' = none)
    (hr : ∀ c, b'.mem.restoreOutstanding c = b.mem.restoreOutstanding c)
    (hw : ∀ l, (b.mem.waiting.any fun r => decide (r.owner = .release l)) = true →
      (b'.mem.waiting.any fun r => decide (r.owner = .release l)) = true)
    (hb : ∀ i, barrierDue b' i = false ∧ countDue b' i = false) : still cfg b' = true := by
  rw [still_iff] at h ⊢
  obtain ⟨h1, _, h3, _⟩ := h
  refine ⟨fun c => ?_, hs, ?_, hb⟩
  · obtain ⟨k1, k2, k3, k4⟩ := h1 c
    have hent : b'.entriesOf c = b.entriesOf c := by simp [Blocks.entriesOf, ht]
    have hcnt : b'.heldCount c = b.heldCount c := by simp [Blocks.heldCount, hh]
    have hri : ∀ p, rollbackIn b' c p = rollbackIn b c p := fun p => by simp [rollbackIn, hc c, hk c]
    refine ⟨?_, ?_, ?_, ?_⟩
    · have : b'.capturing c = b.capturing c := by simp [Blocks.capturing, ht]
      rw [← k1]
      simp [drainDue, hc c, hcnt, this]
    · rw [← k2]
      simp [quiesceDue, hri, hcnt, hr c]
    · rw [← k3]
      have hu : ∀ r, unslotted b' c r = unslotted b c r := fun r => by simp [unslotted, hent]
      unfold nextRestore
      rw [hri, hn, hd]
      split
      · simp [hu]
      · rfl
    · rw [← k4]
      simp [retireDue, hri, hent]
  · intro e he
    rw [hh] at he
    have k := h3 e he
    simp only [releaseDue, HeldQueue.oldest, HeldQueue.hasDetached, hh, hx, hn, Bool.and_eq_false_iff, Bool.not_eq_false'] at k ⊢
    rcases k with ((k | k) | k) | k
    · exact .inl (.inl (.inl k))
    · exact .inl (.inl (.inr k))
    · exact .inl (.inr (hw _ k))
    · exact .inr k

/-- A change of one stream's record, in which no BARRIER and no held WRITE becomes due. -/
theorem still_modStream {cfg : Image} {b : Blocks} (h : still cfg b = true) (i : StreamId)
    (f : StreamRec → StreamRec) (hb : barrierDue (b.modStream i f) i = false ∧ countDue (b.modStream i f) i = false) :
    still cfg (b.modStream i f) = true := by
  refine still_of h (fun c => rfl) (fun c => rfl) rfl rfl rfl rfl rfl ?_ (fun c => rfl) (fun l hl => hl) ?_
  · exact serveOne_none_congr (b := b) (cfg := cfg) rfl ((still_iff cfg b).1 h).2.1
  · intro k
    by_cases hk : k = i
    · subst hk; exact hb
    · have := ((still_iff cfg b).1 h).2.2.2 k
      simp only [barrierDue, countDue, Blocks.modStream_stream, if_neg hk] at this ⊢
      exact this

/-- A stream that is not waiting as a BARRIER or at a full count has neither due. -/
theorem notDue_of_phase {b : Blocks} {i : StreamId} (h1 : ∀ l, (b.stream i).phase ≠ .barrier l)
    (h2 : (b.stream i).phase ≠ .countHold) : barrierDue b i = false ∧ countDue b i = false := by
  constructor
  · unfold barrierDue
    split
    · rename_i l hl; exact absurd hl (h1 l)
    · rfl
  · unfold countDue
    split
    · rename_i hl; exact absurd hl h2
    · rfl

/-- A request handed to the Memory Port makes nothing due. -/
theorem still_handOver {cfg : Image} {b : Blocks} (h : still cfg b = true) (op : MemOp) (cls : MemClass) (o : Owner) :
    still cfg (handOver op cls o b) = true := by
  unfold handOver
  split
  · exact h
  · refine still_of h (fun c => rfl) (fun c => rfl) rfl rfl rfl rfl rfl ?_ (fun c => rfl) ?_ ?_
    · exact serveOne_none_congr (b := b) (cfg := cfg) rfl ((still_iff cfg b).1 h).2.1
    · intro l hl
      simp only [Blocks.modMem_mem, List.any_append, Bool.or_eq_true]
      exact .inl hl
    · exact ((still_iff cfg b).1 h).2.2.2

/-! ## Fields after a hand-over -/

theorem handOver_live {b : Blocks} (h : b.journal.notice = false) (op : MemOp) (cls : MemClass) (o : Owner) :
    handOver op cls o b = b.modMem fun m =>
      { m with waiting := m.waiting ++ [⟨op, cls, o, m.nextOrder⟩], nextOrder := m.nextOrder + 1 } := by
  simp [handOver, h]

theorem handOver_noticed {b : Blocks} (h : b.journal.notice = true) (op : MemOp) (cls : MemClass) (o : Owner) :
    handOver op cls o b = b := by
  simp [handOver, h]

/-- A hand-over changes nothing but the Memory Port. -/
theorem handOver_frame (op : MemOp) (cls : MemClass) (o : Owner) (b : Blocks) :
    ∃ m, handOver op cls o b = { b with mem := m } ∧ m.slots = b.mem.slots := by
  unfold handOver
  split
  · exact ⟨b.mem, rfl, rfl⟩
  · exact ⟨_, rfl, rfl⟩

@[simp] theorem handOver_stream (op : MemOp) (cls : MemClass) (o : Owner) (b : Blocks) (k : StreamId) :
    (handOver op cls o b).stream k = b.stream k := by
  obtain ⟨m, h, _⟩ := handOver_frame op cls o b
  rw [h]
  rfl

@[simp] theorem handOver_ctx (op : MemOp) (cls : MemClass) (o : Owner) (b : Blocks) (k : CtxId) :
    (handOver op cls o b).ctx k = b.ctx k := by
  obtain ⟨m, h, _⟩ := handOver_frame op cls o b
  rw [h]
  rfl

@[simp] theorem handOver_journal (op : MemOp) (cls : MemClass) (o : Owner) (b : Blocks) :
    (handOver op cls o b).journal = b.journal := by
  obtain ⟨m, h, _⟩ := handOver_frame op cls o b
  rw [h]

@[simp] theorem handOver_held (op : MemOp) (cls : MemClass) (o : Owner) (b : Blocks) :
    (handOver op cls o b).held = b.held := by
  obtain ⟨m, h, _⟩ := handOver_frame op cls o b
  rw [h]

@[simp] theorem handOver_track (op : MemOp) (cls : MemClass) (o : Owner) (b : Blocks) :
    (handOver op cls o b).track = b.track := by
  obtain ⟨m, h, _⟩ := handOver_frame op cls o b
  rw [h]

/-! ## Events of a part at rest -/

/-- A command's effect that leaves nothing due and no grant to make is the whole event. -/
theorem finishEvent_rest {cfg : Image} {b : Blocks} (h : still cfg b = true) (hf : noFresh b = true)
    (hn : b.journal.notice = false) (hg : grantOne cfg b = none) : finishEvent cfg b = b := by
  rw [finishEvent_still h hf hn, arbitrate_none hg]

/-- A request that arrives on an idle stream becomes the current request (R138). -/
theorem arrive_idle {b : Blocks} {i : StreamId} (hn : b.journal.notice = false) (hq : (b.stream i).queue = [])
    (q : Request) : arrive i q b = b.modStream i fun r => { r with queue := [q], phase := .fresh } := by
  have h : arrive i q b = b.modStream i fun r => r.enqueue q := by
    simp [arrive, hn, hq]
  rw [h]
  have : (b.stream i).enqueue q = { b.stream i with queue := [q], phase := .fresh } := by
    simp [StreamRec.enqueue, hq]
  unfold Blocks.modStream
  unfold Blocks.stream at this
  simp only [this]

/-- The event of a request that arrives on an idle stream of a part at rest, when handling it leaves nothing due. -/
theorem event_arrive {s : State} {i : StreamId} (hs : atRest s = true) (hi : idleStream (s.blocks.stream i) = true)
    (q : Request) {b' : Blocks}
    (hb : handleCurrent s.mgmt.active i
      (s.blocks.modStream i fun r => { r with queue := [q], phase := .fresh }) = b')
    (h' : still s.mgmt.active b' = true) (hf' : noFresh b' = true) (hn' : b'.journal.notice = false) :
    s.event (arrive i q) = { s with blocks := arbitrate s.mgmt.active 32 b' } := by
  obtain ⟨hup, hn, hst, hfr, _⟩ := (atRest_iff s).1 hs
  obtain ⟨hq, _, _, _⟩ := (idleStream_iff _).1 hi
  subst hb
  unfold State.event
  rw [if_neg (by simp [hup]), arrive_idle hn hq]
  rw [finishEvent_one (i := i) (still_modStream hst i _ (notDue_of_phase (by simp) (by simp))) ?_ h' hf' hn']
  intro k
  by_cases hk : k = i
  · subst hk; simp
  · have := (noFresh_iff _).1 hfr k
    simp [Blocks.modStream_stream, hk, this]

end Sys2Proof.Laws
end

