-- ==== Sys2Proof/Laws/Grants.lean ====
section
/-! SUPPORT. What a grant does to the Memory Port: operations that are outstanding stay so, and a request that is
granted becomes an outstanding operation of its owner. -/

namespace Sys2Proof.Laws

open Sys2Proof.Machine Sys2Proof.Safety

/-! ## Slots and operations -/

theorem mem_ops {m : MemoryPort} {o : Outstanding} : o ∈ m.ops ↔ ∃ k : SlotNo, m.slots[k] = some o := by
  unfold MemoryPort.ops
  simp only [List.mem_filterMap, Vector.mem_toList_iff, id]
  constructor
  · rintro ⟨x, hx, rfl⟩
    obtain ⟨i, hi, hx⟩ := Vector.mem_iff_getElem.1 hx
    exact ⟨⟨i, hi⟩, hx⟩
  · rintro ⟨k, hk⟩
    exact ⟨some o, by rw [← hk]; exact Vector.getElem_mem _, rfl⟩

theorem mem_freeSlots {m : MemoryPort} {k : SlotNo} : k ∈ m.freeSlots ↔ m.slots[k] = none := by
  simp [MemoryPort.freeSlots, Option.isNone_iff_eq_none]

theorem settleCounts_slots (m : MemoryPort) : m.settleCounts.slots = m.slots := rfl
theorem settleCounts_waiting (m : MemoryPort) : m.settleCounts.waiting = m.waiting := rfl
theorem settleCounts_issue (m : MemoryPort) : m.settleCounts.issue = m.issue := rfl

/-- The slots after a grant. -/
theorem granted_slot (m : MemoryPort) (k j : SlotNo) (r : MemRequest) (o : Outstanding) :
    (m.granted k r o).slots[j] = if j = k then some o else m.slots[j] := by
  unfold MemoryPort.granted
  rw [settleCounts_slots]
  by_cases h : j = k
  · subst h; simp
  · have : k.val ≠ j.val := fun e => h (Fin.ext e.symm)
    simp [h, this]

theorem granted_waiting (m : MemoryPort) (k : SlotNo) (r : MemRequest) (o : Outstanding) :
    (m.granted k r o).waiting = m.waiting.erase r := rfl

/-- A grant leaves the outstanding operations where they are. -/
theorem grantOne_slot {cfg : Image} {b b' : Blocks} (h : grantOne cfg b = some b') {k : SlotNo} {o : Outstanding}
    (hk : b.mem.slots[k] = some o) : b'.mem.slots[k] = some o := by
  obtain ⟨_, r, j, f, _, hc, rfl⟩ := grantOne_spec h
  have hj := mem_freeSlots.1 (chooseFrom_mem hc)
  show (b.mem.granted j r (operationOf cfg b r)).slots[k] = some o
  rw [granted_slot]
  split
  · rename_i e; subst e; rw [hj] at hk; cases hk
  · exact hk

theorem arbitrate_some {cfg : Image} {b b' : Blocks} (h : grantOne cfg b = some b') (n : Nat) :
    arbitrate cfg (n + 1) b = arbitrate cfg n b' := by
  simp [arbitrate, h]

/-- The grants leave the outstanding operations where they are. -/
theorem arbitrate_slot (cfg : Image) (n : Nat) {b : Blocks} {k : SlotNo} {o : Outstanding}
    (hk : b.mem.slots[k] = some o) : (arbitrate cfg n b).mem.slots[k] = some o := by
  induction n generalizing b with
  | zero => exact hk
  | succ n ih =>
    cases h : grantOne cfg b with
    | some b' =>
      rw [arbitrate_some h]
      exact ih (grantOne_slot h hk)
    | none =>
      rw [arbitrate_none h]
      exact hk

/-! ## Requests at the port -/

theorem inPort_iff (m : MemoryPort) (op : MemOp) (w : Owner) : inPort m op w = true ↔
    (∃ r ∈ m.waiting, r.op = op ∧ r.owner = w) ∨ ∃ k : SlotNo, ∃ o, m.slots[k] = some o ∧ o.op = op ∧ o.owner = w := by
  simp only [inPort, Bool.or_eq_true, List.any_eq_true, decide_eq_true_eq]
  constructor
  · rintro (h | ⟨o, ho, h⟩)
    · exact .inl h
    · obtain ⟨k, hk⟩ := mem_ops.1 ho
      exact .inr ⟨k, o, hk, h⟩
  · rintro (h | ⟨k, o, hk, h⟩)
    · exact .inl h
    · exact .inr ⟨o, mem_ops.2 ⟨k, hk⟩, h⟩

theorem opAtGrant_other {h : HeldQueue} {r : MemRequest} (hr : ∀ l, r.owner ≠ .release l) : opAtGrant h r = r.op := by
  unfold opAtGrant
  split
  · rename_i l hl; exact absurd hl (hr l)
  · rfl

theorem grantOne_inPort {cfg : Image} {b b' : Blocks} (h : grantOne cfg b = some b') {op : MemOp} {w : Owner}
    (hw : ∀ l, w ≠ .release l) (hp : inPort b.mem op w = true) : inPort b'.mem op w = true := by
  rw [inPort_iff] at hp ⊢
  rcases hp with ⟨x, hx, hop, how⟩ | ⟨k, o, hk, ho⟩
  · obtain ⟨_, r, j, f, _, hc, rfl⟩ := grantOne_spec h
    show (∃ y ∈ (b.mem.granted j r (operationOf cfg b r)).waiting, _) ∨ ∃ k : SlotNo, ∃ o,
      (b.mem.granted j r (operationOf cfg b r)).slots[k] = some o ∧ _
    by_cases hr : x = r
    · subst hr
      refine .inr ⟨j, operationOf cfg b x, ?_, ?_, how⟩
      · rw [granted_slot, if_pos rfl]
      · rw [← hop]
        exact opAtGrant_other fun l hl => hw l (by rw [← how, hl])
    · refine .inl ⟨x, ?_, hop, how⟩
      rw [granted_waiting]
      exact (List.mem_erase_of_ne hr).2 hx
  · exact .inr ⟨k, o, grantOne_slot h hk, ho⟩

/-- A request other than a release that was handed over is still at the port after the grants. -/
theorem arbitrate_inPort (cfg : Image) (n : Nat) {b : Blocks} {op : MemOp} {w : Owner} (hw : ∀ l, w ≠ .release l)
    (hp : inPort b.mem op w = true) : inPort (arbitrate cfg n b).mem op w = true := by
  induction n generalizing b with
  | zero => exact hp
  | succ n ih =>
    unfold arbitrate
    split
    · rename_i b' h
      exact ih (grantOne_inPort h hw hp)
    · exact hp

/-- A hand-over puts the request at the port. -/
theorem handOver_inPort {b : Blocks} (hn : b.journal.notice = false) (op : MemOp) (cls : MemClass) (w : Owner) :
    inPort (handOver op cls w b).mem op w = true := by
  rw [handOver_live hn, inPort_iff]
  exact .inl ⟨⟨op, cls, w, b.mem.nextOrder⟩, by simp, rfl, rfl⟩

end Sys2Proof.Laws
end

