-- ==== Sys2Proof/Laws/Requests.lean ====
section
/-! SUPPORT. What handling the one current request of a stream does when the stream was idle: answers, stalls, and
operations asked for. -/

namespace Sys2Proof.Laws

open Sys2Proof.Machine Sys2Proof.Safety

/-- The blocks in which request q has become the current request of stream i. -/
abbrev current (i : StreamId) (q : Request) (b : Blocks) : Blocks :=
  b.modStream i fun r => { r with queue := [q], phase := .fresh }

/-- An update of a stream's record is known by the record it gives. -/
theorem modStream_congr (b : Blocks) (i : StreamId) {f g : StreamRec → StreamRec}
    (h : f (b.stream i) = g (b.stream i)) : b.modStream i f = b.modStream i g := by
  unfold Blocks.stream at h
  unfold Blocks.modStream
  rw [h]

/-- An update of a context's record is known by the record it gives. -/
theorem modCtx_congr (b : Blocks) (c : CtxId) {f g : Context → Context} (h : f (b.ctx c) = g (b.ctx c)) :
    b.modCtx c f = b.modCtx c g := by
  unfold Blocks.ctx at h
  unfold Blocks.modCtx
  rw [h]

/-- The answer to the only request of a stream that was idle is one more response on it. -/
theorem answer_current {b : Blocks} {i : StreamId} (hi : idleStream (b.stream i) = true) (q : Request) (st : UpStatus)
    (bytes : Option LineData) : answer i st bytes (current i q b) = sends i (responseTo q st bytes) b := by
  obtain ⟨hq, hp, hc, hs⟩ := (idleStream_iff _).1 hi
  unfold answer sends current
  rw [Blocks.modStream_modStream]
  apply modStream_congr
  generalize b.stream i = r at hq hp hc hs
  cases r
  simp only at hq hp hc hs
  subst hq hp hc hs
  rfl

/-- A stall of the only request of a stream that was idle is a stall record on it. -/
theorem stallAt_current {b : Blocks} {i : StreamId} (hi : idleStream (b.stream i) = true) (q : Request)
    (cause : StallCause) : stallAt i cause (current i q b) =
      b.modStream i fun r => { r with queue := [q], phase := .stalled cause } := by
  obtain ⟨_, _, hc, hs⟩ := (idleStream_iff _).1 hi
  unfold stallAt current
  rw [Blocks.modStream_modStream]
  apply modStream_congr
  simp [hc, hs]

/-- The phases in which a stream's request waits for something that is not due. -/
def quietPhase (p : Phase) : Bool :=
  match p with
  | .fresh => false
  | .barrier _ => false
  | .countHold => false
  | _ => true

theorem quietPhase_iff (p : Phase) : quietPhase p = true ↔ p ≠ .fresh ∧ (∀ l, p ≠ .barrier l) ∧ p ≠ .countHold := by
  cases p <;> simp [quietPhase]

/-- A part in which nothing is due and a record is changed to a quiet one: nothing is due. -/
theorem quiet_modStream {cfg : Image} {b : Blocks} (h : still cfg b = true) (hf : noFresh b = true) (i : StreamId)
    {f : StreamRec → StreamRec} (hp : quietPhase (f (b.stream i)).phase = true) :
    still cfg (b.modStream i f) = true ∧ noFresh (b.modStream i f) = true := by
  obtain ⟨h1, h2, h3⟩ := (quietPhase_iff _).1 hp
  refine ⟨still_modStream h i f (notDue_of_phase (by simpa using h2) (by simpa using h3)), ?_⟩
  rw [noFresh_iff] at hf ⊢
  intro k
  rw [Blocks.modStream_stream]
  split
  · exact h1
  · exact hf k

/-- A request on an idle stream of a part at rest whose handling changes only its stream's record, to a quiet one, is
the whole event. -/
theorem arrival_record {s : State} {i : StreamId} (hs : atRest s = true) (hi : idleStream (s.blocks.stream i) = true)
    (q : Request) {f : StreamRec → StreamRec}
    (hb : handleCurrent s.mgmt.active i (current i q s.blocks) = s.blocks.modStream i f)
    (hp : quietPhase (f (s.blocks.stream i)).phase = true) :
    s.event (arrive i q) = after s (s.blocks.modStream i f) := by
  obtain ⟨_, hn, hst, hfr, hg⟩ := (atRest_iff s).1 hs
  obtain ⟨h1, h2⟩ := quiet_modStream hst hfr i hp
  rw [event_arrive hs hi q hb h1 h2 hn, arbitrate_none (grantOne_none_congr (b := s.blocks) (b' := s.blocks.modStream i f) rfl rfl hg)]
  rfl

/-- A request that is answered at once is one response on its stream. -/
theorem arrival_answered {s : State} {i : StreamId} (hs : atRest s = true)
    (hi : idleStream (s.blocks.stream i) = true) (q : Request) {st : UpStatus} {bytes : Option LineData}
    (hb : handleCurrent s.mgmt.active i (current i q s.blocks) = answer i st bytes (current i q s.blocks)) :
    s.event (arrive i q) = after s (sends i (responseTo q st bytes) s.blocks) := by
  rw [answer_current hi] at hb
  refine arrival_record hs hi q hb ?_
  obtain ⟨_, hp, _, _⟩ := (idleStream_iff _).1 hi
  simp [hp, quietPhase]

/-- A request that stalls without a deadline is a stall record on its stream. -/
theorem arrival_stalled {s : State} {i : StreamId} (hs : atRest s = true)
    (hi : idleStream (s.blocks.stream i) = true) (q : Request) {cause : StallCause}
    (hb : handleCurrent s.mgmt.active i (current i q s.blocks) = stallAt i cause (current i q s.blocks)) :
    s.event (arrive i q) =
      after s (s.blocks.modStream i fun r => { r with queue := [q], phase := .stalled cause }) := by
  rw [stallAt_current hi] at hb
  exact arrival_record hs hi q hb rfl

/-- A request whose handling hands one operation over and leaves its stream's record quiet: the grants are all that
follows, and the operation is at the port. -/
theorem arrival_handsOver {s : State} {i : StreamId} (hs : atRest s = true) (hi : idleStream (s.blocks.stream i) = true)
    (q : Request) {b : Blocks} {op : MemOp} {cls : MemClass} {w : Owner}
    (hb : handleCurrent s.mgmt.active i (current i q s.blocks) = handOver op cls w b)
    (hst : still s.mgmt.active b = true) (hf : noFresh b = true) (hn : b.journal.notice = false)
    (hw : ∀ l, w ≠ .release l) :
    ∃ t, s.event (arrive i q) = t ∧ blocksBecome s b t ∧ inPort t.blocks.mem op w = true := by
  refine ⟨_, rfl, ?_⟩
  have hf' : noFresh (handOver op cls w b) = true := by
    rw [noFresh_iff] at hf ⊢
    intro k
    rw [handOver_stream]
    exact hf k
  rw [event_arrive hs hi q hb (still_handOver hst op cls w) hf' (by rw [handOver_journal]; exact hn)]
  refine ⟨⟨rfl, rfl, rfl, ?_⟩, arbitrate_inPort _ _ hw (handOver_inPort hn op cls w)⟩
  refine onlyGrants_trans ?_ (arbitrate_frame _ 32 _)
  obtain ⟨m, h, _⟩ := handOver_frame op cls w b
  rw [h]
  exact ⟨rfl, rfl, rfl, rfl, rfl, rfl, rfl, rfl, rfl, rfl, rfl⟩

/-! ## The views that do not look at the streams -/

@[simp] theorem current_stream (i : StreamId) (q : Request) (b : Blocks) :
    (current i q b).stream i = { b.stream i with queue := [q], phase := .fresh } := by simp

end Sys2Proof.Laws
end

