-- ==== Sys2Proof/Laws/Responses.lean ====
section
/-! SUPPORT. What the layouts of records and the fields of responses say, each once. -/

namespace Sys2Proof.Laws

open Sys2Proof.Machine

/-! ## Checks of records (R175) -/

/-- The check of an UNDO header, from the CRC-32 register after its own bytes and after the data slot's. -/
theorem headerCheck_of_parts (fc : Count32) (h d : LineData) {c e : BitVec 32}
    (hc : (leBytes 4 fc.toNat ++ lineBytes h 60).foldl crc32Byte 0xFFFFFFFF#32 = c)
    (he : (lineBytes d 64).foldl crc32Byte c = e) : headerCheck fc h (some d) = e ^^^ 0xFFFFFFFF#32 := by
  subst hc he
  simp only [headerCheck, crc32, Option.map_some, Option.getD_some, List.foldl_append]

/-! ## Fields of payloads (R166, R176) -/

@[simp] theorem bits_absent (p k : Nat) : FieldValue.absent.bits p k = 2 ^ Config.fieldWidth p k - 1 := rfl

@[simp] theorem bits_number (p k n : Nat) : (FieldValue.number n).bits p k = n % 2 ^ Config.fieldWidth p k := rfl

@[simp] theorem ofNumber?_none : FieldValue.ofNumber? none = .absent := rfl

@[simp] theorem ofNumber?_some (n : Nat) : FieldValue.ofNumber? (some n) = .number n := rfl

@[simp] theorem ofCode?_none : FieldValue.ofCode? none = .absent := rfl

@[simp] theorem ofCode?_some (n : Nat) : FieldValue.ofCode? (some n) = .code n := rfl

/-- A field's bits fit its width. -/
theorem bits_lt (p k : Nat) (f : FieldValue) : f.bits p k < 2 ^ Config.fieldWidth p k := by
  have h : 0 < 2 ^ Config.fieldWidth p k := Nat.two_pow_pos _
  cases f with
  | absent => exact Nat.sub_lt h Nat.one_pos
  | number => exact Nat.mod_lt _ h
  | code => exact Nat.mod_lt _ h
  | streams => exact Nat.mod_lt _ h
  | unreported => exact Nat.mod_lt _ h

/-- With no fault record, the epoch reads as 0 and every other field as absent (R35, R176). -/
@[simp] theorem faultFields_none : FaultRecord.fields none = [.absent, .number 0, .absent, .absent, .absent] := rfl

/-- Before a refusal is recorded, its fields are absent (R173, R176). -/
@[simp] theorem lastRefusalFields_none : LastRefusal.fields none = [.absent, .absent, .absent] := rfl

/-- A payload has at most 64 bytes (R165). -/
theorem payloadBytes_length_le (p : Payload) : p.bytes.length ≤ 64 := by
  cases p <;> simp [Payload.bytes, layOut]

end Sys2Proof.Laws
end

