-- ==== Sys2Proof/Tests/Slice0.lean ====
section
/-! SUPPORT. Small tests of one step each, and for every statement with hypotheses a state that meets them. -/

namespace Sys2Proof.Tests

open Sys2Proof.Machine Sys2Proof.Safety

-- One theorem at a time: each of these waits for the kernel.
set_option Elab.async false

/-! ## Small states -/

/-- The first line of the JOURNALED window. -/
def lineJ : Addr := 0x80000000
/-- The first line of the DIRECT window. -/
def lineD : Addr := 0x80400000
/-- The first line of the READ_ONLY window. -/
def lineR : Addr := 0x80600000
/-- Anchor copy A. -/
def lineA : Addr := 0x100000000
/-- A line of no window. -/
def lineU : Addr := 0x70000000

def winJ : Window := ⟨true, 0x80000000, 0x400000, .journaled, 0x00FF⟩
def winD : Window := ⟨true, 0x80400000, 0x200000, .direct, 0x00FF⟩
def winR : Window := ⟨true, 0x80600000, 0x100000, .readOnly, 0x00FF⟩

/-- Three windows and a ring of 1,024 slots; streams 0 and 1 write in context 0, with a quota of 2, and stream 2 in
context 1. -/
def cfg : Image :=
  { Config.defaults with
    windows := ((Config.defaults.windows.set 0 winJ).set 1 winD).set 2 winR
    bindings := ((Config.defaults.bindings.set 0 (some 0)).set 1 (some 0)).set 2 (some 1)
    ctxs := Config.defaults.ctxs.set 0 ⟨2, 5⟩
    journal := ⟨0x100000000, 1024, .auto, .auto, .auto, 8, 20⟩ }

/-- A part in READY with an empty ring and every context IDLE. -/
def s0 : State :=
  { State.reset with
    mgmt := { Management.reset with staged := cfg, active := cfg }
    blocks := { Blocks.reset with
      journal := { JournalWriter.atReset with state := .ready }
      free := ⟨[0, 0, 0, 0, 0, 0, 0, 0], 0⟩ } }

/-- A change of the blocks. -/
def but (s : State) (f : Blocks → Blocks) : State := { s with blocks := f s.blocks }

/-- An operation outstanding in slot 3 with issue number 1. -/
def outIn (op : MemOp) (cls : MemClass) (ow : Owner) (b : Blocks) : Blocks :=
  b.modMem fun m => { m with slots := m.slots.set 3 (some ⟨op, cls, ow, 0, 100⟩), issue := m.issue.set 3 1 }

/-- Its identifier. -/
def id3 : OpId := ⟨3, 1⟩

/-- The operation itself. -/
def out (op : MemOp) (cls : MemClass) (ow : Owner) : Outstanding := ⟨op, cls, ow, 0, 100⟩

/-- Context 0 in a state with epoch 5. -/
def ctxIn (st : CtxState) (b : Blocks) : Blocks := b.modCtx 0 fun x => { x with state := st, epoch := some 5 }

/-- Context 0 FAULTED. -/
def faultedBy (k : FaultKind) (b : Blocks) : Blocks :=
  (ctxIn .faulted b).modCtx 0 fun x => { x with fault := some ⟨k, 5, none, none, none⟩ }

/-- Context 0 in ROLLBACK. -/
def rollingBack (r : Rollback) (b : Blocks) : Blocks := (ctxIn .rollback b).modCtx 0 fun x => { x with rollback := some r }

/-- The journal in a state. -/
def journalIn (st : JournalState) (b : Blocks) : Blocks := b.modJournal fun j => { j with state := st }

/-- lineJ tracked by context 0, as capture 0. -/
def tracked (st : TrackState) (pos : Option RingPtr) (b : Blocks) : Blocks :=
  b.modTrack fun t => t ++ [⟨lineJ, 0, 5, st, pos, 0, 0⟩]

/-- An entry of lineJ in the queue, with one write of stream 0. -/
def heldOne (st : HeldState) : HeldEntry := ⟨0, [(0, 1)], 0, lineJ, 1, 7, st, false⟩

def holding (st : HeldState) (b : Blocks) : Blocks := b.modHeld fun h => { h with entries := [heldOne st] }

/-- A full queue of entries of another line. -/
def heldFull (b : Blocks) : Blocks :=
  b.modHeld fun h => { h with entries := List.replicate 64 { heldOne .issued with line := 0x80001000 } }

/-- The record of capture 0 in the staging buffer. -/
def stagedRecord (inFlight : Bool) (b : Blocks) : Blocks :=
  b.modJournal fun j => { j with
    tail := ⟨2, 2⟩
    live := [⟨5, 0, ⟨0, 0⟩⟩]
    staging := [⟨1, ⟨0, 0⟩, inFlight, .undoHeader 0⟩, ⟨7, ⟨1, 1⟩, inFlight, .undoData 0⟩]
    groupTimer := if inFlight then .stopped else .running 20 }

/-- A marker of context 0 in the burst in flight. -/
def stagedMarker (k : RecordKind) (b : Blocks) : Blocks :=
  b.modJournal fun j => { j with
    tail := ⟨1, 1⟩
    live := [⟨5, 0, ⟨0, 0⟩⟩]
    staging := [⟨1, ⟨0, 0⟩, true, .marker k 0 5⟩] }

/-- Context 0 OPEN, lineJ being captured for a write of stream 0. -/
def sCapture : State :=
  but s0 fun b => outIn (.lineRead lineJ) .capture (.capture 0)
    (holding .waitLog (tracked .capturing none (ctxIn .opened b)))

/-- The record of lineJ staged, not yet in a burst. -/
def sStaged : State :=
  but s0 fun b => (stagedRecord false (holding .waitLog (tracked .capturing (some ⟨0, 0⟩) (ctxIn .opened b)))).modStream 0
    fun r => { r with outstanding := 1 }

/-- A record burst of the slots in flight is outstanding. -/
def bursting (b : Blocks) : Blocks := outIn (.slotBurst 0x100000080 [1, 7]) .burst .burst b

/-- The release of lineJ outstanding. -/
def sRelease : State :=
  but s0 fun b => outIn (.lineWrite lineJ 1 7) .release (.release lineJ)
    (holding .issued (tracked .logged (some ⟨0, 0⟩) (ctxIn .opened b)))

/-- Stream 0 with a current request in a phase. -/
def waiting0 (q : RequestKind) (p : Phase) (b : Blocks) : Blocks :=
  b.modStream 0 fun r => { r with queue := [⟨1, q⟩], phase := p }

/-- A rollback of context 0 that restores lineJ. -/
def restoring (op : RestoreOp) : Rollback := ⟨.restore, .restore, [⟨lineJ, ⟨0, 0⟩, none, op⟩], 0⟩

/-- The notice has been taken. -/
def noticed (b : Blocks) : Blocks := b.modJournal fun j => { j with notice := true }

/-! ## Checks of the layouts, as 11 defines them -/

/-- The CRC-32 of the nine bytes "123456789" under the parameters of R175. -/
theorem test_crc32 : crc32 [0x31, 0x32, 0x33, 0x34, 0x35, 0x36, 0x37, 0x38, 0x39] = 0xCBF43926#32 := by decide +kernel

/-- The CRC-8 of the nine bytes "123456789" under the parameters of R176. -/
theorem test_crc8 : crc8 [0x31, 0x32, 0x33, 0x34, 0x35, 0x36, 0x37, 0x38, 0x39] = 0xF4#8 := by decide +kernel

/-- An all-zero slot names no kind and an all-zero anchor copy is not valid (R175). -/
theorem test_zero_slot : headerKind 0 = none ∧ anchorValid 0 = false := by decide +kernel

/-- Slot 16,383 of the worked example of 01 section 1.9 stands at 100100040h. -/
theorem test_slot_line :
    slotLine { cfg with journal := { cfg.journal with ringSize := 16384 } } 16383 = 0x100100040#40 := by decide +kernel

/-- A READ_STATUS frame is judged to be the command with its sequence number. -/
theorem test_frame : judgeFrame [2, 9, 0, crc8 [2, 9, 0]] = .command .readStatus 9 [] := by decide +kernel

/-! ## Well-formedness -/

theorem test_wf_refuses_long_arguments :
    ∀ f ∈ [Instr.identify, .readStatus, .readContext, .readEvents, .ackEvents, .setEventMask, .readConfig, .writeConfig,
      .apply, .load, .store, .managementCommit, .abort, .clearFault, .forceRetire, .format, .warmReset],
      (f 0 (List.replicate 49 0)).wf = false ∧ (f 0 (List.replicate 48 0)).wf = true := by decide +kernel

theorem test_wf_refuses_an_acceptable_frame :
    (Instr.commandFrameRejected [2, 9, 0, crc8 [2, 9, 0]]).wf = false
      ∧ (Instr.commandFrameRejected [2, 9, 0, crc8 [2, 9, 0] + 1]).wf = true := by decide +kernel

theorem test_no_row_has_bits : decodeTableWord 8 0 = none ∧ decodeTableWord 32 0xFFFFFFFF = none := by decide

/-! ## Requests of the worked example of 01 section 1.9, and others -/

/-- What is sent on stream i in a step from s. -/
def sentOn (c : Instr) (s : State) (i : StreamId) : List Response :=
  match exec c s with
  | .next t => (t.blocks.stream i).sent.drop (s.blocks.stream i).sent.length
  | _ => []

/-- The state after a command. -/
def afterCmd (c : Instr) (s : State) : State :=
  match exec c s with
  | .next t => t
  | _ => s

theorem test_write_unbound : sentOn (.write 7 4 lineJ 0xFF 0) s0 7 = [Response.ack 4 .unbound] := by decide +kernel
theorem test_write_not_permitted : sentOn (.write 9 4 lineJ 0xFF 0) s0 9 = [Response.ack 4 .notPermitted] := by
  decide +kernel
theorem test_write_read_only : sentOn (.write 9 4 lineR 0xFF 0) s0 9 = [Response.ack 4 .readOnly] := by decide +kernel
theorem test_read_anchor : sentOn (.read 9 4 lineA) s0 9 = [Response.data 4 .unmapped none] := by decide +kernel
theorem test_write_empty_mask : sentOn (.write 9 4 lineA 0 0) s0 9 = [Response.ack 4 .malformed] := by decide +kernel
theorem test_first_touch :
    let t := afterCmd (.write 0 4 lineJ 0xFF 0) s0
    (t.blocks.ctx 0).state = .opened ∧ (t.blocks.ctx 0).epoch = some 1 ∧ t.blocks.journal.reserved = 3
      ∧ t.blocks.track.length = 1 ∧ t.blocks.held.entries.length = 1 := by decide +kernel
theorem test_commit_idle : sentOn (.upstreamCommit 0 4) s0 0 = [Response.done 4 .okay] := by decide +kernel
theorem test_barrier_at_once : sentOn (.barrier 0 4) s0 0 = [Response.done 4 .okay] := by decide +kernel
theorem test_drop_without_credit :
    let s := but s0 fun b => b.modStream 0 fun r =>
      { r with queue := List.replicate 4 ⟨1, .read lineJ⟩, phase := .stalled .restoring }
    (afterCmd (.barrier 0 4) s).blocks.events.isPending .portError = true
      ∧ sentOn (.barrier 0 4) s 0 = [] := by decide +kernel

/-! ## Completions, expiries and management commands -/

theorem test_capture_stages_two_slots :
    let t := afterCmd (.captureReadDone id3 (.data 9)) sCapture
    t.blocks.journal.tail = ⟨2, 2⟩ ∧ t.blocks.journal.staging.length = 2 ∧ (t.blocks.ctx 0).undoCount = 1 := by
  decide +kernel
theorem test_capture_failure_faults :
    (afterCmd (.captureReadDone id3 .error) sCapture).blocks.track = []
      ∧ ((afterCmd (.captureReadDone id3 .error) sCapture).blocks.ctx 0).state = .faulted := by decide +kernel
theorem test_stray_completion : afterCmd (.strayCompletion ⟨3, 2⟩ .persisted) sCapture = sCapture := by decide +kernel
theorem test_release_ends : (afterCmd (.releaseWriteDone id3 .persisted) sRelease).blocks.held.entries = [] := by
  decide +kernel
theorem test_wrong_kind_is_error :
    afterCmd (.releaseWriteDone id3 (.data 0)) sRelease = afterCmd (.releaseWriteDone id3 .error) sRelease := by
  decide +kernel
theorem test_abort_idle : (afterCmd (.abort 6 [3]) s0).mgmt.response = ⟨6, .ok, .empty⟩ := by decide +kernel
theorem test_context_above_7 : (afterCmd (.abort 6 [8]) s0).mgmt.response = ⟨6, .invalid, .invalidArgument 0⟩ := by
  decide +kernel
theorem test_unknown_command :
    (afterCmd (.commandFrameRejected [0x77, 9, 0, crc8 [0x77, 9, 0]]) s0).mgmt.response = ⟨9, .unknownCommand, .empty⟩ := by
  decide +kernel
theorem test_format_starts : (afterCmd (.format 6 []) s0).blocks.journal.state = .formatting := by decide +kernel
theorem test_format_without_ring :
    (afterCmd (.format 6 []) State.reset).mgmt.response = ⟨6, .invalid, .invalidItem 0x30⟩ := by decide +kernel
/-- A window that meets the journal area. -/
def winA : Window := ⟨true, 0x100000000, 0x400000, .journaled, 0x00FF⟩

/-- s0 with a staged image. -/
def staging (img : Image) : State := { s0 with mgmt := { s0.mgmt with staged := img } }

theorem test_apply_names_the_window :
    (afterCmd (.apply 6 []) (staging { cfg with windows := cfg.windows.set 3 winA })).mgmt.response = ⟨6, .invalid, .invalidItem 3⟩ := by decide +kernel
theorem test_notice_reaches_safe :
    (afterCmd (.powerFailNotice true) s0).blocks.journal.state = .safe
      ∧ safeOut (afterCmd (.powerFailNotice true) s0) = true := by decide +kernel
theorem test_warm_reset_recovers :
    (afterCmd (.warmReset 6 []) s0).blocks.journal.state = .recovering
      ∧ (afterCmd (.warmReset 6 []) s0).blocks.mem.ops.length = 2 := by decide +kernel
theorem test_idle_step : step s0 = .next (but s0 fun b => { b with clock := 1 }) := rfl
theorem test_front_command_runs :
    step { s0 with pending := [.resetNLow, .groupTimerExpiry] } =
      .next { s0 with pins := ⟨true, false⟩, pending := [.groupTimerExpiry] } := rfl

/-! ## Witnesses: for each statement, a state and operands that meet its hypotheses, clause by clause -/

theorem witness_StepTakesTheFrontCommand : State.reset.pending = [] := rfl

theorem witness_StepKeepsLaws :
    (ctxsLaw sCapture.blocks = true ∧ trackLaw sCapture.mgmt.active sCapture.blocks = true)
      ∧ queueLaw sCapture.blocks = true ∧ safeLaw sCapture.blocks = true ∧ writeLaw sRelease.blocks.mem = true
      ∧ configLaw sCapture.mgmt = true := by decide +kernel

/-- s0 after a first touch, and after its capture read. -/
def sTouched : State := afterCmd (.write 0 4 lineJ 0xFF 0) s0
def sRecorded : State := afterCmd (.captureReadDone ⟨0, 1⟩ (.data 9)) sTouched

theorem witness_StepKeepsServiceLaw :
    ∀ s ∈ [s0, sTouched, sRecorded], ctxsLaw s.blocks = true ∧ trackLaw s.mgmt.active s.blocks = true
      ∧ configLaw s.mgmt = true ∧ serviceLaw s.mgmt.active s.blocks = true := by decide +kernel

/-- What the law of service shuts out: a slot reserved for nothing, a READY entry of a line that is CAPTURING, a stall on
FORMATTING in READY. -/
theorem test_service_law_refuses :
    serviceLaw cfg (sRecorded.blocks.modJournal fun j => { j with reserved := j.reserved + 1 }) = false
      ∧ serviceLaw cfg (holding .ready sTouched.blocks) = false
      ∧ serviceLaw cfg (waiting0 (.read lineJ) (.stalled .formatting) s0.blocks) = false := by decide +kernel

theorem witness_StepAnswersNext : ∃ t, step { sCapture with pending := [.captureReadDone id3 (.data 9)] } = .next t :=
  ⟨_, rfl⟩

theorem witness_RequestsAreAnsweredInOrder :
    (Instr.barrier 0 4).wf = true ∧ isReset (.barrier 0 4) = false ∧ s0.pins.resetLow = false
      ∧ s0.blocks.journal.notice = false ∧ exec (.barrier 0 4) s0 = .next (afterCmd (.barrier 0 4) s0) :=
  ⟨rfl, rfl, rfl, rfl, rfl⟩

theorem witness_EventsLeaveNoGrant :
    s0.pins.resetLow = false ∧ (arrivalOf (.read 0 4 lineD)).isSome = true ∧ isExpiry .groupTimerExpiry = true
      ∧ completionOf (.releaseWriteDone id3 .persisted) = some (id3, .persisted)
      ∧ (sRelease.blocks.mem.matching id3).isSome = true := by decide +kernel

/-- A pass-through read and an anchor write wait, the class of the read passed over so many times. -/
def sTwoWait (passed : Nat) : State :=
  but s0 fun b => (handOver (.anchorWrite lineA 0) .anchor (.anchor .formatA)
    (handOver (.lineRead lineD) .passThrough (.passRead 0 false) b)).modMem fun m =>
      { m with passOver := { m.passOver with passThrough := passed } }

theorem witness_AGrantIsMade :
    ∀ n ∈ [0, 15, 16], ((grantOne cfg (sTwoWait n).blocks).bind fun b => b.mem.slots[(0 : SlotNo)]).map (·.cls) =
      some (if n = 16 then .passThrough else .anchor) := by decide +kernel

theorem witness_NothingIsIssuedAfterTheNotice :
    (Instr.barrier 0 4).wf = true ∧ isReset (.barrier 0 4) = false ∧ (but sRelease noticed).blocks.journal.notice = true
      ∧ (but sRelease noticed).blocks.mem.slots[(3 : SlotNo)]
        = some (out (.lineWrite lineJ 1 7) .release (.release lineJ)) := by decide +kernel

/-- Streams 0 to 3 requests long, and 4. -/
def queued (n : Nat) : State :=
  but s0 fun b => b.modStream 0 fun r =>
    { r with queue := List.replicate n ⟨1, .read lineJ⟩, phase := .stalled .restoring }

theorem witness_ArrivalByTheQueue :
    ∀ s ∈ [queued 1, queued 3, s0, but s0 fun b => journalIn .safe (noticed b), queued 4],
      arrivalOf (.barrier 0 4) = some (0, ⟨4, .barrier⟩) ∧ s.pins.resetLow = false ∧ still s.mgmt.active s.blocks = true
        ∧ noFresh s.blocks = true ∧ grantOne s.mgmt.active s.blocks = none ∧ enterSafe s.blocks = s.blocks := by
  decide +kernel

theorem witness_PassThroughReadIsIssued :
    atRest s0 = true ∧ idleStream (s0.blocks.stream 0) = true ∧ lookup s0.mgmt.active (lineOf 0x80400047) = .window winD
      ∧ lookup s0.mgmt.active (lineOf lineR) = .window winR ∧ winD.kind ≠ .journaled ∧ winR.kind ≠ .journaled := by
  decide +kernel

/-- lineJ held with all 64 bytes enabled. -/
def sCovered : State :=
  but sCapture fun b => b.modHeld fun h => { h with entries := [{ heldOne .waitLog with mask := fullMask }] }

theorem witness_JournaledReads :
    ∀ s ∈ [sCovered, sCapture], atRest s = true ∧ idleStream (s.blocks.stream 2) = true
      ∧ lookup s.mgmt.active (lineOf lineJ) = .window winJ ∧ winJ.kind = .journaled ∧ s.blocks.journal.state ≠ .recovering
      ∧ s.blocks.lineRestoring (lineOf lineJ) = false
      ∧ (s = sCovered ↔ s.blocks.held.coverMask (lineOf lineJ) = fullMask) := by decide +kernel

/-- lineJ RESTORING, its read outstanding. -/
def sRestoring : State :=
  but s0 fun b => outIn (.lineRead 0x1000000C0) .restore (.restoreRead 0 lineJ)
    (tracked .restoring (some ⟨0, 0⟩) (rollingBack (restoring .read) b))

theorem witness_ReadIsRefusedOrStalls :
    (atRest s0 = true ∧ lookup s0.mgmt.active (lineOf lineA) = .journalArea ∧ lookup s0.mgmt.active (lineOf lineU) = .unmapped)
      ∧ (atRest (but s0 (journalIn .recovering)) = true)
      ∧ atRest sRestoring = true ∧ sRestoring.blocks.journal.state ≠ .recovering
      ∧ sRestoring.blocks.lineRestoring (lineOf lineJ) = true ∧ idleStream (sRestoring.blocks.stream 0) = true := by
  decide +kernel

theorem witness_RefusedWriteIsAcknowledgedWithItsStatus :
    (∀ s ∈ [s0, but s0 (journalIn .unformatted), but s0 (journalIn .failed), but s0 (faultedBy .captureReadFailed)],
      atRest s = true ∧ idleStream (s.blocks.stream 0) = true ∧ (s.blocks.stream 0).outstanding < Config.outstandingLimit)
      ∧ lookup cfg (lineOf lineA) = .journalArea ∧ lookup cfg (lineOf lineR) = .window winR
      ∧ winR.kind = .readOnly ∧ lookup cfg (lineOf lineD) = .window winD
      ∧ winD.kind ≠ .readOnly ∧ winD.writers.getLsbD 8 = false ∧ lookup cfg (lineOf lineJ) = .window winJ
      ∧ winJ.writers.getLsbD 7 = true ∧ cfg.bindings[7] = none ∧ cfg.bindings[0] = some 0 := by decide +kernel

/-- s0 with so many writes of stream 0 outstanding. -/
def sOutstanding (n : Nat) : State := but s0 fun b => b.modStream 0 fun r => { r with outstanding := n }

theorem witness_CountHold :
    ∀ n ∈ [65534, 65535], atRest (sOutstanding n) = true ∧ idleStream ((sOutstanding n).blocks.stream 0) = true
      ∧ decide (((sOutstanding n).blocks.stream 0).outstanding < Config.outstandingLimit) = decide (n ≠ 65535) := by
  decide +kernel

theorem reaches0 (s : State) (h : s.mgmt.active = cfg) (hj : s.blocks.journal.state = .ready)
    (hc : (s.blocks.ctx 0).state = .idle ∨ (s.blocks.ctx 0).state = .opened)
    (ho : (s.blocks.stream 0).outstanding < Config.outstandingLimit) : reachesContext s 0 lineJ 1 0 := by
  refine ⟨by decide, ⟨winJ, ?_, rfl, by decide⟩, ?_, hj, hc, ho⟩
  · rw [h]; decide +kernel
  · rw [h]; decide +kernel

/-- Context 0 OPEN with both places of its quota used by other lines. -/
def sQuota : State :=
  but s0 fun b => (ctxIn .opened b).modTrack fun _ =>
    [⟨0x80001000, 0, 5, .logged, some ⟨0, 0⟩, 0, 0⟩, ⟨0x80002000, 0, 5, .logged, some ⟨2, 2⟩, 1, 0⟩]

theorem witness_WriteOverQuotaIsRefused :
    atRest sQuota = true ∧ idleStream (sQuota.blocks.stream 0) = true ∧ reachesContext sQuota 0 lineJ 1 0
      ∧ sQuota.blocks.entryOf (lineOf lineJ) = none
      ∧ sQuota.mgmt.active.ctxs[(0 : CtxId)].quota.toNat ≤ sQuota.blocks.trackedCount 0 :=
  ⟨by decide +kernel, by decide +kernel,
    reaches0 _ rfl (by decide +kernel) (by decide +kernel) (by decide +kernel), by decide +kernel, by decide +kernel⟩

theorem witness_DirectWriteIsForwarded :
    atRest s0 = true ∧ idleStream (s0.blocks.stream 0) = true
      ∧ (s0.blocks.stream 0).outstanding < Config.outstandingLimit
      ∧ lookup s0.mgmt.active (lineOf lineD) = .window winD ∧ winD.kind = .direct ∧ winD.writers.getLsbD 0 = true := by
  decide +kernel

theorem witness_WriteMergesIntoTheUnissuedEntry :
    atRest sCapture = true ∧ idleStream (sCapture.blocks.stream 0) = true ∧ reachesContext sCapture 0 lineJ 1 0
      ∧ (sCapture.blocks.ctx 0).state = .opened
      ∧ sCapture.blocks.entryOf (lineOf lineJ) = some ⟨lineJ, 0, 5, .capturing, none, 0, 0⟩
      ∧ sCapture.blocks.held.mergeable (lineOf lineJ) = true :=
  ⟨by decide +kernel, by decide +kernel,
    reaches0 _ rfl (by decide +kernel) (by decide +kernel) (by decide +kernel), by decide +kernel, by decide +kernel,
    by decide +kernel⟩

/-- lineJ tracked with no unissued entry: CAPTURING without one, LOGGED with an ISSUED one, LOGGED without one. -/
def newEntryStates : List State :=
  [but sCapture fun b => b.modHeld fun _ => ⟨[], [], []⟩, sRelease,
    but s0 fun b => tracked .logged (some ⟨0, 0⟩) (ctxIn .opened b)]

theorem witness_AWriteMakesANewEntry :
    (∀ s ∈ newEntryStates, atRest s = true ∧ idleStream (s.blocks.stream 0) = true ∧ (s.blocks.ctx 0).state = .opened
      ∧ (s.blocks.entryOf (lineOf lineJ)).map (·.ctx) = some 0 ∧ s.blocks.held.mergeable (lineOf lineJ) = false
      ∧ s.blocks.held.full = false ∧ s.blocks.held.detached = [] ∧ s.blocks.mem.waiting = []
      ∧ (s.blocks.stream 0).outstanding < Config.outstandingLimit ∧ s.mgmt.active = cfg
      ∧ s.blocks.journal.state = .ready)
      ∧ newEntryStates.map (fun s => (s.blocks.track.map (·.state), s.blocks.held.entries.length)) =
        [([.capturing], 0), ([.logged], 1), ([.logged], 0)] := by decide +kernel

theorem witness_FirstTouchIsAccepted :
    ∀ s ∈ [s0, but s0 (ctxIn .opened)],
      alone s = true ∧ s.blocks.mem.waiting = [] ∧ s.blocks.entryOf (lineOf lineJ) = none
        ∧ s.blocks.trackedCount 0 < s.mgmt.active.ctxs[(0 : CtxId)].quota.toNat ∧ s.blocks.journal.pause = false
        ∧ slotsNeeded (s.blocks.ctx 0).state ≤ s.blocks.journal.unreserved s.mgmt.active.ringN
        ∧ s.blocks.held.full = false ∧ s.blocks.epochs.counter ≠ lastEpoch
        ∧ ((s.blocks.ctx 0).state = .idle ∨ (s.blocks.ctx 0).epoch.isSome = true) := by decide +kernel

theorem witness_FirstTouchReaches : reachesContext s0 0 lineJ 1 0 ∧ reachesContext (but s0 (ctxIn .opened)) 0 lineJ 1 0 :=
  ⟨reaches0 _ rfl (by decide +kernel) (by decide +kernel) (by decide +kernel),
    reaches0 _ rfl (by decide +kernel) (by decide +kernel) (by decide +kernel)⟩

/-- The states in which a write of stream 0 to lineJ stalls, with what it stalls on. -/
def stallStates : List State :=
  [but s0 (journalIn .recovering), but s0 (journalIn .formatting),
    but sCapture (ctxIn .draining), but s0 (ctxIn .marking), but s0 (rollingBack ⟨.restore, .retire, [], 0⟩),
    but s0 fun b => b.modTrack fun _ => [⟨lineJ, 1, 9, .logged, some ⟨0, 0⟩, 0, 2⟩],
    but s0 fun b => heldFull (tracked .logged (some ⟨0, 0⟩) (ctxIn .opened b)),
    but s0 fun b => b.modJournal fun j => { j with pause := true },
    but s0 fun b => b.modJournal fun j => { j with reserved := 1022 },
    but s0 heldFull]

theorem witness_JournaledWriteStalls :
    (∀ s ∈ stallStates, atRest s = true ∧ idleStream (s.blocks.stream 0) = true
      ∧ (s.blocks.stream 0).outstanding < Config.outstandingLimit)
      ∧ lookup cfg (lineOf lineJ) = .window winJ ∧ winJ.kind = .journaled ∧ winJ.writers.getLsbD 0 = true
      ∧ cfg.bindings[0] = some 0
      ∧ (stallStates.drop 5).map (fun s => ((s.blocks.entryOf lineJ).map (·.ctx), s.blocks.held.mergeable lineJ,
          s.blocks.held.full, s.blocks.journal.pause,
          decide (s.blocks.journal.unreserved 1024 < slotsNeeded (s.blocks.ctx 0).state))) =
        [(some 1, false, false, false, false), (some 0, false, true, false, false), (none, false, false, true, false),
          (none, false, false, false, true), (none, false, true, false, false)] := by decide +kernel

theorem witness_BarrierIsAnsweredOrWaits :
    (atRest s0 = true ∧ idleStream (s0.blocks.stream 0) = true ∧ (s0.blocks.stream 0).outstanding = 0
      ∧ s0.blocks.journal.demands = [])
      ∧ atRest sStaged = true ∧ idleStream (sStaged.blocks.stream 0) = true ∧ (sStaged.blocks.stream 0).outstanding ≠ 0
      ∧ lineJ ∈ sStaged.blocks.held.waitLinesOf 0
      ∧ sStaged.blocks.entryOf lineJ = some ⟨lineJ, 0, 5, .capturing, some ⟨0, 0⟩, 0, 0⟩
      ∧ ∃ x ∈ sStaged.blocks.journal.staging, x.pos.seq = (⟨0, 0⟩ : RingPtr).dataSeq := by decide +kernel

theorem witness_CommitIsAnsweredByTheContextsState :
    ∀ s ∈ [s0, but s0 (journalIn .recovering), but s0 (journalIn .formatting), but s0 (journalIn .unformatted), but s0 (journalIn .failed),
      but s0 (rollingBack ⟨.restore, .retire, [], 0⟩), but s0 (faultedBy .releaseWriteFailed)],
      atRest s = true ∧ idleStream (s.blocks.stream 0) = true ∧ s.mgmt.active.bindings[(7 : StreamId)] = none
        ∧ s.mgmt.active.bindings[(0 : StreamId)] = some 0 := by decide +kernel

theorem witness_CommitBeginsOrJoins :
    ∀ s ∈ [but s0 (ctxIn .opened), sCapture, but sCapture (ctxIn .draining), but s0 (ctxIn .marking)],
      alone s = true ∧ s.mgmt.active.bindings[(0 : StreamId)] = some 0 ∧ s.blocks.journal.state = .ready := by
  decide +kernel

theorem witness_ManagementCommands :
    s0.pins.resetLow = false ∧ s0.blocks.journal.notice = false ∧ (but s0 noticed).blocks.journal.notice = true := by
  decide +kernel

theorem witness_ApplyIsBarred : applyBarred (but s0 (journalIn .recovering)) ∧ applyBarred (but s0 (ctxIn .opened))
    ∧ applyBarred (but (staging Config.defaults) (stagedMarker .commit)) :=
  ⟨Or.inl (by decide +kernel), Or.inr (Or.inr (Or.inr (Or.inl ⟨0, by decide +kernel⟩))),
    Or.inr (Or.inr (Or.inr (Or.inr ⟨Or.inr (by decide +kernel), by decide +kernel, by decide +kernel⟩)))⟩

theorem witness_ApplyIsNotBarred (img : Image) : ¬applyBarred (staging img) := by
  rintro (h | h | h | ⟨c, h⟩ | ⟨-, -, h⟩)
  · exact absurd h (show ¬s0.blocks.journal.state = .recovering by decide +kernel)
  · exact absurd h (show ¬s0.blocks.journal.state = .formatting by decide +kernel)
  · exact absurd h (show ¬s0.blocks.journal.state = .safe by decide +kernel)
  · exact h ((show ∀ c, (s0.blocks.ctx c).state = .idle by decide +kernel) c)
  · exact h ⟨rfl, rfl, rfl⟩

theorem witness_ApplyMakesTheStagedImageActive :
    failingItem { cfg with timing := ⟨0, 1, 1⟩ } = some .timing ∧ failingItem cfg = none
      ∧ failingItem Config.defaults = none ∧ Config.defaults.journal.ringSize ≠ cfg.journal.ringSize
      ∧ (staging Config.defaults).blocks.journal.state = .ready := by decide +kernel

/-- s0 while a STORE programs bank 1. -/
def sStoring : State := { s0 with mgmt := { s0.mgmt with programming := some ⟨1, cfg, 1, 0⟩ } }

theorem witness_StoreCommandsWorkOnTheBanks :
    s0.mgmt.programming = none ∧ sStoring.mgmt.programming.isSome = true ∧ sStoring.blocks.journal.notice = false := by
  decide +kernel

theorem witness_BadFramesAndContextsAreAnswered :
    [(1 : Byte), 2].length < 3 ∧ ¬((49#8).toNat ≤ 48 ∧ (List.replicate 50 (0 : Byte)).length = (49#8).toNat + 1)
      ∧ (0x77#8 ≠ crc8 (0x01#8 :: 2 :: 0 :: [])) ∧ commandOfCode 0x77#8 = none ∧ 8 ≤ (8#8).toNat := by decide +kernel

theorem witness_ManagementCommitByTheContextsState :
    ∀ s ∈ [s0, but s0 (rollingBack ⟨.restore, .retire, [], 0⟩), but s0 (faultedBy .journalFailed),
      but sCapture (ctxIn .draining), but s0 (ctxIn .marking), sCapture, but s0 (ctxIn .opened)],
      atRest s = true ∧ alone s = true := by decide +kernel

theorem witness_RollbackBeginsByTheContextsState :
    ∀ s ∈ [s0, but s0 fun b => journalIn .failed (faultedBy .journalFailed b), but s0 (ctxIn .marking),
      but s0 (rollingBack ⟨.restore, .retire, [], 0⟩), sCapture, sRelease, but sCapture (ctxIn .draining),
      but s0 (faultedBy .restoreWriteFailed)], alone s = true := by decide +kernel

/-- Context 0 FAULTED with lineJ in a state. -/
def sFaulted (st : TrackState) : State := but s0 fun b => tracked st (some ⟨0, 0⟩) (faultedBy .restoreWriteFailed b)

/-- QUIESCE ends at once from a capture, a staged record, a LOGGED line and a RESTORED one, and not from a release. -/
theorem witness_QuiesceEnds :
    (∀ s ∈ [sCapture, sStaged, sFaulted .logged, sFaulted .restored], quiescent s.blocks 0)
      ∧ ¬quiescent sRelease.blocks 0
      ∧ (∀ s ∈ [sStaged, sFaulted .logged, sFaulted .restored], alone s = true)
      ∧ (∀ e ∈ settledTrack 0 .restore (sFaulted .restored).blocks.track, e.ctx = 0 → e.state = .restored)
      ∧ (∃ e ∈ settledTrack 0 .restore (sFaulted .logged).blocks.track, e.ctx = 0 ∧ e.state ≠ .restored)
      ∧ (∃ e ∈ settledTrack 0 .restore sStaged.blocks.track, e.ctx = 0 ∧ e.state = .capturing ∧ e.pos = some ⟨0, 0⟩) := by
  unfold quiescent; decide +kernel

theorem witness_ClearFaultReturnsTheContextToOpen :
    calm (but s0 (faultedBy .captureReadFailed)) = true
      ∧ (but s0 (faultedBy .captureReadFailed)).blocks.journal.state = .ready
      ∧ ((but s0 (faultedBy .captureReadFailed)).blocks.ctx 0).fault = some ⟨.captureReadFailed, 5, none, none, none⟩
      ∧ calm (but s0 (faultedBy .restoreReadFailed)) = true ∧ calm s0 = true := by decide +kernel

theorem witness_FormatLaysDownAnEmptyRing :
    (∀ c, (s0.blocks.ctx c).state = .idle) ∧ s0.mgmt.active.journal.ringSize ≠ 0
      ∧ State.reset.mgmt.active.journal.ringSize = 0 ∧ State.reset.blocks.journal.state = .unformatted
      ∧ anchorOutstanding s0.blocks = false
      ∧ anchorOutstanding (but s0 (outIn (.anchorWrite lineA 0) .anchor (.anchor (.update .a 3 ⟨0, 0⟩)))).blocks = true
      ∧ (sCapture.blocks.ctx 0).state ≠ .idle := by decide +kernel

theorem witness_Resets :
    s0.pins.resetLow = false ∧ sRelease.blocks.mem.slots[(3 : SlotNo)].isSome = true ∧ s0.mgmt.programming = none
      ∧ ({ s0 with pins := ⟨true, true⟩ } : State).pins.resetLow = true := by decide +kernel

theorem witness_PowerFailNoticeAnswersEveryRequest :
    atRest s0 = true ∧ s0.pins.resetLow = false ∧ s0.blocks.journal.notice = false ∧ s0.blocks.journal.state ≠ .safe := by
  decide +kernel

theorem witness_NoticeDuringRecovery :
    let s := but s0 fun b => (journalIn .recovering b).modRecovery fun r => { r with phase := .scan, passed := 7 }
    s.pins.resetLow = false ∧ s.blocks.journal.notice = false ∧ s.blocks.journal.state = .recovering
      ∧ s.blocks.journal.state ≠ .safe := by decide +kernel

/-- Recovery that fails after the notice ends in SAFE, where READ_STATUS still says where it stood (R151, R161). -/
theorem test_safe_reports_recovery :
    let s := but s0 fun b => (outIn (.lineRead 0x100000080) .restore (.recoveryRead .header) (journalIn .recovering b)).modRecovery
      fun r => { r with phase := .scan, step := .header, passed := 7 }
    let t := afterCmd (.recoveryReadDone id3 .error) (afterCmd (.powerFailNotice true) s)
    t.blocks.journal.state = .safe ∧ (statusPayload t).recoveryAt = some (.ended, ⟨0, 0⟩, 7) := by decide +kernel

theorem witness_IdleExpiryBeginsTheCommit :
    (atRest s0 = true ∧ (s0.blocks.ctx 0).idleTimer = none)
      ∧ alone (but sCapture fun b => b.modCtx 0 fun x => { x with idleTimer := some 50 }) = true := by decide +kernel

theorem witness_GroupExpiryIssuesTheBurst :
    (atRest s0 = true ∧ s0.blocks.journal.groupTimer = .stopped)
      ∧ atRest sStaged = true ∧ sStaged.blocks.journal.groupTimer = .running 20 ∧ sStaged.blocks.journal.state = .ready
      ∧ burstBusy sStaged.blocks = false ∧ sStaged.blocks.journal.unburst ≠ []
      ∧ atRest (but sStaged bursting) = true
      ∧ burstBusy (but sStaged fun b => b.modJournal fun j =>
          { j with staging := j.staging ++ [⟨1, ⟨9, 9⟩, true, .undoHeader 4⟩] }).blocks = true := by decide +kernel

/-- Stream 0's write of lineJ in a conflict wait, and in a capture stall. -/
def sConflict : State :=
  but s0 fun b => ((waiting0 (.write lineJ 1 7) (.stalled .conflict) b).modStream 0 fun r =>
    { r with conflict := some ⟨lineJ, 1, 9, 1000⟩ }).modTrack fun _ => [⟨lineJ, 1, 9, .logged, some ⟨0, 0⟩, 0, 2⟩]

def sCaptureStall : State :=
  but s0 fun b => (waiting0 (.write lineJ 1 7) (.stalled .capture) b).modStream 0 fun r =>
    { r with captureStall := some 2000 }

theorem witness_DeadlinesRefuseTheStalledWrite :
    atRest s0 = true ∧ atRest sConflict = true ∧ (sConflict.blocks.stream 0).phase = .stalled .conflict
      ∧ (sConflict.blocks.stream 0).conflict = some ⟨lineJ, 1, 9, 1000⟩
      ∧ (sConflict.blocks.stream 0).queue = [⟨1, .write lineJ 1 7⟩]
      ∧ atRest sCaptureStall = true ∧ (sCaptureStall.blocks.stream 0).phase = .stalled .capture
      ∧ (sCaptureStall.blocks.stream 0).captureStall = some 2000
      ∧ (sCaptureStall.blocks.stream 0).queue = [⟨1, .write lineJ 1 7⟩] := by decide +kernel

/-- More requests of stream 0, a BARRIER and a READ, behind the current one. -/
def behind0 (b : Blocks) : Blocks :=
  b.modStream 0 fun r => { r with queue := r.queue ++ [⟨2, .barrier⟩, ⟨3, .read lineD⟩] }

theorem witness_RequestsBehindADeadline :
    ∀ s ∈ [sConflict, sCaptureStall], atRest (but s behind0) = true
      ∧ ((but s behind0).blocks.stream 0).queue = ⟨1, .write lineJ 1 7⟩ :: [⟨2, .barrier⟩, ⟨3, .read lineD⟩] := by
  decide +kernel

theorem witness_CompletionsAreMatchedByTheirIdentifier :
    sRelease.pins.resetLow = false ∧ completionOf (.strayCompletion ⟨3, 0⟩ .persisted) = some (⟨3, 0⟩, .persisted)
      ∧ sRelease.blocks.mem.matching ⟨3, 0⟩ = none ∧ sRelease.blocks.mem.matching ⟨4, 0⟩ = none
      ∧ sRelease.blocks.mem.matching id3 = some (out (.lineWrite lineJ 1 7) .release (.release lineJ))
      ∧ fits (.lineWrite lineJ 1 7) .persisted = true ∧ fits (.lineWrite lineJ 1 7) (.data 0) = false := by decide +kernel

/-- Stream 0's READ outstanding, of the DIRECT window and of the JOURNALED one. -/
def sReading (j : Bool) : State :=
  but s0 fun b => (outIn (.lineRead (if j then lineJ else lineD)) .passThrough (.passRead 0 j)
    (waiting0 (.read (if j then lineJ else lineD)) .reading b)).modHeld fun h =>
      { h with overlays := if j then [⟨0, lineJ, 0, 0⟩] else [] }

theorem witness_PassThroughReadEndsWithItsAnswer :
    ∀ j : Bool, atRest (sReading j) = true
      ∧ (sReading j).blocks.mem.matching id3 =
        some (out (.lineRead (if j then lineJ else lineD)) .passThrough (.passRead 0 j))
      ∧ ((sReading j).blocks.stream 0).phase = .reading
      ∧ ((sReading j).blocks.stream 0).queue = [⟨1, .read (if j then lineJ else lineD)⟩] := by decide +kernel

theorem witness_RequestsBehindARead :
    ∀ j : Bool, atRest (but (sReading j) behind0) = true ∧ ((but (sReading j) behind0).blocks.stream 0).queue =
      ⟨1, .read (if j then lineJ else lineD)⟩ :: [⟨2, .barrier⟩, ⟨3, .read lineD⟩] := by decide +kernel

/-- A direct write of stream 0 outstanding. -/
def sDirect : State :=
  but s0 fun b => (outIn (.lineWrite lineD 1 7) .passThrough (.directWrite 0) b).modStream 0 fun r =>
    { r with outstanding := 1 }

theorem witness_DirectWriteEndsSettleTheCount :
    (atRest sDirect = true
      ∧ sDirect.blocks.mem.matching id3 = some (out (.lineWrite lineD 1 7) .passThrough (.directWrite 0))
      ∧ (sDirect.blocks.stream 0).phase = .idle)
      ∧ atRest (but sDirect (waiting0 .barrier (.barrier []))) = true
      ∧ ((but sDirect (waiting0 .barrier (.barrier []))).blocks.stream 0).outstanding = 1 := by decide +kernel

/-- Stream 0 waits with so many writes outstanding, a direct write among them. -/
def sWaiting (n : Nat) (q : RequestKind) (p : Phase) : State :=
  but sDirect fun b => (waiting0 q p b).modStream 0 fun r => { r with outstanding := n }

theorem witness_TheCountFalls :
    (∀ n ∈ [2, 65535], atRest (sWaiting n .barrier (.barrier [])) = true
      ∧ ((sWaiting n .barrier (.barrier [])).blocks.stream 0).outstanding = n)
      ∧ (let s := sWaiting 65535 (.write lineD 1 7) .countHold
        atRest s = true ∧ (s.blocks.stream 0).phase = .countHold ∧ (s.blocks.stream 0).outstanding = 65535
          ∧ (s.blocks.stream 0).queue = [⟨1, .write lineD 1 7⟩]
          ∧ sentOn (.directWriteDone id3 .persisted) s 0 = [Response.ack 1 .okay]) := by decide +kernel

/-- After a first touch: its commit begun by the Management Port, and by stream 0, which waits. -/
def sCommitting : State := afterCmd (.managementCommit 6 [0]) sTouched
def sWaited : State := afterCmd (.upstreamCommit 0 1) sTouched

/-- The journal FAILED, its context FAULTED, with the capture of lineJ still outstanding. -/
def sFailedCapture : State :=
  but s0 fun b => { outIn (.lineRead lineJ) .capture (.capture 0)
    (journalIn .failed (tracked .capturing none (faultedBy .journalFailed b))) with nextCapture := 1 }

/-- The laws hold in each: a capture of an OPEN context, of a DRAINING one, of one that stream 0 waits for, in FAILED. -/
theorem witness_CaptureReadStagesTheRecord :
    (∀ s ∈ [sTouched, sCommitting, sWaited, sFailedCapture], ctxsLaw s.blocks = true
      ∧ trackLaw s.mgmt.active s.blocks = true ∧ serviceLaw s.mgmt.active s.blocks = true)
      ∧ (∀ s ∈ [sTouched, sCommitting, sWaited],
        (s.blocks.mem.matching ⟨0, 1⟩).map (fun o => (o.op, o.owner)) = some (.lineRead lineJ, .capture 0)
          ∧ captureEntry s.blocks 0 = some ⟨lineJ, 0, 1, .capturing, none, 0, 0⟩ ∧ s.blocks.journal.state = .ready)
      ∧ (∀ s ∈ [sTouched, sCommitting, sFailedCapture], alone s = true)
      ∧ (sTouched.blocks.ctx 0).state = .opened ∧ (sCommitting.blocks.ctx 0).state = .draining
      ∧ (sWaited.blocks.ctx 0).state = .draining ∧ commitsWait sWaited 0 (fun _ => 1)
      ∧ (sWaited.blocks.ctx 0).waiters = [0]
      ∧ (sFailedCapture.blocks.mem.matching id3).map (fun o => (o.op, o.owner)) = some (.lineRead lineJ, .capture 0)
      ∧ (captureEntry sFailedCapture.blocks 0).isSome = true ∧ sFailedCapture.blocks.journal.state = .failed := by
  unfold commitsWait; decide +kernel

theorem witness_ReleaseWriteEndsItsEntry :
    alone sRelease = true
      ∧ sRelease.blocks.mem.matching id3 = some (out (.lineWrite lineJ 1 7) .release (.release lineJ))
      ∧ issuedAlone sRelease lineJ (heldOne .issued) ∧ ((heldOne .issued).contributors.map (·.1)).Nodup
      ∧ (sRelease.blocks.ctx 0).state = .opened ∧ (sRelease.blocks.ctx 0).epoch = some 5 := by
  unfold issuedAlone; decide +kernel

/-- The last release of a DRAINING context outstanding, and one that leaves a CAPTURING line. -/
theorem witness_ADrainEndsWithItsRelease :
    (∀ st ∈ [CtxState.opened, .draining, .faulted], alone (but sRelease (ctxIn st)) = true)
      ∧ (but sRelease (ctxIn .draining)).blocks.heldCount 0 = 1
      ∧ (but sRelease (ctxIn .draining)).blocks.capturing 0 = false
      ∧ (let s := but (but sRelease (ctxIn .draining)) fun b => b.modTrack fun t =>
          t ++ [⟨0x80001000, 0, 5, .capturing, none, 1, 0⟩]
        alone s = true ∧ s.blocks.capturing 0 = true) := by decide +kernel

/-- A detached write of lineJ outstanding. -/
def sDetached : State :=
  but s0 fun b => (outIn (.lineWrite lineJ 1 7) .release (.detached lineJ) b).modHeld fun h =>
    { h with detached := [⟨lineJ, 1, 7, [(0, 1)]⟩] }

theorem witness_DetachedWriteEndsItsRecord :
    alone sDetached = true
      ∧ sDetached.blocks.mem.matching id3 = some (out (.lineWrite lineJ 1 7) .release (.detached lineJ))
      ∧ sDetached.blocks.held.detached.find? (fun x => decide (x.line = lineJ)) = some ⟨lineJ, 1, 7, [(0, 1)]⟩ := by
  decide +kernel

/-- The burst of capture 0's record outstanding. -/
def sBurst : State :=
  but s0 fun b => bursting (stagedRecord true (holding .waitLog (tracked .capturing (some ⟨0, 0⟩) (ctxIn .opened b))))

theorem witness_BurstMakesItsRecordsDurable :
    alone sBurst = true ∧ sBurst.blocks.journal.state = .ready
      ∧ sBurst.blocks.mem.matching id3 = some (out (.slotBurst 0x100000080 [1, 7]) .burst .burst)
      ∧ (burstOf sBurst).getLast? = some ⟨7, ⟨1, 1⟩, true, .undoData 0⟩
      ∧ (∀ x ∈ burstOf sBurst, x.use.isMarker = false) ∧ (∀ c, (sBurst.blocks.ctx c).rollback = none)
      ∧ (sBurst.blocks.track.map (·.capture)).Nodup
      ∧ sBurst.blocks.track = [⟨lineJ, 0, 5, .capturing, some ⟨0, 0⟩, 0, 0⟩] := by decide +kernel

/-- The same of a DRAINING context with no held entry left: its last capture. -/
theorem witness_ADrainEndsWithItsBurst :
    let s := but (but sBurst (ctxIn .draining)) fun b => b.modHeld fun _ => ⟨[], [], []⟩
    alone s = true ∧ s.blocks.heldCount 0 = 0 ∧ s.blocks.capturing 0 = true ∧ (∀ c, (s.blocks.ctx c).rollback = none)
      ∧ (burstOf s).getLast? = some ⟨7, ⟨1, 1⟩, true, .undoData 0⟩
      ∧ (afterCmd (.slotBurstDone id3 .persisted) s).blocks.ctx 0 = { s.blocks.ctx 0 with state := .marking } := by
  decide +kernel

/-- The burst of a marker outstanding: of a commit that stream 0 waits for, and of a rollback. -/
def sMarking : State :=
  but s0 fun b => (bursting (stagedMarker .commit (waiting0 .commit .commitWaiter (ctxIn .marking b)))).modCtx 0 fun x =>
    { x with waiters := [0], mgmtWaiter := true }

def sRetiring : State :=
  but s0 fun b => bursting (stagedMarker .retire (rollingBack ⟨.restore, .retire, [], 0⟩ b))

theorem witness_DurableMarkerEndsTheEpoch :
    (calm sMarking = true ∧ burstOf sMarking = [⟨1, ⟨0, 0⟩, true, .marker .commit 0 5⟩]
      ∧ (sMarking.blocks.ctx 0).waiters = [0] ∧ (sMarking.blocks.stream 0).phase = .commitWaiter
      ∧ (sMarking.blocks.stream 0).queue = [⟨1, .commit⟩] ∧ (sMarking.blocks.ctx 0).rollback = none)
      ∧ calm sRetiring = true ∧ burstOf sRetiring = [⟨1, ⟨0, 0⟩, true, .marker .retire 0 5⟩]
      ∧ (sRetiring.blocks.ctx 0).state = .rollback ∧ (sRetiring.blocks.ctx 0).epoch = some 5
      ∧ sRetiring.blocks.mem.matching id3 = some (out (.slotBurst 0x100000080 [1, 7]) .burst .burst) := by decide +kernel

/-- Stream 2, bound to context 1, with one request stalled on a cause. -/
def stalled2 (q : RequestKind) (cause : StallCause) (b : Blocks) : Blocks :=
  b.modStream 2 fun r => { r with
    queue := [⟨1, q⟩]
    phase := .stalled cause
    conflict := if cause = .conflict then some ⟨lineJ, 0, 5, 1000⟩ else none }

/-- The marker of context 0 outstanding, stream 2's write of lineJ waiting for its end. -/
def sContended : State :=
  but s0 fun b => stalled2 (.write lineJ 1 7) .conflict
    (bursting (stagedMarker .commit (tracked .logged (some ⟨0, 0⟩) (ctxIn .marking b))))

theorem reaches2 : reachesContext sContended 2 lineJ 1 1 := by
  refine ⟨by decide, ⟨winJ, ?_, rfl, by decide⟩, ?_, ?_, ?_, ?_⟩ <;> decide +kernel

theorem witness_AConflictWaitEnds :
    atRest sContended = true ∧ stalledAlone sContended 2 .conflict ⟨1, .write lineJ 1 7⟩
      ∧ burstOf sContended = [⟨1, ⟨0, 0⟩, true, .marker .commit 0 5⟩]
      ∧ sContended.blocks.mem.matching id3 = some (out (.slotBurst 0x100000080 [1, 7]) .burst .burst)
      ∧ (sContended.blocks.ctx 0).epoch = some 5 ∧ (sContended.blocks.ctx 0).state = .marking
      ∧ (sContended.blocks.ctx 0).waiters = [] ∧ sContended.blocks.journal.markerQueue = []
      ∧ (sContended.blocks.stream 2).conflict = some ⟨lineJ, 0, 5, 1000⟩
      ∧ sContended.blocks.track.map (fun e => (e.line, e.ctx)) = [(lineOf lineJ, 0)]
      ∧ sContended.blocks.trackedCount 1 < sContended.mgmt.active.ctxs[(1 : CtxId)].quota.toNat
      ∧ sContended.blocks.journal.pause = false ∧ sContended.blocks.held.full = false
      ∧ slotsNeeded (sContended.blocks.ctx 1).state ≤ sContended.blocks.journal.unreserved cfg.ringN
      ∧ sContended.blocks.epochs.counter ≠ lastEpoch := by unfold stalledAlone; decide +kernel

/-- An anchor update outstanding, after so many failures. -/
def sAnchor (failures : Nat) : State :=
  but s0 fun b => (outIn (.anchorWrite lineA 0) .anchor (.anchor (.update .a 3 ⟨0, 0⟩)) b).modJournal fun j =>
    { j with anchor := { j.anchor with busy := true, failures := failures } }

theorem witness_JournalWriteFailureFailsTheJournal :
    (sBurst.blocks.journal.state = .ready ∧ ctxsLaw sBurst.blocks = true
      ∧ (sBurst.blocks.mem.matching id3).map (·.owner) = some .burst ∧ (sBurst.blocks.ctx 0).epoch = some 5)
      ∧ ctxsLaw (sAnchor 1).blocks = true ∧ (sAnchor 1).blocks.journal.anchor.failures ≠ 0
      ∧ (sAnchor 1).blocks.mem.matching id3 = some (out (.anchorWrite lineA 0) .anchor (.anchor (.update .a 3 ⟨0, 0⟩))) := by
  decide +kernel

/-- A write of stream 2 stalled while a burst, or an anchor write that has failed once, is outstanding. -/
theorem witness_AStalledWriteIsRefused :
    ∀ s ∈ [but sBurst (stalled2 (.write lineJ 1 7) .conflict), but (sAnchor 1) (stalled2 (.write lineJ 1 7) .capture)],
      (stalledAlone s 2 .conflict ⟨1, .write lineJ 1 7⟩ ∨ stalledAlone s 2 .capture ⟨1, .write lineJ 1 7⟩)
      ∧ s.pins.resetLow = false ∧ s.blocks.journal.notice = false ∧ s.blocks.journal.state = .ready
      ∧ ctxsLaw s.blocks = true ∧ (∀ k, (2 : StreamId) ∉ (s.blocks.ctx k).waiters)
      ∧ lookup s.mgmt.active (lineOf lineJ) = .window winJ ∧ winJ.writers.getLsbD 2 = true
      ∧ s.mgmt.active.bindings[(2 : StreamId)] = some 1 ∧ (s.blocks.stream 2).outstanding < Config.outstandingLimit := by
  unfold stalledAlone; decide +kernel

theorem witness_AnchorUpdateMovesTheAnchoredHead :
    atRest (sAnchor 0) = true ∧ (sAnchor 0).blocks.journal.state = .ready ∧ (sAnchor 0).blocks.journal.anchor.failures = 0
      ∧ (sAnchor 0).blocks.mem.matching id3 = some (out (.anchorWrite lineA 0) .anchor (.anchor (.update .a 3 ⟨0, 0⟩))) := by
  decide +kernel

/-- An anchor write of FORMAT or of recovery's finish outstanding. -/
def sFormat (p : AnchorPurpose) : State :=
  but s0 fun b => journalIn .formatting (outIn (.anchorWrite lineA 0) .anchor (.anchor p) b)

def sFinish : State :=
  but s0 fun b => (journalIn .recovering (outIn (.anchorWrite lineA 0) .anchor (.anchor .finishSecond) b)).modRecovery
    fun r => { r with phase := .finish }

theorem witness_LastAnchorCopyMakesTheJournalReady :
    (sFormat .formatA).blocks.mem.matching id3 = some (out (.anchorWrite lineA 0) .anchor (.anchor .formatA))
      ∧ calm (sFormat .formatB) = true
      ∧ (sFormat .formatB).blocks.mem.matching id3 = some (out (.anchorWrite lineA 0) .anchor (.anchor .formatB))
      ∧ calm sFinish = true ∧ sFinish.blocks.recovery.phase = .finish
      ∧ sFinish.blocks.mem.matching id3 = some (out (.anchorWrite lineA 0) .anchor (.anchor .finishSecond)) := by
  decide +kernel

/-- A COMMIT of stream 2 stalled on FORMATTING, and its READ stalled on RECOVERING, with the last anchor write
outstanding. -/
def sCommitStalls : State := but (sFormat .formatB) (stalled2 .commit .formatting)
def sReadStalls : State := but sFinish (stalled2 (.read lineJ) .recovering)

theorem witness_StalledRequestsGoOn :
    (atRest sCommitStalls = true ∧ stalledAlone sCommitStalls 2 .formatting ⟨1, .commit⟩
      ∧ (sCommitStalls.blocks.ctx 1).state = .idle ∧ sCommitStalls.mgmt.active.bindings[(2 : StreamId)] = some 1
      ∧ sCommitStalls.blocks.journal.state = .formatting
      ∧ sentOn (.anchorWriteDone id3 .persisted) sCommitStalls 2 = [Response.done 1 .okay])
      ∧ atRest sReadStalls = true ∧ stalledAlone sReadStalls 2 .recovering ⟨1, .read lineJ⟩
      ∧ sReadStalls.blocks.journal.state = .recovering ∧ sReadStalls.blocks.recovery.phase = .finish
      ∧ lookup sReadStalls.mgmt.active (lineOf lineJ) = .window winJ
      ∧ sReadStalls.blocks.lineRestoring (lineOf lineJ) = false
      ∧ sReadStalls.blocks.held.coverMask (lineOf lineJ) ≠ fullMask := by
  unfold stalledAlone; decide +kernel

theorem witness_RestoreReadGivesTheOldData :
    calm sRestoring = true
      ∧ sRestoring.blocks.mem.matching id3 = some (out (.lineRead 0x1000000C0) .restore (.restoreRead 0 lineJ))
      ∧ restoreReading sRestoring 0 (restoring .read) lineJ ∧ (sRestoring.blocks.ctx 0).epoch = some 5
      ∧ sRestoring.blocks.track = [⟨lineJ, 0, 5, .restoring, some ⟨0, 0⟩, 0, 0⟩] := by
  unfold restoreReading; decide +kernel

/-- The RESTORE_WRITE of lineJ outstanding. -/
def sWritingBack : State :=
  but s0 fun b => outIn (.lineWrite lineJ fullMask 7) .restore (.restoreWrite 0 lineJ)
    (tracked .restoring (some ⟨0, 0⟩) (rollingBack (restoring .write) b))

theorem witness_RestoreWriteRestoresTheLine :
    calm sWritingBack = true
      ∧ sWritingBack.blocks.mem.matching id3 = some (out (.lineWrite lineJ fullMask 7) .restore (.restoreWrite 0 lineJ))
      ∧ (sWritingBack.blocks.ctx 0).state = .rollback ∧ (sWritingBack.blocks.ctx 0).rollback = some (restoring .write)
      ∧ (∃ x ∈ (restoring .write).slots, x.line = lineJ ∧ x.op = .write) ∧ (sWritingBack.blocks.ctx 0).epoch = some 5 := by
  decide +kernel

theorem witness_AReadOfTheRestoredLineGoesOn :
    let s := but sWritingBack (stalled2 (.read lineJ) .restoring)
    atRest s = true ∧ stalledAlone s 2 .restoring ⟨1, .read lineJ⟩ ∧ s.blocks.journal.state ≠ .recovering
      ∧ lookup s.mgmt.active (lineOf lineJ) = .window winJ
      ∧ s.blocks.entryOf (lineOf lineJ) = some ⟨lineJ, 0, 5, .restoring, some ⟨0, 0⟩, 0, 0⟩
      ∧ s.blocks.held.coverMask (lineOf lineJ) ≠ fullMask := by unfold stalledAlone; decide +kernel

/-- A recovery operation outstanding in a phase. -/
def sRecovering (op : MemOp) (ow : Owner) (f : RecoveryEngine → RecoveryEngine) : State :=
  but s0 fun b => (journalIn .recovering (outIn op .restore ow b)).modRecovery f

/-- An anchor copy of a ring of 1,024 slots. -/
def copyOf (gen : Count32) : LineData := buildAnchor ⟨gen, 1023, 2047, 9, 1024, 3⟩

/-- Its read of anchor copy A outstanding. -/
def sAnchorRead : State :=
  sRecovering (.lineRead lineA) (.recoveryRead (.anchor .a)) fun r => { r with phase := .anchor }

theorem witness_RecoveryOperationsAdvanceRecovery :
    (sAnchorRead.blocks.recovery.anchorB = none ∧ sAnchorRead.blocks.recovery.phase = .anchor
      ∧ sAnchorRead.blocks.mem.matching id3 = some (out (.lineRead lineA) .restore (.recoveryRead (.anchor .a))))
      ∧ chooseAnchor 0 0 = none ∧ chooseAnchor (copyOf 4) (copyOf 5) = some .b ∧ chooseAnchor (copyOf 4) 0 = some .a
      ∧ (sRecovering (.lineWrite lineJ fullMask 7) .recoveryWrite fun r => { r with phase := .restore }).blocks.mem.matching
        id3 = some (out (.lineWrite lineJ fullMask 7) .restore .recoveryWrite) := by decide +kernel

/-- The copy chosen. -/
def anchor5 : ChosenAnchor := ⟨.b, 5, ⟨1023, 2047⟩, 9, 1024, 3⟩

/-- Under its format count, at its head: the header slots of UNDO records of epoch 5 with old data 7, of lineJ, of the last
line of the ring area and of the next one; and a COMMIT marker. -/
def undoSlot : LineData :=
  3113810602441482779811554649554817770191169970542382231531434954759162899441383847118886010027989257473974136709866017921681384259075173901823468021743617#512
def undoLast : LineData :=
  4222747810313443045329046056511601638330754671948170027615269360539973485790177166669068488069243009278014319910068231805058814935734401028950949797822465#512
def undoNext : LineData :=
  7519406736273945550409929559938340041407751666833570871373114105556039266618638286514482836010144962264501399768514426354085111797420179768414925215498241#512
def commitSlot : LineData :=
  2164432131551308301640625887048888703235016279438131016951006158878957282398224656269917734639170233776047719799617315703990704227781687557876237041926146#512

/-- A recovery read, or a restore write, outstanding while recovery stands at the head of the ring. -/
def sPass (op : MemOp) (ow : Owner) (phase : RecoveryPhase) (step : RecoveryStep) (writes : Nat) : State :=
  sRecovering op ow fun r => { r with
    phase := phase
    step := step
    writes := writes
    chosen := some anchor5
    pos := anchor5.head
    endOfLog := some ⟨1, 2049⟩
    table := [⟨5, 0, false⟩]
    toVisit := [.undo] }

/-- What the scan and the restore pass can meet in a header: an UNDO record, at the last place that leaves room for it, a
marker, or neither. -/
theorem witness_PassHeaders :
    chosenOf .b (copyOf 5) = anchor5
      ∧ headerSeq undoSlot = anchor5.head.seq ∧ headerKind undoSlot = some .undo ∧ headerEpoch undoSlot = 5
      ∧ 1022 + 2 ≤ anchor5.ringSize ∧ anchor5.ringSize < 1023 + 2
      ∧ headerKind commitSlot = some .commit ∧ headerSeq commitSlot = anchor5.head.seq
      ∧ storedCheck commitSlot = headerCheck anchor5.formatCount commitSlot none ∧ headerKind 0 = none
      ∧ storedCheck undoSlot ≠ headerCheck anchor5.formatCount undoSlot none
      ∧ tableTake [⟨5, 1, false⟩] .undo 5 0 = none ∧ (tableTake [⟨5, 0, false⟩] .undo 5 0).isSome = true := by
  decide +kernel

/-- And in a data slot: old data that its header vouches for, of a line outside the ring area and in it, and other data. -/
theorem witness_PassData :
    anchor5.formatCount = 3 ∧ storedCheck undoSlot = headerCheck 3 undoSlot (some 7)
      ∧ storedCheck undoSlot ≠ headerCheck 3 undoSlot (some 8)
      ∧ storedCheck undoLast = headerCheck 3 undoLast (some 7)
      ∧ storedCheck undoNext = headerCheck 3 undoNext (some 7)
      ∧ lineOf (headerLine undoSlot) = lineJ ∧ lineOf (headerLine undoLast) = lineA + 64 * 1025
      ∧ inJournalArea 0x100000000 1024 (lineOf (headerLine undoLast)).toNat = true
      ∧ inJournalArea 0x100000000 1024 (lineOf (headerLine undoNext)).toNat = false
      ∧ inJournalArea 0x100000000 1024 (lineOf (headerLine undoSlot)).toNat = false := by
  rw [Laws.headerCheck_of_parts 3 undoSlot 7 (c := 3904054833#32) (e := 3297510084#32) (by decide +kernel) (by decide +kernel),
    Laws.headerCheck_of_parts 3 undoSlot 8 (c := 3904054833#32) (e := 2104145795#32) (by decide +kernel) (by decide +kernel),
    Laws.headerCheck_of_parts 3 undoLast 7 (c := 3597976981#32) (e := 2942280574#32) (by decide +kernel) (by decide +kernel),
    Laws.headerCheck_of_parts 3 undoNext 7 (c := 2464514758#32) (e := 1886250957#32) (by decide +kernel) (by decide +kernel)]
  decide +kernel

theorem witness_RecoveryPasses :
    (∀ p ∈ [(RecoveryPhase.scan, RecoveryRead.header, RecoveryStep.header), (.scan, .dataSlot, .dataSlot undoSlot),
        (.restore, .header, .header), (.restore, .dataSlot, .dataSlot undoSlot)], ∀ n ∈ [0, 7, 8],
      (sPass (.lineRead 0x100000080) (.recoveryRead p.2.1) p.1 p.2.2 n).blocks.recovery.chosen = some anchor5
      ∧ (sPass (.lineRead 0x100000080) (.recoveryRead p.2.1) p.1 p.2.2 n).blocks.mem.matching id3 =
        some (out (.lineRead 0x100000080) .restore (.recoveryRead p.2.1))
      ∧ (sPass (.lineRead 0x100000080) (.recoveryRead p.2.1) p.1 p.2.2 n).blocks.journal.state = .recovering)
    ∧ (∃ x ∈ (sPass (.lineRead lineA) .recoveryWrite .restore .header 0).blocks.recovery.table,
      x.epoch = headerEpoch undoSlot)
    ∧ ∀ st ∈ [RecoveryStep.writesFull, .lastWrites, .header],
      (sPass (.lineWrite lineJ fullMask 7) .recoveryWrite .restore st 1).blocks.mem.matching id3 =
        some (out (.lineWrite lineJ fullMask 7) .restore .recoveryWrite) := by decide +kernel

/-- A table of n entries, the last of them complete when asked. -/
def tableOf (n : Nat) (complete : Bool) : List RecoveryEpoch :=
  (List.range n).map fun k => ⟨BitVec.ofNat 48 (10 + k), 0, complete && decide (k + 1 = n)⟩

theorem witness_EpochTable :
    (∀ n ∈ [0, 7, 8], ∀ x ∈ tableOf n true, x.epoch ≠ 5) ∧ (tableOf 7 true).length < 8
      ∧ (∀ x ∈ tableOf 8 false, x.complete = false)
      ∧ tableOf 8 true = (tableOf 8 true).take 7 ++ ⟨17, 0, true⟩ :: [] ∧ (∀ y ∈ (tableOf 8 true).take 7, y.complete = false)
      ∧ ∀ y ∈ (tableOf 8 true).take 7, y.epoch ≠ 17 := by decide +kernel

theorem witness_TimeoutEndsTheOperation :
    s0.pins.resetLow = false ∧ s0.blocks.mem.slots[(31 : SlotNo)] = none
      ∧ sRelease.blocks.mem.slots[(3 : SlotNo)] = some (out (.lineWrite lineJ 1 7) .release (.release lineJ)) := by
  decide +kernel

/-- A field that is absent has every bit set, one that is given its value. -/
theorem test_absent_field : (FieldValue.number 5).bits 0 0 = 5 % 2 ^ Config.fieldWidth 0 0
    ∧ FieldValue.absent.bits 0 0 = 2 ^ Config.fieldWidth 0 0 - 1 := ⟨rfl, rfl⟩

theorem witness_LayoutsReadBack :
    legalRingSize 1024 = true ∧ legalRingSize 4194304 = true ∧ legalRingSize 1023 = false ∧ legalRingSize 1536 = false
      ∧ (1023#32).toNat < (1024#32).toNat := by decide +kernel

/-! ## Witnesses: captures and markers asked for, pauses, anchor updates, streams told -/

/-- n slots of the buffer occupied. -/
def filled (n : Nat) (b : Blocks) : Blocks :=
  b.modJournal fun j => { j with staging := List.replicate n ⟨0, ⟨9, 9⟩, true, .undoHeader 9⟩ }

/-- A marker of context 1 waits for a buffer slot, a capture for two. -/
def markerWaits (b : Blocks) : Blocks := (filled 16 b).modJournal fun j => { j with markerQueue := [⟨.commit, 1⟩] }
def captureWaits (b : Blocks) : Blocks := (filled 15 b).modJournal fun j => { j with captureQueue := [7] }

theorem witness_ACaptureIsAsked :
    (∀ n ∈ [0, 14, 15, 16], let s := but s0 (filled n)
      alone s = true ∧ s.blocks.mem.waiting = [] ∧ s.blocks.journal.markerQueue = [] ∧ s.blocks.journal.captureQueue = []
        ∧ captureLaw s.blocks = true ∧ (bufferHas 2 s.blocks.journal ↔ n ≤ 14))
      ∧ ∀ s ∈ [but s0 markerWaits, but s0 captureWaits], alone s = true ∧ s.blocks.mem.waiting = [] := by
  unfold bufferHas; decide +kernel

/-- n slots in use, r reserved, the head there, the copies with generations 1 and 2. -/
def ringAt (n r : Nat) (b : Blocks) : Blocks :=
  b.modJournal fun j => { j with
    tail := ⟨n, BitVec.ofNat 32 n⟩
    head := ⟨n, BitVec.ofNat 32 n⟩
    reserved := r
    anchor := { j.anchor with genA := 1, genB := 2 } }

/-- A first touch of an IDLE context that leaves 63 slots unreserved, or 64, with a head to anchor or none. -/
theorem witness_AFirstTouchPauses :
    (∀ p ∈ [(0, 957), (0, 958), (1, 956), (1, 957)], let s := but s0 (ringAt p.1 p.2)
      alone s = true ∧ s.blocks.mem.waiting = [] ∧ s.blocks.journal.pause = false ∧ s.blocks.journal.anchor.busy = false
        ∧ slotsNeeded (s.blocks.ctx 0).state ≤ s.blocks.journal.unreserved cfg.ringN
        ∧ (pauseNow cfg { s.blocks.journal with reserved := p.2 + 3 } = decide (p.1 + p.2 = 958))
        ∧ (s.blocks.journal.anchored.distance s.blocks.journal.head ≠ 0 ↔ p.1 ≠ 0))
      ∧ updateTarget (ringAt 0 0 s0.blocks).journal.anchor .a
      ∧ updateTarget { AnchorState.reset with suspectB := true } .b := by
  unfold updateTarget suspectOf genOf; decide +kernel

/-- The counter at 2^48 - 1, context 1 OPEN. -/
def sLastEpoch : State :=
  but s0 fun b => { b.modCtx 1 fun x => { x with state := .opened, epoch := some 9 } with
    epochs := { (b.modCtx 1 fun x => { x with state := .opened, epoch := some 9 }).epochs with counter := lastEpoch } }

theorem witness_TheLastEpochIsOpened :
    (alone sLastEpoch = true ∧ ctxsLaw sLastEpoch.blocks = true ∧ sLastEpoch.blocks.entryOf (lineOf lineJ) = none
      ∧ sLastEpoch.blocks.trackedCount 0 < sLastEpoch.mgmt.active.ctxs[(0 : CtxId)].quota.toNat
      ∧ sLastEpoch.blocks.journal.pause = false ∧ 3 ≤ sLastEpoch.blocks.journal.unreserved cfg.ringN
      ∧ sLastEpoch.blocks.held.full = false ∧ sLastEpoch.blocks.epochs.counter = lastEpoch
      ∧ (sLastEpoch.blocks.ctx 0).state = .idle ∧ (sLastEpoch.blocks.ctx 1).epoch = some 9
      ∧ (sLastEpoch.blocks.ctx 1).state ≠ .faulted)
      ∧ reachesContext sLastEpoch 0 lineJ 1 0 :=
  ⟨by decide +kernel, reaches0 _ rfl (by decide +kernel) (by decide +kernel) (by decide +kernel)⟩

/-- A commit begun with a staged record, by a stream, by the Management Port, by the idle timer. -/
theorem witness_ACommitBeginsWithDemands :
    let s := but sStaged fun b => b.modCtx 0 fun x => { x with idleTimer := some 50 }
    alone s = true ∧ s.blocks.journal.state = .ready ∧ (s.blocks.ctx 0).state = .opened ∧ mustDrain s.blocks 0 = true
      ∧ s.blocks.track = [⟨lineJ, 0, 5, .capturing, some ⟨0, 0⟩, 0, 0⟩]
      ∧ (∃ x ∈ s.blocks.journal.staging, x.pos.seq = (⟨0, 0⟩ : RingPtr).dataSeq) := by decide +kernel

/-- Where a marker is asked for: a commit with nothing to drain, the last release of a drain, a rollback with every line
RESTORED, the last RESTORE_WRITE. -/
def markerStates : List State :=
  [but s0 fun b => (ctxIn .opened b).modCtx 0 fun x => { x with idleTimer := some 50 },
    but sRelease (ctxIn .draining), sFaulted .restored, sWritingBack]

theorem witness_AMarkerIsAsked :
    (∀ s ∈ markerStates, (∀ n ∈ [0, 15, 16], let s' := but s (filled n)
        alone s' = true ∧ s'.blocks.journal.markerQueue = [] ∧ (bufferHas 1 s'.blocks.journal ↔ n ≤ 15)
          ∧ burstDue cfg s'.blocks = false ∧ burstBusy s'.blocks = decide (n ≠ 0))
      ∧ alone (but s markerWaits) = true ∧ s.blocks.journal.state = .ready ∧ (s.blocks.ctx 0).epoch = some 5)
      ∧ mustDrain (markerStates[0]).blocks 0 = false
      ∧ (∀ e ∈ sWritingBack.blocks.track, e.ctx = 0 → e.state = .restored ∨ (e.line = lineJ ∧ e.state = .restoring)) := by
  unfold bufferHas; decide +kernel

/-- Stream 0 waits for the commit of the DRAINING context 0. -/
def drainWaits (b : Blocks) : Blocks :=
  (waiting0 .commit .commitWaiter (ctxIn .draining b)).modCtx 0 fun x => { x with waiters := [0] }

theorem witness_CommitWaitersAreTold :
    (∀ s ∈ [but sCapture drainWaits, but sRelease drainWaits], commitsWait s 0 (fun _ => 1)
      ∧ s.blocks.journal.state = .ready ∧ (s.blocks.ctx 0).waiters = [0] ∧ (s.blocks.ctx 0).state = .draining
      ∧ (s.blocks.ctx 0).epoch = some 5)
      ∧ issuedAlone (but sRelease drainWaits) lineJ (heldOne .issued)
      ∧ (∀ s ∈ [but sBurst drainWaits, but (sAnchor 1) drainWaits], ctxsLaw s.blocks = true
        ∧ s.blocks.journal.state = .ready ∧ (0 : StreamId) ∈ (s.blocks.ctx 0).waiters
        ∧ (s.blocks.stream 0).phase = .commitWaiter ∧ (s.blocks.stream 0).queue = [⟨1, .commit⟩]) := by
  unfold commitsWait issuedAlone; decide +kernel

/-- Stream 2 reads lineJ from memory. -/
def readingJ (b : Blocks) : Blocks :=
  (b.modStream 2 fun r => { r with queue := [⟨1, .read lineJ⟩], phase := .reading }).modHeld fun h =>
    { h with overlays := [⟨2, lineJ, 0, 0⟩] }

theorem witness_OverlaysTakePersistedBytes :
    (∀ s ∈ [but sRelease readingJ, but sDetached readingJ], onlyReads s)
      ∧ issuedAlone (but sRelease readingJ) lineJ (heldOne .issued)
      ∧ (but sDetached readingJ).blocks.held.detached.find? (fun x => decide (x.line = lineJ)) = some ⟨lineJ, 1, 7, [(0, 1)]⟩ := by
  unfold onlyReads issuedAlone; decide +kernel

/-- One more operation outstanding. -/
def alsoOut (k : SlotNo) (o : Outstanding) (b : Blocks) : Blocks :=
  b.modMem fun m => { m with slots := m.slots.set k.val (some o) }

/-- In FAILED with an ISSUED entry and a READY one behind it, and an outstanding restore write and restore read. -/
def sBroken : State :=
  but sRelease fun b => alsoOut 5 ⟨.lineWrite 0x80002000 fullMask 7, .restore, .restoreWrite 1 0x80002000, 0, 100⟩
    (alsoOut 6 ⟨.lineRead lineA, .restore, .restoreRead 1 0x80003000, 0, 100⟩
      ((journalIn .failed (faultedBy .journalFailed b)).modHeld fun h =>
        { h with entries := h.entries ++ [heldOne .ready] }))

theorem witness_FormatDetaches :
    alone sBroken = true ∧ sBroken.blocks.journal.state = .failed ∧ sBroken.mgmt.active.journal.ringSize ≠ 0
      ∧ anchorOutstanding sBroken.blocks = false
      ∧ sBroken.blocks.mem.ops.filterMap restoreDetached = [⟨0x80002000, fullMask, 7, []⟩] := by decide +kernel

/-- The ring as in ringAt, paused or not. -/
def ringPaused (n r : Nat) (p : Bool) (b : Blocks) : Blocks := (ringAt n r b).modJournal fun j => { j with pause := p }

/-- The end of an epoch that leaves the head 63 slots ahead of the anchored head, or 64 (the stride), paused or not. -/
theorem witness_AnUpdateIsDue :
    ∀ n ∈ [0, 63, 64], ∀ p : Bool, let s := but sMarking (ringPaused n 0 p)
      calm s = true ∧ s.blocks.journal.anchor.busy = false ∧ updateTarget s.blocks.journal.anchor .a
        ∧ (s.blocks.journal.live.filter fun l => decide (l.epoch ≠ 5)) = []
        ∧ (cfg.stride ≤ s.blocks.journal.anchored.distance s.blocks.journal.tail ↔ n = 64) := by
  unfold updateTarget suspectOf genOf; decide +kernel

/-- An update of copy A outstanding while the head has gone on, with space below the pause level, below the resume level,
or enough. -/
theorem witness_AnUpdateEnds :
    (∀ n ∈ [0, 63, 64], ∀ p : Bool, ∀ r ∈ [0, 890, 950], let s := but (sAnchor 0) (ringPaused n r p)
      calm s = true ∧ s.blocks.journal.state = .ready ∧ s.blocks.journal.anchor.failures = 0
        ∧ s.blocks.mem.matching id3 = some (out (.anchorWrite lineA 0) .anchor (.anchor (.update .a 3 ⟨0, 0⟩))))
      ∧ updateTarget (afterWritten (ringAt 0 0 s0.blocks).journal.anchor .a 3) .b
      ∧ updateTarget (afterFirstFailure (ringAt 0 0 s0.blocks).journal.anchor .a) .a := by
  unfold updateTarget suspectOf genOf; decide +kernel

/-- Stream 2's write in a capture stall while an anchor update is outstanding that brings space. -/
theorem witness_ACaptureStallEnds :
    let s := but (sAnchor 0) (stalled2 (.write lineJ 1 7) .capture)
    (atRest s = true ∧ stalledAlone s 2 .capture ⟨1, .write lineJ 1 7⟩ ∧ s.blocks.entryOf (lineOf lineJ) = none
      ∧ s.blocks.trackedCount 1 < s.mgmt.active.ctxs[(1 : CtxId)].quota.toNat ∧ s.blocks.held.full = false
      ∧ s.blocks.epochs.counter ≠ lastEpoch
      ∧ sentOn (.anchorWriteDone id3 .persisted) s 2 = [Response.ack 1 .okay])
      ∧ reachesContext s 2 lineJ 1 1 := by
  refine ⟨by unfold stalledAlone; decide +kernel, by decide, ⟨winJ, ?_, rfl, by decide⟩, ?_, ?_, ?_, ?_⟩ <;>
    decide +kernel

/-- The first copy of recovery's finish outstanding. -/
def sFinishFirst : State :=
  but s0 fun b => (journalIn .recovering (outIn (.anchorWrite lineA 0) .anchor (.anchor .finishFirst) b)).modRecovery
    fun r => { r with phase := .finish, chosen := some anchor5, endOfLog := some ⟨1, 2049⟩ }

theorem witness_TheFinishGoesOn :
    (sFinishFirst.blocks.mem.matching id3).map (·.owner) = some (.anchor .finishFirst)
      ∧ sFinishFirst.blocks.recovery.phase = .finish ∧ sFinishFirst.blocks.recovery.chosen = some anchor5
      ∧ (∀ p ∈ [AnchorPurpose.formatA, .formatB], (sFormat p).blocks.journal.state = .formatting
        ∧ ((sFormat p).blocks.mem.matching id3).map (·.owner) = some (.anchor p))
      ∧ (but sFinish fun b => b.modRecovery fun r => { r with chosen := some anchor5 }).blocks.recovery.chosen =
        some anchor5 := by decide +kernel

/-- The reads of both anchor copies, each first and second. -/
theorem witness_AnchorReads (copy : AnchorCopy) (other : Option LineData) :
    let s := sRecovering (.lineRead lineA) (.recoveryRead (.anchor copy)) fun r =>
      { r with phase := .anchor, anchorA := other, anchorB := other }
    s.pins.resetLow = false ∧ s.blocks.journal.notice = false ∧ s.blocks.recovery.phase = .anchor
      ∧ s.blocks.recovery.anchorA = other ∧ s.blocks.recovery.anchorB = other
      ∧ s.blocks.mem.matching id3 = some (out (.lineRead lineA) .restore (.recoveryRead (.anchor copy))) :=
  ⟨rfl, rfl, rfl, rfl, rfl, rfl⟩

/-- Valid copies with other format counts, other generations, and equal ones. -/
theorem witness_AnchorRows :
    let other := buildAnchor ⟨4, 1023, 2047, 9, 1024, 2⟩
    anchorValid 0 = false ∧ anchorValid (copyOf 4) = true ∧ anchorValid (copyOf 5) = true ∧ anchorValid other = true
      ∧ (readAnchor other).formatCount ≠ (readAnchor (copyOf 4)).formatCount
      ∧ (readAnchor (copyOf 5)).generation ≠ (readAnchor (copyOf 4)).generation
      ∧ chooseAnchor other (copyOf 4) = some .b ∧ chooseAnchor (copyOf 4) (copyOf 4) = some .a := by decide +kernel

end Sys2Proof.Tests
end

/-! SUPPORT. What the rest of an event leaves as it was: the functions that touch neither the contexts nor the tracking
entries nor the operation slots, and those that touch the contexts but spare one that is FAULTED. -/

namespace Sys2Proof.Frames

open Sys2Proof.Machine Sys2Proof.Safety Sys2Proof.Laws

/-! ## Contexts, tracking entries and operation slots untouched -/

/-- Two states of the blocks agree on the contexts, the tracking entries and the operation slots. -/
structure Untouched (b b' : Blocks) : Prop where
  epochs : b'.epochs = b.epochs
  track : b'.track = b.track
  slots : b'.mem.slots = b.mem.slots
  issue : b'.mem.issue = b.mem.issue

theorem Untouched.refl (b : Blocks) : Untouched b b := ⟨rfl, rfl, rfl, rfl⟩

/-- The outer step first, so that a chain of steps is read off its goal from the outside in. -/
theorem Untouched.after {a b c : Blocks} (k : Untouched b c) (h : Untouched a b) : Untouched a c :=
  ⟨k.epochs.trans h.epochs, k.track.trans h.track, k.slots.trans h.slots, k.issue.trans h.issue⟩

theorem Untouched.ctx {b b' : Blocks} (h : Untouched b b') (c : CtxId) : b'.ctx c = b.ctx c := by
  simp only [Blocks.ctx, h.epochs]

theorem untouched_modStream (i : StreamId) (f : StreamRec → StreamRec) (b : Blocks) : Untouched b (b.modStream i f) :=
  ⟨rfl, rfl, rfl, rfl⟩

theorem untouched_mapStreams (f : StreamId → StreamRec → StreamRec) (b : Blocks) : Untouched b (b.mapStreams f) := by
  constructor <;> simp only [Blocks.mapStreams_epochs, Blocks.mapStreams_track, Blocks.mapStreams_mem]

theorem untouched_modJournal (f : JournalWriter → JournalWriter) (b : Blocks) : Untouched b (b.modJournal f) :=
  ⟨rfl, rfl, rfl, rfl⟩

theorem untouched_modHeld (f : HeldQueue → HeldQueue) (b : Blocks) : Untouched b (b.modHeld f) := ⟨rfl, rfl, rfl, rfl⟩

theorem untouched_modEvents (f : EventUnit → EventUnit) (b : Blocks) : Untouched b (b.modEvents f) :=
  ⟨rfl, rfl, rfl, rfl⟩

theorem untouched_free (f : FreeChoices) (b : Blocks) : Untouched b { b with free := f } := ⟨rfl, rfl, rfl, rfl⟩

theorem untouched_withdraw (p : MemRequest → Bool) (b : Blocks) : Untouched b (withdraw p b) := ⟨rfl, rfl, rfl, rfl⟩

theorem untouched_handOver (op : MemOp) (cls : MemClass) (o : Owner) (b : Blocks) :
    Untouched b (handOver op cls o b) := by
  unfold handOver
  split
  · exact .refl b
  · exact ⟨rfl, rfl, rfl, rfl⟩

theorem untouched_foldl {α : Type} {f : Blocks → α → Blocks} (h : ∀ b a, Untouched b (f b a)) (l : List α)
    (b : Blocks) : Untouched b (l.foldl f b) := by
  induction l generalizing b with
  | nil => exact .refl b
  | cons a l ih => exact (ih _).after (h b a)

/-! ### Request Port and Held Write Queue -/

theorem untouched_wake (p : StreamId → StreamRec → StallCause → Bool) (b : Blocks) : Untouched b (wake p b) :=
  untouched_mapStreams _ b

theorem untouched_lineFreed (line : Addr) (b : Blocks) : Untouched b (lineFreed line b) := by
  unfold lineFreed
  exact .after (untouched_wake _ _) (untouched_mapStreams _ b)

theorem untouched_freeLines (l : List TrackEntry) (b : Blocks) :
    Untouched b (l.foldl (fun b e => lineFreed e.line b) b) := by
  refine untouched_foldl (fun b e => ?_) l b
  exact untouched_lineFreed e.line b

theorem untouched_answer (i : StreamId) (st : UpStatus) (bytes : Option LineData) (b : Blocks) :
    Untouched b (answer i st bytes b) := untouched_modStream i _ b

theorem untouched_answerBarrier (i : StreamId) (b : Blocks) : Untouched b (answerBarrier i b) := ⟨rfl, rfl, rfl, rfl⟩

theorem untouched_refuseWrite (i : StreamId) (line : Addr) (st : UpStatus) (b : Blocks) :
    Untouched b (refuseWrite i line st b) := by
  have ha := untouched_answer i st none b
  unfold refuseWrite
  split
  case h_4 => exact ha
  all_goals exact .after (untouched_modEvents _ _) ha

theorem untouched_settleContributors (reason : Option LossReason) (cs : List (StreamId × Nat)) (b : Blocks) :
    Untouched b (settleContributors reason cs b) :=
  untouched_foldl (fun b _ => untouched_modStream _ _ b) cs b

theorem untouched_discardHeld (p : HeldEntry → Bool) (reason : Option LossReason) (b : Blocks) :
    Untouched b (discardHeld p reason b) := by
  unfold discardHeld
  dsimp only
  split
  · exact .refl b
  · exact .after (untouched_wake _ _) (.after (untouched_withdraw _ _)
      (.after (untouched_foldl (fun b (e : HeldEntry) => untouched_settleContributors reason e.contributors b) _ _)
        (untouched_modHeld _ b)))

/-! ### Journal Writer -/

theorem untouched_placeDemand (d : Demand) (b : Blocks) : Untouched b (placeDemand d b) := untouched_modJournal _ b

theorem untouched_anchorCheck (cfg : Image) (b : Blocks) : Untouched b (anchorCheck cfg b) := by
  unfold anchorCheck
  split
  · exact .after (untouched_handOver _ _ _ _) (untouched_modJournal _ b)
  · exact .refl b

theorem untouched_evalPause (cfg : Image) (b : Blocks) : Untouched b (evalPause cfg b) := by
  unfold evalPause
  dsimp only
  split
  · exact .refl b
  split
  · exact .after (untouched_anchorCheck cfg _) (.after (untouched_modEvents _ _) (untouched_modJournal _ b))
  split
  · exact .after (untouched_wake _ _) (.after (untouched_modEvents _ _) (untouched_modJournal _ b))
  · exact .refl b

theorem untouched_reserve (cfg : Image) (k : Nat) (b : Blocks) : Untouched b (reserve cfg k b) :=
  .after (untouched_evalPause cfg _) (untouched_modJournal _ b)

theorem untouched_releaseSpace (cfg : Image) (k : Nat) (b : Blocks) : Untouched b (releaseSpace cfg k b) := by
  unfold releaseSpace
  split
  · exact .refl b
  · exact .after (untouched_evalPause cfg _) (.after (untouched_wake _ _) (untouched_modJournal _ b))

theorem untouched_issueBurst (cfg : Image) (b : Blocks) : Untouched b (issueBurst cfg b) := by
  unfold issueBurst
  dsimp only
  split
  · exact .refl b
  · exact .after (untouched_handOver _ _ _ _) (untouched_modJournal _ b)

theorem untouched_burstCheck (cfg : Image) (b : Blocks) : Untouched b (burstCheck cfg b) := by
  unfold burstCheck
  split
  · exact untouched_issueBurst cfg b
  · exact .refl b

theorem untouched_stageMarker (cfg : Image) (k : RecordKind) (c : CtxId) (b : Blocks) :
    Untouched b (stageMarker cfg k c b) :=
  .after (untouched_burstCheck cfg _) (untouched_modJournal _ b)

theorem untouched_requestMarker (k : RecordKind) (c : CtxId) (b : Blocks) : Untouched b (requestMarker k c b) := by
  unfold requestMarker
  split
  · exact untouched_modJournal _ b
  · exact .refl b

theorem untouched_serveOne {cfg : Image} {b b' : Blocks} (h : serveOne cfg b = some b') : Untouched b b' := by
  have hmarker (m : MarkerRequest) (rest : List MarkerRequest) :
      Untouched b (stageMarker cfg m.kind m.ctx (b.modJournal fun j => { j with markerQueue := rest })) :=
    .after (untouched_stageMarker cfg _ _ _) (untouched_modJournal _ b)
  have hcapture (id : Nat) (rest : List Nat) :
      Untouched b (handOver (.lineRead (captureLine b id)) .capture (.capture id)
        (b.modJournal fun j => { j with captureQueue := rest, promises := j.promises ++ [id] })) :=
    .after (untouched_handOver _ _ _ _) (untouched_modJournal _ b)
  unfold serveOne at h
  dsimp only at h
  split at h
  · cases h
  split at h
  · split at h <;> cases h
    exact hmarker _ _
  · split at h
    · split at h <;> cases h
      exact hcapture _ _
    · cases h

theorem untouched_serveBuffer (cfg : Image) (n : Nat) (b : Blocks) : Untouched b (serveBuffer cfg n b) := by
  induction n generalizing b with
  | zero => exact .refl b
  | succ n ih =>
    unfold serveBuffer
    split
    · rename_i b' hb'
      exact .after (ih b') (untouched_serveOne hb')
    · exact .refl b

theorem untouched_stopWriting (b : Blocks) : Untouched b (stopWriting b) := ⟨rfl, rfl, rfl, rfl⟩

theorem untouched_drainDemands (c : CtxId) (source : DemandSource) (b : Blocks) :
    Untouched b (drainDemands c source b) := by
  refine untouched_foldl (fun b e => ?_) _ b
  split
  · exact untouched_placeDemand _ b
  · exact .refl b

/-! ### Requests that change no context -/

theorem untouched_handleRead (cfg : Image) (i : StreamId) (line : Addr) (b : Blocks) :
    Untouched b (handleRead cfg i line b) := by
  unfold handleRead
  split
  · exact untouched_answer i _ none b
  · exact untouched_modStream i _ b
  · exact .after (untouched_modStream i _ _) (untouched_handOver _ _ _ b)
  · unfold journaledRead
    split
    · exact untouched_answer i _ _ b
    · exact .after (untouched_modStream i _ _) (.after (untouched_handOver _ _ _ _) (untouched_modHeld _ b))

theorem untouched_acceptWrite (i : StreamId) (b : Blocks) : Untouched b (acceptWrite i b) :=
  .after (untouched_modStream i _ _) (untouched_answer i _ none b)

theorem untouched_handleBarrier (cfg : Image) (i : StreamId) (b : Blocks) : Untouched b (handleBarrier cfg i b) := by
  unfold handleBarrier
  split
  · exact untouched_answerBarrier i b
  · refine .after (untouched_burstCheck cfg _)
      (.after (untouched_foldl (fun b l => ?_) _ _) (untouched_modStream i _ b))
    split
    · exact untouched_placeDemand _ b
    · exact .refl b

/-! ## A FAULTED context is spared -/

/-- The LOGGED entries of context c and the operation slots are kept. -/
structure LinesKept (c : CtxId) (b b' : Blocks) : Prop where
  logged : ∀ e ∈ b.track, e.ctx = c → e.state = .logged → e ∈ b'.track
  slots : b'.mem.slots = b.mem.slots
  issue : b'.mem.issue = b.mem.issue

theorem Untouched.linesKept {b b' : Blocks} (h : Untouched b b') (c : CtxId) : LinesKept c b b' :=
  ⟨fun _ he _ _ => h.track ▸ he, h.slots, h.issue⟩

theorem LinesKept.after {c : CtxId} {a b d : Blocks} (k : LinesKept c b d) (h : LinesKept c a b) : LinesKept c a d :=
  ⟨fun e he hc hl => k.logged e (h.logged e he hc hl) hc hl, k.slots.trans h.slots, k.issue.trans h.issue⟩

theorem linesKept_modCtx (c k : CtxId) (f : Context → Context) (b : Blocks) : LinesKept c b (b.modCtx k f) :=
  ⟨fun _ he _ _ => he, rfl, rfl⟩

/-- A change of entries none of which is a LOGGED one of the context. -/
theorem linesKept_updateEntries {c : CtxId} {p : TrackEntry → Bool}
    (hp : ∀ e, e.ctx = c → e.state = .logged → p e = false)
    (f : TrackEntry → TrackEntry) (b : Blocks) : LinesKept c b (updateEntries p f b) :=
  ⟨fun e he hc hl => List.mem_map.2 ⟨e, he, by simp [hp e hc hl]⟩, rfl, rfl⟩

/-- A removal of entries none of which is a LOGGED one of the context. -/
theorem linesKept_removeEntries {c : CtxId} {p : TrackEntry → Bool}
    (hp : ∀ e, e.ctx = c → e.state = .logged → p e = false)
    (b : Blocks) : LinesKept c b (removeEntries p b) := by
  have hrest : LinesKept c b (b.modTrack fun t => t.filter fun e => !p e) :=
    ⟨fun e he hc hl => List.mem_filter.2 ⟨he, by simp [hp e hc hl]⟩, rfl, rfl⟩
  exact .after ((untouched_freeLines _ _).linesKept c) hrest

/-- When context c is FAULTED, its record, its LOGGED entries and the operation slots are kept. -/
def SparesFaulted (c : CtxId) (b b' : Blocks) : Prop :=
  (b.ctx c).state = .faulted → b'.ctx c = b.ctx c ∧ LinesKept c b b'

theorem Untouched.spares {b b' : Blocks} (h : Untouched b b') (c : CtxId) : SparesFaulted c b b' :=
  fun _ => ⟨h.ctx c, h.linesKept c⟩

theorem SparesFaulted.after {c : CtxId} {a b d : Blocks} (k : SparesFaulted c b d) (h : SparesFaulted c a b) :
    SparesFaulted c a d := by
  intro hf
  obtain ⟨hctx, hlines⟩ := h hf
  obtain ⟨kctx, klines⟩ := k (by rw [hctx]; exact hf)
  exact ⟨kctx.trans hctx, klines.after hlines⟩

/-- A change made for a context that is not FAULTED is made for another context. -/
theorem spares_of_state {c k : CtxId} {b b' : Blocks} (hk : (b.ctx k).state ≠ .faulted)
    (h : k ≠ c → SparesFaulted c b b') : SparesFaulted c b b' := by
  intro hf
  refine h ?_ hf
  rintro rfl
  exact hk hf

theorem spares_modCtx {c k : CtxId} (hne : k ≠ c) (f : Context → Context) (b : Blocks) :
    SparesFaulted c b (b.modCtx k f) :=
  fun _ => ⟨by rw [Blocks.modCtx_ctx, if_neg hne.symm], linesKept_modCtx c k f b⟩

theorem spares_foldl {α : Type} {c : CtxId} {f : Blocks → α → Blocks} (h : ∀ b a, SparesFaulted c b (f b a))
    (l : List α) (b : Blocks) : SparesFaulted c b (l.foldl f b) := by
  induction l generalizing b with
  | nil => exact (Untouched.refl b).spares c
  | cons a l ih => exact (ih _).after (h b a)

/-! ### Faults -/

theorem untouched_answerAll (st : UpStatus) (l : List StreamId) (b : Blocks) :
    Untouched b (l.foldl (fun b i => answer i st none b) b) :=
  untouched_foldl (fun b i => untouched_answer i st none b) l b

theorem answerWaiters_ctx (k c : CtxId) (st : UpStatus) (b : Blocks) : (answerWaiters k st b).ctx c =
    if c = k then { b.ctx k with waiters := [], mgmtWaiter := false } else b.ctx c := by
  have h := untouched_answerAll st (b.ctx k).waiters b
  unfold answerWaiters
  rw [Blocks.modCtx_ctx, h.ctx, h.ctx]

theorem linesKept_answerWaiters (c k : CtxId) (st : UpStatus) (b : Blocks) : LinesKept c b (answerWaiters k st b) :=
  .after (linesKept_modCtx c k _ _) ((untouched_answerAll st _ b).linesKept c)

theorem untouched_wakeLines (l : List TrackEntry) (b : Blocks) :
    Untouched b (l.foldl (fun b e => wakeRestoring e.line b) b) :=
  untouched_foldl (fun b _ => untouched_wake _ b) l b

theorem dropRestoring_ctx (k c : CtxId) (b : Blocks) : (dropRestoring k b).ctx c = b.ctx c :=
  (untouched_wakeLines _ _).ctx c

theorem linesKept_dropRestoring (c k : CtxId) (b : Blocks) : LinesKept c b (dropRestoring k b) :=
  .after ((untouched_wakeLines _ _).linesKept c) (linesKept_updateEntries (by simp +contextual) _ b)

theorem breakRollback_ctx (k c : CtxId) (b : Blocks) : (breakRollback k b).ctx c =
    if c = k then { b.ctx k with rollback := none, abortOutcome := some .failed } else b.ctx c := by
  unfold breakRollback
  rw [dropRestoring_ctx, raise, Blocks.modEvents_ctx, Blocks.modCtx_ctx, (untouched_withdraw _ b).ctx,
    (untouched_withdraw _ b).ctx]

theorem linesKept_breakRollback (c k : CtxId) (b : Blocks) : LinesKept c b (breakRollback k b) :=
  .after (linesKept_dropRestoring c k _) (.after ((untouched_modEvents _ _).linesKept c)
    (.after (linesKept_modCtx c k _ _) ((untouched_withdraw _ b).linesKept c)))

/-- Entry to FAULTED gives the context its state and its fault record (R34, R35). -/
theorem enterFaulted_fault (cfg : Image) (c : CtxId) (r : FaultRecord) (b : Blocks) :
    ((enterFaulted cfg c r b).ctx c).state = .faulted ∧ ((enterFaulted cfg c r b).ctx c).fault = some r := by
  unfold enterFaulted
  dsimp only
  rw [wakeContext, (untouched_wake _ _).ctx, raise, Blocks.modEvents_ctx]
  split
  · rw [breakRollback_ctx, if_pos rfl, Blocks.modCtx_ctx_same]
    exact ⟨rfl, rfl⟩
  · rw [Blocks.modCtx_ctx_same]
    exact ⟨rfl, rfl⟩

theorem enterFaulted_other (cfg : Image) {c k : CtxId} (hne : k ≠ c) (r : FaultRecord) (b : Blocks) :
    (enterFaulted cfg k r b).ctx c = b.ctx c := by
  unfold enterFaulted
  dsimp only
  rw [wakeContext, (untouched_wake _ _).ctx, raise, Blocks.modEvents_ctx]
  split
  · rw [breakRollback_ctx, if_neg hne.symm, Blocks.modCtx_ctx, if_neg hne.symm, answerWaiters_ctx, if_neg hne.symm]
  · rw [Blocks.modCtx_ctx, if_neg hne.symm, answerWaiters_ctx, if_neg hne.symm]

theorem linesKept_enterFaulted (cfg : Image) (c k : CtxId) (r : FaultRecord) (b : Blocks) :
    LinesKept c b (enterFaulted cfg k r b) := by
  have hfault : LinesKept c b ((answerWaiters k .contextFaulted b).modCtx k fun x =>
      { x with state := .faulted, idleTimer := none, fault := some r }) :=
    .after (linesKept_modCtx c k _ _) (linesKept_answerWaiters c k _ b)
  unfold enterFaulted
  dsimp only
  refine .after (((untouched_wake _ _).after (untouched_modEvents _ _)).linesKept c) ?_
  split
  · exact .after (linesKept_breakRollback c k _) hfault
  · exact hfault

theorem spares_journalFaults (cfg : Image) (st : Option DownStatus) (c k : CtxId) (b : Blocks) :
    SparesFaulted c b (journalFaults cfg st b k) := by
  unfold journalFaults
  dsimp only
  split
  · split
    · exact (Untouched.refl b).spares c
    · rename_i hstate
      refine spares_of_state (fun h => hstate (.inr h)) fun hne _ => ?_
      exact ⟨enterFaulted_other cfg hne _ b, linesKept_enterFaulted cfg c k _ b⟩
  · exact (Untouched.refl b).spares c

theorem spares_journalFail (cfg : Image) (reason : JournalReason) (st : Option DownStatus) (c : CtxId) (b : Blocks) :
    SparesFaulted c b (journalFail cfg reason st b) := by
  unfold journalFail
  refine .after ((Untouched.after (untouched_wake _ _) (untouched_modEvents _ _)).spares c) ?_
  refine .after (spares_foldl (fun b k => spares_journalFaults cfg st c k b) allCtxs _) (Untouched.spares ?_ c)
  exact .after (untouched_discardHeld _ _ _) (.after (untouched_modJournal _ _)
    (.after (untouched_withdraw _ _) (untouched_stopWriting b)))

/-! ### Contexts that go on -/

theorem spares_enterMarking (cfg : Image) {c k : CtxId} (hne : k ≠ c) (b : Blocks) :
    SparesFaulted c b (enterMarking cfg k b) :=
  .after (Untouched.spares (.after (untouched_requestMarker _ _ _) (untouched_wake _ _)) c) (spares_modCtx hne _ b)

theorem spares_enterRetire {c k : CtxId} (hne : k ≠ c) (b : Blocks) : SparesFaulted c b (enterRetire k b) :=
  .after ((untouched_requestMarker _ _ _).spares c) (spares_modCtx hne _ b)

theorem spares_dropCaptures (cfg : Image) (c k : CtxId) (b : Blocks) : SparesFaulted c b (dropCaptures cfg k b) := by
  have hremove : SparesFaulted c b (removeEntries (fun e => e.undisclosed k) b) := fun _ =>
    ⟨(untouched_freeLines _ _).ctx c, linesKept_removeEntries (by simp +contextual [TrackEntry.undisclosed]) b⟩
  exact .after (Untouched.spares (.after (untouched_releaseSpace cfg _ _) (untouched_modJournal _ _)) c) hremove

theorem spares_settleRestore (cfg : Image) {c k : CtxId} (hne : k ≠ c) (b : Blocks) :
    SparesFaulted c b (settleRestore cfg k b) := by
  have hupdate : SparesFaulted c b (updateEntries (fun e => decide (e.ctx = k) && decide (e.state = .logged))
      (fun e => { e with state := .restoring }) b) := fun _ =>
    ⟨rfl, linesKept_updateEntries (by simp +contextual [hne.symm]) _ b⟩
  exact .after (Untouched.spares (.after (untouched_burstCheck cfg _) (untouched_drainDemands k _ _)) c)
    (.after (spares_modCtx hne _ _) hupdate)

theorem spares_settleLines (cfg : Image) {c k : CtxId} (hne : k ≠ c) (b : Blocks) :
    SparesFaulted c b (settleLines cfg k b) := by
  unfold settleLines
  dsimp only
  split
  · exact .after (spares_settleRestore cfg hne _) (spares_dropCaptures cfg c k b)
  · exact .after (spares_enterRetire hne _) (spares_dropCaptures cfg c k b)

theorem spares_fillSlots (cfg : Image) {c k : CtxId} (hne : k ≠ c) (n : Nat) (b : Blocks) :
    SparesFaulted c b (fillSlots cfg k n b) := by
  induction n generalizing b with
  | zero => exact (Untouched.refl b).spares c
  | succ n ih =>
    unfold fillSlots
    split
    · exact .after (ih _) (.after ((untouched_handOver _ _ _ _).spares c) (spares_modCtx hne _ b))
    · exact (Untouched.refl b).spares c

theorem spares_rollbackStep (cfg : Image) {c k : CtxId} (hne : k ≠ c) (b : Blocks) :
    SparesFaulted c b (rollbackStep cfg b k) := by
  have hsettle : SparesFaulted c b (if quiesceDue b k then settleLines cfg k b else b) := by
    split
    · exact spares_settleLines cfg hne b
    · exact (Untouched.refl b).spares c
  unfold rollbackStep
  dsimp only
  have hfill := SparesFaulted.after (spares_fillSlots cfg hne Config.restoreSlots _) hsettle
  generalize fillSlots cfg k Config.restoreSlots _ = b' at hfill ⊢
  split
  · exact .after (spares_enterRetire hne _) hfill
  · exact hfill

theorem spares_contextStep (cfg : Image) (c k : CtxId) (b : Blocks) : SparesFaulted c b (contextStep cfg b k) := by
  unfold contextStep
  split
  · rename_i hstate
    refine spares_of_state (k := k) (by simp [hstate]) fun hne => ?_
    split
    · exact spares_enterMarking cfg hne b
    · exact (Untouched.refl b).spares c
  · rename_i hstate
    exact spares_of_state (k := k) (by simp [hstate]) fun hne => spares_rollbackStep cfg hne b
  · exact (Untouched.refl b).spares c

theorem spares_progress (cfg : Image) (c : CtxId) (b : Blocks) : SparesFaulted c b (progress cfg b) := by
  unfold progress
  refine .after (Untouched.spares ?_ c) (spares_foldl (fun b k => spares_contextStep cfg c k b) allCtxs b)
  exact .after (untouched_foldl (fun b i => untouched_modStream i _ b) _ _)
    (.after (untouched_foldl (fun b i => untouched_answerBarrier i b) _ _)
      (.after (untouched_foldl (fun b e => untouched_handOver _ _ _ b) _ _) (untouched_serveBuffer cfg _ _)))

/-! ### Requests that are handled -/

theorem spares_acceptJournaled (cfg : Image) (i : StreamId) (c k : CtxId) (b : Blocks) :
    SparesFaulted c b (acceptJournaled cfg i k b) := by
  have haccept := (untouched_acceptWrite i b).spares c
  unfold acceptJournaled
  dsimp only
  split
  · rename_i hopen
    exact .after (spares_of_state (k := k) (by simp [hopen]) fun hne => spares_modCtx hne _ _) haccept
  · exact haccept

theorem spares_openEpoch {c k : CtxId} (hne : k ≠ c) (b : Blocks) : SparesFaulted c b (openEpoch k b) := by
  have hcounter (b' : Blocks) (n : Epoch) :
      SparesFaulted c b' { b' with epochs := { b'.epochs with counter := n } } :=
    fun _ => ⟨rfl, fun _ he _ _ => he, rfl, rfl⟩
  exact .after (hcounter _ _) (spares_modCtx hne _ b)

theorem spares_insertEntry (i : StreamId) (c k : CtxId) (line : Addr) (b : Blocks) :
    SparesFaulted c b (insertEntry i k line b) :=
  fun _ => ⟨rfl, fun _ he _ _ => List.mem_append_left _ he, rfl, rfl⟩

theorem spares_firstTouch (cfg : Image) (i : StreamId) (c k : CtxId) (line : Addr) (m : ByteMask) (d : LineData)
    (b : Blocks) : SparesFaulted c b (firstTouch cfg i k line m d b) := by
  have hopen : SparesFaulted c b (if decide ((b.ctx k).state = .idle) then openEpoch k b else b) := by
    split
    · rename_i hidle
      exact spares_of_state (k := k) (by simp [of_decide_eq_true hidle]) fun hne => spares_openEpoch hne b
    · exact (Untouched.refl b).spares c
  have htouch (b' : Blocks) (n : Nat) : SparesFaulted c b'
      (reserve cfg n (acceptJournaled cfg i k (allocHeld i k line m d .waitLog (insertEntry i k line b')))) :=
    .after ((untouched_reserve cfg _ _).spares c) (.after (spares_acceptJournaled cfg i c k _)
      (.after ((untouched_modHeld _ _).spares c) (spares_insertEntry i c k line b')))
  have hwake (b' : Blocks) (opens : Bool) : SparesFaulted c b' (if opens then wakeContext cfg k b' else b') := by
    split
    · exact (untouched_wake _ _).spares c
    · exact (Untouched.refl b').spares c
  unfold firstTouch
  dsimp only
  have hall := SparesFaulted.after (hwake _ (decide ((b.ctx k).state = .idle)))
    (SparesFaulted.after (htouch _ (slotsNeeded (b.ctx k).state)) hopen)
  split
  · exact .after (spares_journalFail cfg _ none c _) hall
  · exact hall

theorem spares_handleWrite (cfg : Image) (i : StreamId) (line : Addr) (m : ByteMask) (d : LineData) (c : CtxId)
    (b : Blocks) : SparesFaulted c b (handleWrite cfg i line m d b) := by
  unfold handleWrite
  split
  · exact (untouched_modStream i _ b).spares c
  split
  · exact (untouched_refuseWrite i line _ b).spares c
  · exact (untouched_modStream i _ b).spares c
  · exact Untouched.spares (.after (untouched_acceptWrite i _) (untouched_handOver _ _ _ b)) c
  · exact (untouched_modStream i _ b).spares c
  · exact (untouched_modStream i _ b).spares c
  · exact .after (spares_acceptJournaled cfg i c _ _) ((untouched_modHeld _ b).spares c)
  · exact .after (spares_acceptJournaled cfg i c _ _) ((untouched_modHeld _ b).spares c)
  · exact spares_firstTouch cfg i c _ line m d b

/-- A COMMIT joins or begins in a context that is not FAULTED (R28). -/
theorem classifyCommit_state {cfg : Image} {b : Blocks} {i : StreamId} {k : CtxId}
    (h : classifyCommit cfg b i = .joins k ∨ classifyCommit cfg b i = .begins k) : (b.ctx k).state ≠ .faulted := by
  unfold classifyCommit at h
  split at h
  · simp at h
  · rename_i k' _
    split at h
    case h_6 =>
      intro hk
      cases hstate : (b.ctx k').state <;> simp [commitInContext, hstate] at h <;> subst h <;> simp [hk] at hstate
    all_goals simp at h

theorem spares_joinWaiters (i : StreamId) {c k : CtxId} (hne : k ≠ c) (b : Blocks) :
    SparesFaulted c b (joinWaiters i k b) :=
  .after ((untouched_modStream i _ _).spares c) (spares_modCtx hne _ b)

theorem spares_beginCommit (cfg : Image) {c k : CtxId} (hne : k ≠ c) (b : Blocks) :
    SparesFaulted c b (beginCommit cfg k b) :=
  .after (Untouched.spares (.after (untouched_burstCheck cfg _)
    (.after (untouched_drainDemands k _ _) (untouched_wake _ _))) c) (spares_modCtx hne _ b)

theorem spares_handleCommit (cfg : Image) (i : StreamId) (c : CtxId) (b : Blocks) :
    SparesFaulted c b (handleCommit cfg i b) := by
  unfold handleCommit
  split
  · exact (untouched_answer i _ none b).spares c
  · exact (untouched_modStream i _ b).spares c
  · rename_i k hk
    exact spares_of_state (classifyCommit_state (.inl hk)) fun hne => spares_joinWaiters i hne b
  · rename_i k hk
    exact spares_of_state (classifyCommit_state (.inr hk)) fun hne =>
      .after (spares_beginCommit cfg hne _) (spares_joinWaiters i hne b)

theorem spares_handleCurrent (cfg : Image) (i : StreamId) (c : CtxId) (b : Blocks) :
    SparesFaulted c b (handleCurrent cfg i b) := by
  unfold handleCurrent
  split
  · exact (untouched_modStream i _ b).spares c
  split
  · exact (untouched_handleRead cfg i _ b).spares c
  · exact spares_handleWrite cfg i _ _ _ c b
  · exact (untouched_handleBarrier cfg i b).spares c
  · exact spares_handleCommit cfg i c b

theorem spares_settle (cfg : Image) (n : Nat) (c : CtxId) (b : Blocks) : SparesFaulted c b (settle cfg n b) := by
  induction n generalizing b with
  | zero => exact spares_progress cfg c b
  | succ n ih =>
    unfold settle handleNext
    split
    · exact spares_progress cfg c b
    · rename_i i f _
      exact .after (ih _) (.after (spares_handleCurrent cfg i c _)
        (.after ((untouched_free f _).spares c) (spares_progress cfg c b)))

/-! ## The end of an event -/

theorem untouched_enterSafe (b : Blocks) : Untouched b (enterSafe b) := by
  unfold enterSafe
  split
  · exact untouched_modJournal _ b
  · exact .refl b

/-- The rest of an event leaves a FAULTED context and its LOGGED entries as they are. -/
theorem finishEvent_faulted (cfg : Image) {b : Blocks} {c : CtxId} (hf : (b.ctx c).state = .faulted) :
    (finishEvent cfg b).ctx c = b.ctx c
      ∧ ∀ e ∈ b.track, e.ctx = c → e.state = .logged → e ∈ (finishEvent cfg b).track := by
  obtain ⟨hctx, hlines⟩ := spares_settle cfg settleBound c b hf
  have hgrants := arbitrate_frame cfg 32 (settle cfg settleBound b)
  have hsafe := untouched_enterSafe (arbitrate cfg 32 (settle cfg settleBound b))
  constructor
  · rw [finishEvent, hsafe.ctx, ← hctx]
    simp only [Blocks.ctx, hgrants.epochs]
  · intro e he hc hl
    rw [finishEvent, hsafe.track, hgrants.track]
    exact hlines.logged e he hc hl

/-- An identifier is used up: the slot it names is empty, and then has not been granted since, or holds an operation
with another issue number. -/
def UsedUp (id : OpId) (m : MemoryPort) : Prop := m.slots[id.slot] = none ↔ m.issue[id.slot] = id.issue

theorem UsedUp.matching {id : OpId} {m : MemoryPort} (h : UsedUp id m) : m.matching id = none := by
  unfold MemoryPort.matching
  split
  · exact h.2 ‹_›
  · rfl

theorem granted_issue (m : MemoryPort) (k j : SlotNo) (r : MemRequest) (o : Outstanding) :
    (m.granted k r o).issue[j] = if j = k then m.issue[k] + 1 else m.issue[j] := by
  unfold MemoryPort.granted
  rw [settleCounts_issue]
  by_cases h : j = k
  · subst h; simp
  · have : k.val ≠ j.val := fun e => h (Fin.ext e.symm)
    simp [h, this]

/-- A grant into the slot raises its issue number (R126), so the identifier stays used up. -/
theorem grantOne_usedUp {cfg : Image} {b b' : Blocks} {id : OpId} (h : grantOne cfg b = some b')
    (hid : UsedUp id b.mem) : UsedUp id b'.mem := by
  obtain ⟨_, r, j, f, _, hc, rfl⟩ := grantOne_spec h
  show UsedUp id (b.mem.granted j r (operationOf cfg b r))
  unfold UsedUp
  rw [granted_slot, granted_issue]
  by_cases hj : id.slot = j
  · subst hj
    rw [if_pos rfl, if_pos rfl, hid.1 (mem_freeSlots.1 (chooseFrom_mem hc))]
    simp
  · rw [if_neg hj, if_neg hj]
    exact hid

theorem arbitrate_usedUp (cfg : Image) (n : Nat) {b : Blocks} {id : OpId} (hid : UsedUp id b.mem) :
    UsedUp id (arbitrate cfg n b).mem := by
  induction n generalizing b with
  | zero => exact hid
  | succ n ih =>
    unfold arbitrate
    split
    · rename_i b' h
      exact ih (grantOne_usedUp h hid)
    · exact hid

/-- After an event that leaves a context FAULTED, an identifier used up before its rest matches nothing. -/
theorem finishEvent_matching (cfg : Image) {b : Blocks} {c : CtxId} {id : OpId} (hf : (b.ctx c).state = .faulted)
    (hid : UsedUp id b.mem) : (finishEvent cfg b).mem.matching id = none := by
  obtain ⟨_, hlines⟩ := spares_settle cfg settleBound c b hf
  have hsafe := untouched_enterSafe (arbitrate cfg 32 (settle cfg settleBound b))
  have hsettled : UsedUp id (settle cfg settleBound b).mem := by
    unfold UsedUp
    rw [hlines.slots, hlines.issue]
    exact hid
  have hgranted := arbitrate_usedUp cfg 32 hsettled
  apply UsedUp.matching
  unfold UsedUp at hgranted ⊢
  rw [finishEvent, hsafe.slots, hsafe.issue]
  exact hgranted

end Sys2Proof.Frames

/-! SUPPORT. The end of a RESTORE_READ (R115): what freeing its slot and filling its restore slot leave due, and the
restore fault. -/

namespace Sys2Proof.RestoreReads

open Sys2Proof.Machine Sys2Proof.Safety Sys2Proof.Laws Sys2Proof.Frames

/-! ## The operation a completion matches -/

theorem matching_slot {m : MemoryPort} {id : OpId} {o : Outstanding} (h : m.matching id = some o) :
    m.issue[id.slot] = id.issue ∧ m.slots[id.slot] = some o := by
  unfold MemoryPort.matching at h
  split at h
  · exact ⟨‹_›, h⟩
  · cases h

theorem freeSlot_slot (k j : SlotNo) (b : Blocks) :
    (freeSlot k b).mem.slots[j] = if j = k then none else b.mem.slots[j] := by
  unfold freeSlot
  by_cases h : j = k
  · subst h; simp
  · have : k.val ≠ j.val := fun e => h (Fin.ext e.symm)
    simp [h, this]

@[simp] theorem freeSlot_ctx (k : SlotNo) (c : CtxId) (b : Blocks) : (freeSlot k b).ctx c = b.ctx c := rfl
@[simp] theorem freeSlot_journal (k : SlotNo) (b : Blocks) : (freeSlot k b).journal = b.journal := rfl
@[simp] theorem freeSlot_stream (k : SlotNo) (i : StreamId) (b : Blocks) : (freeSlot k b).stream i = b.stream i := rfl

/-- The identifier of the operation whose slot is freed is used up. -/
theorem usedUp_freeSlot {b : Blocks} {id : OpId} {o : Outstanding} (h : b.mem.matching id = some o) :
    UsedUp id (freeSlot id.slot b).mem := by
  unfold UsedUp
  rw [freeSlot_slot, if_pos rfl]
  exact iff_of_true rfl (matching_slot h).1

/-- The event of a completion that matches an operation. -/
theorem complete_event {s : State} {id : OpId} {o : Outstanding} (hup : s.pins.resetLow = false)
    (h : s.blocks.mem.matching id = some o) (k : Completion) : s.complete id k =
      after s (finishEvent s.mgmt.active (handBack s.mgmt.active o (endOf o.op k) (freeSlot id.slot s.blocks))) := by
  simp [State.complete, h, State.event, hup, endOperation, after]

/-- The event of the timeout of an operation that an identifier matches. -/
theorem timeout_event {s : State} {id : OpId} {o : Outstanding} (hup : s.pins.resetLow = false)
    (h : s.blocks.mem.matching id = some o) : s.timeout id.slot =
      after s (finishEvent s.mgmt.active
        (handBack s.mgmt.active o (.failed .timeout) (freeSlot id.slot (s.blocks.reachTime o.deadline)))) := by
  simp [State.timeout, (matching_slot h).2, State.event, hup, endOperation, after]

/-! ## A slot is freed -/

/-- Freeing the slot of an operation that restores no line of a context leaves that context's restores outstanding. -/
theorem restoreOutstanding_freeSlot {b : Blocks} {k : SlotNo} {o : Outstanding} {c : CtxId}
    (hk : b.mem.slots[k] = some o) (ho : o.owner.restoreOf c = false) :
    (freeSlot k b).mem.restoreOutstanding c = b.mem.restoreOutstanding c := by
  rw [Bool.eq_iff_iff]
  simp only [MemoryPort.restoreOutstanding, List.any_eq_true]
  constructor
  · rintro ⟨x, hx, hc⟩
    obtain ⟨j, hj⟩ := mem_ops.1 hx
    rw [freeSlot_slot] at hj
    split at hj
    · cases hj
    · exact ⟨x, mem_ops.2 ⟨j, hj⟩, hc⟩
  · rintro ⟨x, hx, hc⟩
    obtain ⟨j, hj⟩ := mem_ops.1 hx
    refine ⟨x, mem_ops.2 ⟨j, ?_⟩, hc⟩
    rw [freeSlot_slot, if_neg, hj]
    rintro rfl
    rw [hj] at hk
    cases hk
    rw [ho] at hc
    cases hc

/-- Freeing the slot of an operation makes nothing due, when no QUIESCE waits for it. -/
theorem still_freeSlot {cfg : Image} {b : Blocks} {k : SlotNo} {o : Outstanding} (h : still cfg b = true)
    (hk : b.mem.slots[k] = some o) (ho : ∀ c, o.owner.restoreOf c = true → rollbackIn b c .quiesce = none) :
    still cfg (freeSlot k b) = true := by
  obtain ⟨hctx, hserve, hrelease, hstream⟩ := (still_iff cfg b).1 h
  refine (still_iff cfg _).2 ⟨fun c => ?_, serveOne_none_congr (b := b) (cfg := cfg) rfl hserve, hrelease, hstream⟩
  obtain ⟨hdrain, hquiesce, hnext, hretire⟩ := hctx c
  refine ⟨hdrain, ?_, hnext, hretire⟩
  have hview : quiesceDue (freeSlot k b) c = ((rollbackIn b c .quiesce).isSome && decide (b.heldCount c = 0)
      && !(freeSlot k b).mem.restoreOutstanding c) := rfl
  rw [hview]
  cases hown : o.owner.restoreOf c with
  | true => simp [ho c hown]
  | false =>
    rw [restoreOutstanding_freeSlot hk hown]
    exact hquiesce

/-! ## A restore slot is changed -/

/-- A rollback record with the restore slots of a line changed. -/
def reslot (line : Addr) (f : RestoreSlot → RestoreSlot) (r : Rollback) : Rollback :=
  { r with slots := r.slots.map fun x => if x.line = line then f x else x }

@[simp] theorem setSlot_journal (c : CtxId) (line : Addr) (f : RestoreSlot → RestoreSlot) (b : Blocks) :
    (setSlot c line f b).journal = b.journal := rfl

@[simp] theorem setSlot_stream (c : CtxId) (line : Addr) (f : RestoreSlot → RestoreSlot) (i : StreamId) (b : Blocks) :
    (setSlot c line f b).stream i = b.stream i := rfl

theorem setSlot_ctx (c k : CtxId) (line : Addr) (f : RestoreSlot → RestoreSlot) (b : Blocks) :
    (setSlot c line f b).ctx k =
      if k = c then { b.ctx c with rollback := (b.ctx c).rollback.map (reslot line f) } else b.ctx k :=
  Blocks.modCtx_ctx b c k _

/-- The change of a restore slot of a known rollback record. -/
theorem setSlot_eq {c : CtxId} {r : Rollback} {b : Blocks} (h : (b.ctx c).rollback = some r) (line : Addr)
    (f : RestoreSlot → RestoreSlot) :
    setSlot c line f b = b.modCtx c fun x => { x with rollback := some (reslot line f r) } := by
  unfold setSlot modRollback
  refine modCtx_congr b c ?_
  rw [h]
  rfl

theorem setSlot_state (c k : CtxId) (line : Addr) (f : RestoreSlot → RestoreSlot) (b : Blocks) :
    ((setSlot c line f b).ctx k).state = (b.ctx k).state := by
  rw [setSlot_ctx]
  split
  · rename_i h; rw [h]
  · rfl

theorem rollbackIn_setSlot (c k : CtxId) (line : Addr) (f : RestoreSlot → RestoreSlot) (b : Blocks)
    (p : RollbackPhase) : rollbackIn (setSlot c line f b) k p =
      if k = c then (rollbackIn b c p).map (reslot line f) else rollbackIn b k p := by
  by_cases hk : k = c
  · subst hk
    unfold rollbackIn
    rw [if_pos rfl, setSlot_ctx, if_pos rfl]
    cases (b.ctx k).rollback with
    | none => rfl
    | some r =>
      exact (apply_ite (Option.map (reslot line f)) ((b.ctx k).state = .rollback ∧ r.phase = p) (some r) none).symm
  · unfold rollbackIn
    rw [if_neg hk, setSlot_ctx, if_neg hk]

theorem rollbackIn_setSlot_isSome (c k : CtxId) (line : Addr) (f : RestoreSlot → RestoreSlot) (b : Blocks)
    (p : RollbackPhase) : (rollbackIn (setSlot c line f b) k p).isSome = (rollbackIn b k p).isSome := by
  rw [rollbackIn_setSlot]
  split
  · rename_i h; rw [h, Option.isSome_map]
  · rfl

/-- Which lines have no restore slot does not depend on what the slots hold. -/
theorem unslotted_reslot (b : Blocks) (c : CtxId) {line : Addr} {f : RestoreSlot → RestoreSlot}
    (hf : ∀ x, (f x).line = x.line) (r : Rollback) : unslotted b c (reslot line f r) = unslotted b c r := by
  have hline (x : RestoreSlot) : (if x.line = line then f x else x).line = x.line := by
    split
    · exact hf x
    · rfl
  simp [unslotted, reslot, List.any_map, Function.comp_def, hline]

theorem nextRestore_setSlot (c k : CtxId) (line : Addr) {f : RestoreSlot → RestoreSlot} (hf : ∀ x, (f x).line = x.line)
    (b : Blocks) : nextRestore (setSlot c line f b) k = nextRestore b k := by
  have hunslotted (r : Rollback) : unslotted (setSlot c line f b) k r = unslotted b k r := rfl
  unfold nextRestore
  rw [rollbackIn_setSlot, setSlot_journal]
  by_cases hk : k = c
  · subst hk
    rw [if_pos rfl]
    cases rollbackIn b k .restore with
    | none => rfl
    | some r =>
      have hlength : (reslot line f r).slots.length = r.slots.length := List.length_map _
      simp only [Option.map_some, hunslotted, unslotted_reslot b k hf, hlength]
  · rw [if_neg hk]
    rfl

/-- A change of a restore slot that keeps its line makes nothing due. -/
theorem still_setSlot {cfg : Image} {b : Blocks} (h : still cfg b = true) (c : CtxId) (line : Addr)
    {f : RestoreSlot → RestoreSlot} (hf : ∀ x, (f x).line = x.line) : still cfg (setSlot c line f b) = true := by
  obtain ⟨hctx, hserve, hrelease, hstream⟩ := (still_iff cfg b).1 h
  refine (still_iff cfg _).2 ⟨fun k => ?_, serveOne_none_congr (b := b) (cfg := cfg) rfl hserve, hrelease, hstream⟩
  obtain ⟨hdrain, hquiesce, hnext, hretire⟩ := hctx k
  refine ⟨?_, ?_, (nextRestore_setSlot c k line hf b).trans hnext, ?_⟩
  · rw [← hdrain]
    unfold drainDue
    rw [setSlot_state]
    rfl
  · rw [← hquiesce]
    unfold quiesceDue
    rw [rollbackIn_setSlot_isSome]
    rfl
  · rw [← hretire]
    unfold retireDue
    rw [rollbackIn_setSlot_isSome]
    rfl

/-! ## The end of the read -/

/-- A restore slot with its old data, its RESTORE_WRITE asked for (R115). -/
def filled (d : LineData) (x : RestoreSlot) : RestoreSlot := { x with oldData := some d, op := .write }

theorem filled_line (d : LineData) (x : RestoreSlot) : (filled d x).line = x.line := rfl

theorem rollbackIn_of_restoreReading {s : State} {c : CtxId} {r : Rollback} {l : Addr} (h : restoreReading s c r l)
    (p : RollbackPhase) : rollbackIn s.blocks c p = if p = .restore then some r else none := by
  obtain ⟨hstate, hr, hphase, _⟩ := h
  simp [rollbackIn, hr, hstate, hphase, eq_comm]

theorem slotOf_of_restoreReading {s : State} {c : CtxId} {r : Rollback} {l : Addr} (h : restoreReading s c r l) :
    ∃ x, slotOf s.blocks c l .read = some x := by
  obtain ⟨_, _, _, x, hx, hline, hop⟩ := id h
  have hfound : (r.slots.find? fun y => decide (y.line = l) && decide (y.op = .read)).isSome = true :=
    List.find?_isSome.2 ⟨x, hx, by simp [hline, hop]⟩
  simp only [slotOf, rollbackIn_of_restoreReading h, if_true]
  exact Option.isSome_iff_exists.1 hfound

/-- The restore slot of a line is a matter of the context's record alone. -/
theorem slotOf_congr {b b' : Blocks} {c : CtxId} (h : b'.ctx c = b.ctx c) (l : Addr) (op : RestoreOp) :
    slotOf b' c l op = slotOf b c l op := by
  simp only [slotOf, rollbackIn, h]

/-- Old data that arrives goes into the restore slot, and the RESTORE_WRITE is asked for (R115). -/
theorem restoreReadEnd_data (cfg : Image) {c : CtxId} {l : Addr} {x : RestoreSlot} {b : Blocks}
    (hn : b.journal.notice = false) (hx : slotOf b c l .read = some x) (d : LineData) :
    restoreReadEnd cfg c l (.data d) b = handOver (.lineWrite l fullMask d) .restore (.restoreWrite c l)
      (setSlot c l (filled d) b) := by
  unfold restoreReadEnd
  rw [hx]
  exact if_neg (by simp [hn])

/-- A read that fails is a restore fault, and its entry goes back to LOGGED (R115, R119). -/
theorem restoreReadEnd_failed (cfg : Image) {c : CtxId} {l : Addr} {x : RestoreSlot} {n : Epoch} {b : Blocks}
    (hx : slotOf b c l .read = some x) (hstate : (b.ctx c).state = .rollback) (he : (b.ctx c).epoch = some n)
    (st : DownStatus) : restoreReadEnd cfg c l (.failed st) b =
      enterFaulted cfg c ⟨.restoreReadFailed, n, some l, none, some st⟩ (leaveRestoring c l .logged b) := by
  have hctx : (leaveRestoring c l .logged b).ctx c = b.ctx c := rfl
  simp [restoreReadEnd, hx, reportRestoreFault, hctx, hstate, he]

/-- The RESTORING entry of a line that leaves RESTORING is there in its new state. -/
theorem leaveRestoring_mem {c : CtxId} {l : Addr} {b : Blocks} {e : TrackEntry} (he : e ∈ b.track) (hc : e.ctx = c)
    (hl : e.line = l) (hr : e.state = .restoring) (st : TrackState) :
    { e with state := st } ∈ (leaveRestoring c l st b).track :=
  List.mem_map.2 ⟨e, he, by simp [hc, hl, hr]⟩

theorem leaveRestoring_mem_port (c : CtxId) (l : Addr) (st : TrackState) (b : Blocks) :
    (leaveRestoring c l st b).mem = b.mem := rfl

/-- The whole event of a read that fails: the context is FAULTED with its record, the line's entry is LOGGED, and the
identifier matches nothing. -/
theorem finishEvent_failed (cfg : Image) {c : CtxId} {l : Addr} {x : RestoreSlot} {n : Epoch} {id : OpId}
    {b b' : Blocks} (hx : slotOf b c l .read = some x) (hstate : (b.ctx c).state = .rollback)
    (he : (b.ctx c).epoch = some n) (hid : UsedUp id b.mem) (st : DownStatus)
    (hb : finishEvent cfg (restoreReadEnd cfg c l (.failed st) b) = b') :
    (b'.ctx c).state = .faulted
      ∧ (b'.ctx c).fault = some ⟨.restoreReadFailed, n, some l, none, some st⟩
      ∧ (∀ e ∈ b.track, e.ctx = c → e.line = l → e.state = .restoring → { e with state := .logged } ∈ b'.track)
      ∧ b'.mem.matching id = none := by
  rw [restoreReadEnd_failed cfg hx hstate he] at hb
  generalize FaultRecord.mk .restoreReadFailed n (some l) none (some st) = r at hb ⊢
  obtain ⟨hfaulted, hrecord⟩ := enterFaulted_fault cfg c r (leaveRestoring c l .logged b)
  have hkept := linesKept_enterFaulted cfg c c r (leaveRestoring c l .logged b)
  have hid' : UsedUp id (enterFaulted cfg c r (leaveRestoring c l .logged b)).mem := by
    unfold UsedUp
    rw [hkept.slots, hkept.issue, leaveRestoring_mem_port]
    exact hid
  obtain ⟨hctx, hlogged⟩ := finishEvent_faulted cfg hfaulted
  have hmatching := finishEvent_matching cfg hfaulted hid'
  rw [hb] at hctx hlogged hmatching
  refine ⟨by rw [hctx, hfaulted], by rw [hctx, hrecord], fun e hmem hc hl hrest => ?_, hmatching⟩
  exact hlogged _ (hkept.logged _ (leaveRestoring_mem hmem hc hl hrest .logged) hc rfl) hc rfl

theorem onlyGrants_setSlot_freeSlot {c : CtxId} {r : Rollback} {b : Blocks} (h : (b.ctx c).rollback = some r)
    (l : Addr) (f : RestoreSlot → RestoreSlot) (k : SlotNo) :
    OnlyGrants (b.modCtx c fun x => { x with rollback := some (reslot l f r) }) (setSlot c l f (freeSlot k b)) := by
  rw [setSlot_eq (b := freeSlot k b) h]
  exact ⟨rfl, rfl, rfl, rfl, rfl, rfl, rfl, rfl, rfl, rfl, rfl⟩

/-- An event that comes to a hand-over, with nothing else due: the grants are all that follows, and the operation is at
the port. -/
theorem finishEvent_handOver {cfg : Image} {b b' : Blocks} (h : still cfg b = true) (hf : noFresh b = true)
    (hn : b.journal.notice = false) {op : MemOp} {cls : MemClass} {w : Owner} (hw : ∀ l, w ≠ .release l)
    (hb : finishEvent cfg (handOver op cls w b) = b') : OnlyGrants b b' ∧ inPort b'.mem op w = true := by
  have hf' : noFresh (handOver op cls w b) = true := by
    rw [noFresh_iff] at hf ⊢
    intro i
    rw [handOver_stream]
    exact hf i
  rw [finishEvent_still (still_handOver h op cls w) hf' (by rw [handOver_journal]; exact hn)] at hb
  subst hb
  obtain ⟨m, hm, _⟩ := handOver_frame op cls w b
  have hport : OnlyGrants b (handOver op cls w b) := by
    rw [hm]
    exact ⟨rfl, rfl, rfl, rfl, rfl, rfl, rfl, rfl, rfl, rfl, rfl⟩
  exact ⟨onlyGrants_trans hport (arbitrate_frame cfg 32 _), arbitrate_inPort cfg 32 hw (handOver_inPort hn op cls w)⟩

/-- The read of a restore slot in phase RESTORE has its slot freed: nothing becomes due. -/
theorem still_freeSlot_of_restoreReading {s : State} {c : CtxId} {r : Rollback} {l : Addr} {id : OpId} {o : Outstanding}
    (hs : still s.mgmt.active s.blocks = true) (hm : s.blocks.mem.matching id = some o)
    (how : o.owner = .restoreRead c l) (hr : restoreReading s c r l) :
    still s.mgmt.active (freeSlot id.slot s.blocks) = true := by
  refine still_freeSlot hs (matching_slot hm).2 fun k hk => ?_
  have hck : c = k := by simpa [how, Owner.restoreOf] using hk
  subst hck
  exact rollbackIn_of_restoreReading hr .quiesce

/-- The whole event of a read that returns data: the slot holds it, the RESTORE_WRITE is at the port, and grants are all
that follows. -/
theorem finishEvent_data {s : State} {c : CtxId} {r : Rollback} {l : Addr} {id : OpId} {o : Outstanding} {b' : Blocks}
    (hs : atRest s = true) (hm : s.blocks.mem.matching id = some o) (how : o.owner = .restoreRead c l)
    (hr : restoreReading s c r l) (d : LineData)
    (hb : finishEvent s.mgmt.active (restoreReadEnd s.mgmt.active c l (.data d) (freeSlot id.slot s.blocks)) = b') :
    OnlyGrants (s.blocks.modCtx c fun x => { x with rollback := some (reslot l (filled d) r) }) b'
      ∧ inPort b'.mem (.lineWrite l fullMask d) (.restoreWrite c l) = true := by
  obtain ⟨_, hn, hstill, hfresh, _⟩ := (atRest_iff s).1 hs
  obtain ⟨x, hx⟩ := slotOf_of_restoreReading hr
  have ⟨_, hrollback, _⟩ := hr
  have hfree := still_freeSlot_of_restoreReading hstill hm how hr
  rw [restoreReadEnd_data s.mgmt.active (by rw [freeSlot_journal]; exact hn)
    ((slotOf_congr (freeSlot_ctx _ c _) l .read).trans hx)] at hb
  obtain ⟨hgrants, hport⟩ := finishEvent_handOver (still_setSlot hfree c l (filled_line d))
    (by simpa [noFresh_iff] using hfresh) (by simpa using hn) (by simp) hb
  exact ⟨onlyGrants_trans (onlyGrants_setSlot_freeSlot hrollback l _ id.slot) hgrants, hport⟩

/-- The event of the completion of a RESTORE_READ. -/
theorem exec_restoreReadDone {s : State} {c : CtxId} {l : Addr} {id : OpId} {o : Outstanding}
    (hup : s.pins.resetLow = false) (hm : s.blocks.mem.matching id = some o) (how : o.owner = .restoreRead c l)
    (k : Completion) : ∃ b',
      finishEvent s.mgmt.active (restoreReadEnd s.mgmt.active c l (endOf o.op k) (freeSlot id.slot s.blocks)) = b'
        ∧ exec (.restoreReadDone id k) s = .next (after s b') := by
  have hexec : exec (.restoreReadDone id k) s = .next (s.complete id k) := rfl
  rw [hexec, complete_event hup hm, handBack, how]
  exact ⟨_, rfl, rfl⟩

/-- The event of the timeout of a RESTORE_READ. -/
theorem exec_restoreReadTimeout {s : State} {c : CtxId} {l : Addr} {id : OpId} {o : Outstanding}
    (hup : s.pins.resetLow = false) (hm : s.blocks.mem.matching id = some o) (how : o.owner = .restoreRead c l) :
    ∃ b', finishEvent s.mgmt.active (restoreReadEnd s.mgmt.active c l (.failed .timeout)
        (freeSlot id.slot (s.blocks.reachTime o.deadline))) = b'
      ∧ exec (.downstreamTimeout id.slot) s = .next (after s b') := by
  have hexec : exec (.downstreamTimeout id.slot) s = .next (s.timeout id.slot) := rfl
  rw [hexec, timeout_event hup hm, handBack, how]
  exact ⟨_, rfl, rfl⟩

/-- Settles O55: what follows old data is the grants alone, since nothing else becomes due; a failed read takes the
context to FAULTED, and the rest of an event spares a FAULTED context. -/
theorem restoreReadGivesTheOldData : Obligations.RestoreReadGivesTheOldData := by
  intro c r l lr d n id o s hcalm hm hop how hr he
  obtain ⟨hrest, _⟩ := (calm_iff s).1 hcalm
  obtain ⟨hup, _⟩ := (atRest_iff s).1 hrest
  obtain ⟨x, hx⟩ := slotOf_of_restoreReading hr
  have ⟨hstate, _⟩ := hr
  constructor
  · obtain ⟨b', hb, hexec⟩ := exec_restoreReadDone hup hm how (.data d)
    rw [hop] at hb
    obtain ⟨hgrants, hport⟩ := finishEvent_data hrest hm how hr d hb
    exact ⟨_, hexec, ⟨rfl, rfl, rfl, hgrants⟩, hport⟩
  · rintro cmd st (⟨rfl, rfl⟩ | ⟨rfl, rfl⟩)
    · obtain ⟨b', hb, hexec⟩ := exec_restoreReadDone hup hm how .error
      rw [hop] at hb
      exact ⟨_, hexec, finishEvent_failed _ ((slotOf_congr (freeSlot_ctx _ c _) l .read).trans hx) hstate he
        (usedUp_freeSlot hm) .error hb⟩
    · obtain ⟨b', hb, hexec⟩ := exec_restoreReadTimeout hup hm how
      have hctx : (freeSlot id.slot (s.blocks.reachTime o.deadline)).ctx c = s.blocks.ctx c := rfl
      exact ⟨_, hexec, finishEvent_failed _ ((slotOf_congr hctx l .read).trans hx) (hctx ▸ hstate) (hctx ▸ he)
        (usedUp_freeSlot (b := s.blocks.reachTime o.deadline) hm) .timeout hb⟩

end Sys2Proof.RestoreReads

/-! SUPPORT. Completions (R128): the operation an identifier matches, and the end that a completion's kind gives it. -/

namespace Sys2Proof.Completions

open Sys2Proof.Machine Sys2Proof.Safety Sys2Proof.RestoreReads

/-! ## Matching -/

theorem matching_iff {m : MemoryPort} {id : OpId} {o : Outstanding} :
    m.matching id = some o ↔ m.slots[id.slot] = some o ∧ m.issue[id.slot] = id.issue := by
  constructor
  · intro h
    exact (matching_slot h).symm
  · rintro ⟨hslot, hissue⟩
    rw [MemoryPort.matching, if_pos hissue, hslot]

theorem complete_unmatched {s : State} {id : OpId} (h : s.blocks.mem.matching id = none) (k : Completion) :
    s.complete id k = s := by
  rw [State.complete, h]

theorem complete_matched {s : State} {id : OpId} {o : Outstanding} (h : s.blocks.mem.matching id = some o)
    (k : Completion) : s.complete id k =
      s.event fun b => handBack s.mgmt.active o (endOf o.op k) (freeSlot id.slot b) := by
  rw [State.complete, h]
  rfl

/-- Every completion row is taken by its identifier and kind alone: which row it is plays no part. -/
theorem exec_of_completionOf {c : Instr} {id : OpId} {k : Completion} (h : completionOf c = some (id, k)) (s : State) :
    exec c s = .next (s.complete id k) := by
  unfold completionOf at h
  split at h <;> cases h <;> rfl

/-! ## The kind of a completion -/

/-- The end that a completion brings as it arrived (R127). -/
def arrivedAs : Completion → OpEnd
  | .data d => .data d
  | .persisted => .persisted
  | .error => .failed .error

/-- A kind that fits is the operation's end as it arrived; any other is an ERROR. -/
theorem endOf_eq (op : MemOp) (k : Completion) :
    endOf op k = if fits op k then arrivedAs k else .failed .error := by
  cases k with
  | data d => cases op <;> rfl
  | persisted => cases op <;> rfl
  | error => cases op <;> rfl

theorem endOf_of_fits {op : MemOp} {k : Completion} (h : fits op k = true) : endOf op k = arrivedAs k := by
  rw [endOf_eq, if_pos h]

theorem endOf_of_unfit {op : MemOp} {k : Completion} (h : fits op k = false) : endOf op k = endOf op .error := by
  rw [endOf_eq op k, endOf_eq op .error, h]
  exact (ite_self _).symm

/-- Settles O44: every completion row is `State.complete`, which tests the identifier alone and hands the owner the end
that the kind gives. -/
theorem completionsAreMatchedByTheirIdentifier : Obligations.CompletionsAreMatchedByTheirIdentifier := by
  intro c id k s hc _
  refine ⟨fun o => matching_iff, fun hnone => ?_, fun o hm => ⟨fun hfits => ?_, fun hunfit c' hc' => ?_⟩⟩
  · rw [exec_of_completionOf hc, complete_unmatched hnone]
  · refine ⟨arrivedAs k, ?_, ?_⟩
    · rw [exec_of_completionOf hc, complete_matched hm, endOf_of_fits hfits]
    · cases k <;> rfl
  · rw [exec_of_completionOf hc, exec_of_completionOf hc', complete_matched hm, complete_matched hm,
      endOf_of_unfit hunfit]

end Sys2Proof.Completions


/-! SUPPORT. What every part of an event keeps of the streams, of the held writes and of the Memory Port: requests are
answered in order, a stream has a current request exactly when it holds one, nothing is granted after the notice, and
no line has two writes outstanding. -/

namespace Sys2Proof.Order

open Sys2Proof.Machine Sys2Proof.Safety Sys2Proof.Laws Sys2Proof.RestoreReads

/-! ## One stream record -/

theorem answeredInOrder_refl (r : StreamRec) : answeredInOrder r.queue r.sent r :=
  ⟨[], Nat.zero_le _, rfl, by simp [responsesTo]⟩

theorem responsesTo_append (queue : List Request) (g k : List (UpStatus × Option LineData))
    (hg : g.length ≤ queue.length) :
    responsesTo queue (g ++ k) = responsesTo queue g ++ responsesTo (queue.drop g.length) k := by
  conv_lhs => rw [← List.take_append_drop g.length queue]
  unfold responsesTo
  rw [List.zipWith_append (by simp [hg])]
  congr 1
  conv_rhs => rw [← List.take_append_drop g.length queue]
  rw [← List.append_nil g, List.zipWith_append (by simp [hg])]
  simp

theorem answeredInOrder_trans {queue : List Request} {sent : List Response} {r r' : StreamRec}
    (h : answeredInOrder queue sent r) (k : answeredInOrder r.queue r.sent r') : answeredInOrder queue sent r' := by
  obtain ⟨g, hg, hq, hs⟩ := h
  obtain ⟨g', hg', hq', hs'⟩ := k
  rw [hq, List.length_drop] at hg'
  refine ⟨g ++ g', ?_, ?_, ?_⟩
  · rw [List.length_append]; omega
  · rw [hq', hq, List.drop_drop, List.length_append]
  · rw [hs', hs, hq, responsesTo_append queue g g' hg, List.append_assoc]

/-- A stream record goes on: its oldest requests are answered in order, and its current request stays in step with its
queue. -/
structure RecordGoes (r r' : StreamRec) : Prop where
  answers : answeredInOrder r.queue r.sent r'
  law : streamLaw r = true → streamLaw r' = true

theorem streamLaw_iff (r : StreamRec) :
    streamLaw r = true ↔ r.queue.length ≤ Config.queueDepth ∧ (r.phase = .idle ↔ r.queue = []) := by
  cases h : r.queue <;> by_cases hp : r.phase = .idle <;> simp [streamLaw, h, hp]

theorem RecordGoes.refl (r : StreamRec) : RecordGoes r r := ⟨answeredInOrder_refl r, id⟩

theorem RecordGoes.trans {r s t : StreamRec} (h : RecordGoes r s) (k : RecordGoes s t) : RecordGoes r t :=
  ⟨answeredInOrder_trans h.answers k.answers, fun hl => k.law (h.law hl)⟩

/-- A change of the phase, between phases of a current request, or of the other fields. -/
theorem RecordGoes.keep {r r' : StreamRec} (hq : r'.queue = r.queue) (hs : r'.sent = r.sent)
    (hp : r'.phase = .idle ↔ r.phase = .idle) : RecordGoes r r' := by
  refine ⟨⟨[], Nat.zero_le _, by simp [hq], by simp [hs, responsesTo]⟩, fun h => ?_⟩
  rw [streamLaw_iff] at h ⊢
  rw [hq, hp]
  exact h

/-- A new phase of the current request. -/
theorem RecordGoes.current {r r' : StreamRec} (hne : r.queue ≠ []) (hq : r'.queue = r.queue) (hs : r'.sent = r.sent)
    (hp : r'.phase ≠ .idle) : RecordGoes r r' := by
  refine ⟨⟨[], Nat.zero_le _, by simp [hq], by simp [hs, responsesTo]⟩, fun h => ?_⟩
  rw [streamLaw_iff] at h ⊢
  rw [hq]
  exact ⟨h.1, iff_of_false hp hne⟩

theorem RecordGoes.answered (r : StreamRec) (st : UpStatus) (bytes : Option LineData) :
    RecordGoes r (r.answered st bytes) := by
  unfold StreamRec.answered
  split
  · exact .refl r
  · rename_i q rest hq
    refine ⟨⟨[(st, bytes)], by simp [hq], by simp [hq], by simp [hq, responsesTo]⟩, fun h => ?_⟩
    rw [streamLaw_iff] at h ⊢
    rw [hq, List.length_cons] at h
    refine ⟨Nat.le_of_succ_le h.1, ?_⟩
    cases rest <;> simp

theorem RecordGoes.powerFail (r : StreamRec) : RecordGoes r r.powerFail := by
  refine ⟨⟨r.queue.map fun _ => (.power, none), by simp, by simp [StreamRec.powerFail], ?_⟩, fun _ => ?_⟩
  · have hmap : ∀ l : List Request, l.map (fun q => responseTo q .power none) =
        responsesTo l (l.map fun _ => (.power, none)) := fun l => by
      unfold responsesTo
      rw [List.zipWith_map_right, List.zipWith_self]
    simp only [StreamRec.powerFail, hmap]
  · simp [streamLaw, StreamRec.powerFail]

/-! ## The relation -/

/-- From blocks a to blocks b the ports have kept their order. -/
structure Orderly (a b : Blocks) : Prop where
  notice : b.journal.notice = a.journal.notice
  records : ∀ i, RecordGoes (a.stream i) (b.stream i)
  room : a.held.entries.length ≤ Config.heldCapacity → b.held.entries.length ≤ Config.heldCapacity
  safe : safeLaw a = true → safeLaw b = true
  write : writeLaw a.mem = true → writeLaw b.mem = true
  slots : a.journal.notice = true → ∀ (k : SlotNo) o, b.mem.slots[k] = some o → a.mem.slots[k] = some o

theorem Orderly.refl (a : Blocks) : Orderly a a := ⟨rfl, fun _ => .refl _, id, id, id, fun _ _ _ => id⟩

theorem Orderly.trans {a b c : Blocks} (h : Orderly a b) (k : Orderly b c) : Orderly a c where
  notice := k.notice.trans h.notice
  records i := (h.records i).trans (k.records i)
  room hl := k.room (h.room hl)
  safe hl := k.safe (h.safe hl)
  write hl := k.write (h.write hl)
  slots hn j o ho := h.slots hn j o (k.slots (by rw [h.notice]; exact hn) j o ho)

theorem safeLaw_iff (b : Blocks) : safeLaw b = true ↔
    (b.journal.notice = true → b.mem.waiting = [])
      ∧ (b.journal.state = .safe → b.journal.notice = true ∧ b.mem.quiet = true) := by
  cases hn : b.journal.notice <;> by_cases hs : b.journal.state = .safe <;>
    simp [safeLaw, hn, hs, List.isEmpty_iff]

variable {a b c : Blocks}

/-- A change beside the ports. -/
theorem Orderly.aside (h : Orderly a b) (hreq : c.req = b.req)
    (hheld : c.held.entries.length ≤ b.held.entries.length) (hmem : c.mem = b.mem)
    (hn : c.journal.notice = b.journal.notice) (hs : c.journal.state = .safe → b.journal.state = .safe) :
    Orderly a c := by
  refine h.trans ⟨hn, fun i => ?_, fun hl => hheld.trans hl, fun hl => ?_, fun hl => by rw [hmem]; exact hl, fun _ k o ho => ?_⟩
  · have : c.stream i = b.stream i := by simp only [Blocks.stream, hreq]
    rw [this]
    exact .refl _
  · rw [safeLaw_iff] at hl ⊢
    rw [hn, hmem]
    exact ⟨hl.1, fun hc => hl.2 (hs hc)⟩
  · rwa [hmem] at ho

/-- A change of the stream records. -/
theorem Orderly.byRecords (h : Orderly a b) (hr : ∀ i, RecordGoes (b.stream i) (c.stream i))
    (hheld : c.held = b.held) (hmem : c.mem = b.mem) (hj : c.journal = b.journal) : Orderly a c := by
  refine h.trans ⟨by rw [hj], hr, fun hl => by rw [hheld]; exact hl, fun hl => ?_, fun hl => by rw [hmem]; exact hl,
    fun _ k o ho => ?_⟩
  · rw [safeLaw_iff] at hl ⊢
    rw [hj, hmem]
    exact hl
  · rwa [hmem] at ho

/-! ## The updates of the blocks -/

theorem Orderly.modStream (h : Orderly a b) {i : StreamId} {f : StreamRec → StreamRec}
    (hr : RecordGoes (b.stream i) (f (b.stream i))) : Orderly a (b.modStream i f) := by
  refine h.byRecords (fun k => ?_) rfl rfl rfl
  rw [Blocks.modStream_stream]
  split
  · rename_i hk; rw [hk]; exact hr
  · exact .refl _

theorem Orderly.mapStreams (h : Orderly a b) {f : StreamId → StreamRec → StreamRec}
    (hr : ∀ i, RecordGoes (b.stream i) (f i (b.stream i))) : Orderly a (b.mapStreams f) := by
  refine h.byRecords (fun k => ?_) rfl rfl rfl
  rw [Blocks.mapStreams_stream]
  exact hr k

theorem Orderly.modCtx (h : Orderly a b) {k : CtxId} {f : Context → Context} : Orderly a (b.modCtx k f) :=
  h.aside rfl le_rfl rfl rfl id

theorem Orderly.modEvents (h : Orderly a b) {f : EventUnit → EventUnit} : Orderly a (b.modEvents f) :=
  h.aside rfl le_rfl rfl rfl id

theorem Orderly.modRecovery (h : Orderly a b) {f : RecoveryEngine → RecoveryEngine} : Orderly a (b.modRecovery f) :=
  h.aside rfl le_rfl rfl rfl id

theorem Orderly.modTrack (h : Orderly a b) {f : List TrackEntry → List TrackEntry} : Orderly a (b.modTrack f) :=
  h.aside rfl le_rfl rfl rfl id

theorem Orderly.reachTime (h : Orderly a b) {t : Nat} : Orderly a (b.reachTime t) :=
  h.aside rfl le_rfl rfl rfl id

/-- An update of the Journal Writer that takes no notice and does not enter SAFE. -/
theorem Orderly.modJournal (h : Orderly a b) {f : JournalWriter → JournalWriter}
    (hn : (f b.journal).notice = b.journal.notice := by rfl)
    (hs : (f b.journal).state = .safe → b.journal.state = .safe := by exact fun h => h) : Orderly a (b.modJournal f) :=
  h.aside rfl le_rfl rfl hn hs

/-- An update of the Held Write Queue that brings no entry. -/
theorem Orderly.modHeld (h : Orderly a b) {f : HeldQueue → HeldQueue}
    (hl : (f b.held).entries.length ≤ b.held.entries.length) : Orderly a (b.modHeld f) :=
  h.aside rfl hl rfl rfl id

theorem Orderly.ite {p : Prop} [Decidable p] (hb : Orderly a b) (hc : Orderly a c) : Orderly a (if p then b else c) := by
  split
  · exact hb
  · exact hc

theorem Orderly.foldl {α : Type} {f : Blocks → α → Blocks} (hf : ∀ {b} x, Orderly a b → Orderly a (f b x))
    (h : Orderly a b) (l : List α) : Orderly a (l.foldl f b) := by
  induction l generalizing b with
  | nil => exact h
  | cons x l ih => exact ih (hf x h)

/-! ## Request Port -/

theorem Orderly.answer (h : Orderly a b) {i : StreamId} {st : UpStatus} {bytes : Option LineData} :
    Orderly a (answer i st bytes b) := h.modStream (.answered _ st bytes)

theorem Orderly.wake (h : Orderly a b) {p : StreamId → StreamRec → StallCause → Bool} : Orderly a (wake p b) := by
  refine h.mapStreams fun i => ?_
  split
  · rename_i cause hp
    split
    · exact .keep rfl rfl (by simp [hp])
    · exact .refl _
  · exact .refl _

theorem Orderly.wakeAll (h : Orderly a b) : Orderly a (wakeAll b) := h.wake

theorem Orderly.wakeContext (h : Orderly a b) {cfg : Image} {k : CtxId} : Orderly a (wakeContext cfg k b) := h.wake

theorem Orderly.wakeCapture (h : Orderly a b) : Orderly a (wakeCapture b) := h.wake

theorem Orderly.wakeHeldFull (h : Orderly a b) : Orderly a (wakeHeldFull b) := h.wake

theorem Orderly.wakeRestoring (h : Orderly a b) {line : Addr} : Orderly a (wakeRestoring line b) := h.wake

theorem Orderly.lineFreed (h : Orderly a b) {line : Addr} : Orderly a (lineFreed line b) := by
  refine Orderly.wakeRestoring (h.mapStreams fun i => ?_)
  split
  · split
    · refine .keep rfl rfl ?_
      by_cases hp : (b.stream i).phase = .stalled .conflict <;> simp [hp]
    · exact .refl _
  · exact .refl _

theorem Orderly.settleWrites (h : Orderly a b) {reason : Option LossReason} {i : StreamId} {k : Nat} :
    Orderly a (settleWrites reason i k b) := h.modStream (.keep rfl rfl Iff.rfl)

theorem Orderly.settleContributors (h : Orderly a b) {reason : Option LossReason} {cs : List (StreamId × Nat)} :
    Orderly a (settleContributors reason cs b) := h.foldl (fun _ h => h.settleWrites) cs

theorem Orderly.answerBarrier (h : Orderly a b) {i : StreamId} : Orderly a (answerBarrier i b) := by
  unfold Machine.answerBarrier
  exact (h.answer.modStream (.keep rfl rfl Iff.rfl)).modJournal

theorem Orderly.raise (h : Orderly a b) {f : EventFlag} : Orderly a (raise f b) := h.modEvents

theorem Orderly.refuseWrite (h : Orderly a b) {i : StreamId} {line : Addr} {st : UpStatus} :
    Orderly a (refuseWrite i line st b) := by
  unfold Machine.refuseWrite
  split
  · exact h.answer.modEvents
  · exact h.answer.modEvents
  · exact h.answer.modEvents
  · exact h.answer

/-! ## Memory Port -/

theorem writeLaw_iff (m : MemoryPort) : writeLaw m = true ↔
    (m.ops.filterMap fun o => o.op.writeLine).Nodup ∧ ∀ r ∈ m.waiting, releaseNamed r = true := by
  simp [writeLaw, List.all_eq_true]

/-- Other waiting requests, each of which names its line. -/
theorem Orderly.byWaiting (h : Orderly a b) {m : MemoryPort} (hslots : m.slots = b.mem.slots)
    (hn : b.journal.notice = true → b.mem.waiting = [] → m.waiting = [])
    (hr : (∀ r ∈ b.mem.waiting, releaseNamed r = true) → ∀ r ∈ m.waiting, releaseNamed r = true) :
    Orderly a (b.modMem fun _ => m) := by
  have hops : m.ops = b.mem.ops := by simp only [MemoryPort.ops, hslots]
  have hquiet : m.quiet = b.mem.quiet := by simp only [MemoryPort.quiet, hslots]
  refine h.trans ⟨rfl, fun _ => .refl _, id, fun hl => ?_, fun hl => ?_, fun _ k o ho => ?_⟩
  · rw [safeLaw_iff] at hl ⊢
    exact ⟨fun hn' => hn hn' (hl.1 hn'), fun hs => by rw [Blocks.modMem_mem, hquiet]; exact hl.2 hs⟩
  · rw [writeLaw_iff] at hl ⊢
    rw [Blocks.modMem_mem, hops]
    exact ⟨hl.1, hr hl.2⟩
  · rw [← hslots]; exact ho

/-- A request that is handed over names its line when it is a release. -/
theorem Orderly.handOver (h : Orderly a b) {op : MemOp} {cls : MemClass} {o : Owner}
    (hr : releaseNamed ⟨op, cls, o, 0⟩ = true := by rfl) : Orderly a (handOver op cls o b) := by
  unfold Machine.handOver
  split
  · exact h
  · rename_i hn
    refine h.byWaiting rfl (fun hn' => absurd hn' hn) fun hall r hmem => ?_
    rcases List.mem_append.1 hmem with hmem | hmem
    · exact hall r hmem
    · rw [List.mem_singleton.1 hmem]
      exact hr

theorem Orderly.withdraw (h : Orderly a b) {p : MemRequest → Bool} : Orderly a (withdraw p b) := by
  refine h.byWaiting rfl (fun _ hw => ?_) fun hall r hmem => hall r (List.mem_filter.1 hmem).1
  rw [settleCounts_waiting, hw]
  rfl

/-! ## Held Write Queue -/

theorem Orderly.mergeHeld (h : Orderly a b) {i : StreamId} {line : Addr} {m : ByteMask} {d : LineData} :
    Orderly a (mergeHeld i line m d b) := h.modHeld (List.length_map _).le

/-- A new held entry where there is room. -/
theorem Orderly.allocHeld (h : Orderly a b) {i : StreamId} {k : CtxId} {line : Addr} {m : ByteMask} {d : LineData}
    {st : HeldState} (hroom : b.held.full = false) : Orderly a (allocHeld i k line m d st b) := by
  refine h.trans ⟨rfl, fun _ => .refl _, fun _ => ?_, id, id, fun _ _ _ => id⟩
  simpa [HeldQueue.full, Machine.allocHeld] using hroom

theorem Orderly.heldLogged (h : Orderly a b) {line : Addr} : Orderly a (heldLogged line b) :=
  h.modHeld (List.length_map _).le

theorem Orderly.requestReleases (h : Orderly a b) : Orderly a (requestReleases b) :=
  h.foldl (fun e h => h.handOver (by simp [releaseNamed, MemOp.writeLine])) _

theorem Orderly.discardHeld (h : Orderly a b) {p : HeldEntry → Bool} {reason : Option LossReason} :
    Orderly a (discardHeld p reason b) := by
  unfold Machine.discardHeld
  dsimp only
  split
  · exact h
  · exact (((h.modHeld (List.length_filter_le _ _)).foldl (fun _ h => h.settleContributors) _).withdraw).wakeHeldFull

theorem Orderly.flagIssued (h : Orderly a b) {k : CtxId} : Orderly a (flagIssued k b) :=
  h.modHeld (List.length_map _).le

theorem Orderly.copyToOverlays (h : Orderly a b) {line : Addr} {m : ByteMask} {d : LineData} :
    Orderly a (copyToOverlays line m d b) := h.modHeld le_rfl

theorem Orderly.addOverlay (h : Orderly a b) {i : StreamId} {line : Addr} : Orderly a (addOverlay i line b) :=
  h.modHeld le_rfl

theorem Orderly.dropOverlay (h : Orderly a b) {i : StreamId} : Orderly a (dropOverlay i b) := h.modHeld le_rfl

/-! ## Line Tracking Table -/

theorem Orderly.removeEntries (h : Orderly a b) {p : TrackEntry → Bool} : Orderly a (removeEntries p b) :=
  (h.modTrack).foldl (fun _ h => h.lineFreed) _

theorem Orderly.updateEntries (h : Orderly a b) {p : TrackEntry → Bool} {f : TrackEntry → TrackEntry} :
    Orderly a (updateEntries p f b) := h.modTrack

theorem Orderly.dropRestoring (h : Orderly a b) {k : CtxId} : Orderly a (dropRestoring k b) :=
  h.updateEntries.foldl (fun _ h => h.wakeRestoring) _

theorem Orderly.leaveRestoring (h : Orderly a b) {k : CtxId} {line : Addr} {st : TrackState} :
    Orderly a (leaveRestoring k line st b) := h.updateEntries.wakeRestoring

/-! ## Journal Writer -/

theorem Orderly.writeAnchor (h : Orderly a b) {cfg : Image} {copy : AnchorCopy} {f : AnchorFields} {p : AnchorPurpose} :
    Orderly a (writeAnchor cfg copy f p b) := h.modJournal.handOver

theorem Orderly.anchorCheck (h : Orderly a b) {cfg : Image} : Orderly a (anchorCheck cfg b) := by
  unfold Machine.anchorCheck
  split
  · exact h.writeAnchor
  · exact h

theorem Orderly.evalPause (h : Orderly a b) {cfg : Image} : Orderly a (evalPause cfg b) := by
  unfold Machine.evalPause
  dsimp only
  split
  · exact h
  split
  · exact h.modJournal.raise.anchorCheck
  split
  · exact h.modJournal.raise.wakeCapture
  · exact h

theorem Orderly.reserve (h : Orderly a b) {cfg : Image} {k : Nat} : Orderly a (reserve cfg k b) :=
  h.modJournal.evalPause

theorem Orderly.spaceRisen (h : Orderly a b) {cfg : Image} : Orderly a (spaceRisen cfg b) := h.wakeCapture.evalPause

theorem Orderly.releaseSpace (h : Orderly a b) {cfg : Image} {k : Nat} : Orderly a (releaseSpace cfg k b) := by
  unfold Machine.releaseSpace
  split
  · exact h
  · exact h.modJournal.spaceRisen

theorem Orderly.placeDemand (h : Orderly a b) {d : Demand} : Orderly a (placeDemand d b) := by
  refine h.modJournal ?_ ?_
  · split
    · rfl
    · split <;> rfl
  · split
    · exact id
    · split <;> exact id

theorem Orderly.burstCheck (h : Orderly a b) {cfg : Image} : Orderly a (burstCheck cfg b) := by
  unfold Machine.burstCheck issueBurst
  dsimp only
  split
  · split
    · exact h
    · exact h.modJournal.handOver
  · exact h

theorem Orderly.stage (h : Orderly a b) {cfg : Image} {slots : List StagedSlot} {e : Epoch} {k : CtxId} :
    Orderly a (stage cfg slots e k b) := h.modJournal

theorem Orderly.demandsAtStaging (h : Orderly a b) {e : TrackEntry} {seq : Count32} :
    Orderly a (demandsAtStaging e seq b) := by
  have hwaiting := h.foldl (f := fun b i => Machine.placeDemand ⟨seq, .barrier i⟩ b) (fun _ h => h.placeDemand)
  unfold Machine.demandsAtStaging
  dsimp only
  split
  · exact (hwaiting _).placeDemand
  · exact hwaiting _

theorem Orderly.stageUndo (h : Orderly a b) {cfg : Image} {e : TrackEntry} {d : LineData} :
    Orderly a (stageUndo cfg e d b) := h.stage.updateEntries.modCtx.demandsAtStaging.burstCheck

theorem Orderly.stageMarker (h : Orderly a b) {cfg : Image} {k : RecordKind} {c : CtxId} :
    Orderly a (stageMarker cfg k c b) := h.stage.burstCheck

theorem Orderly.serveOne (h : Orderly a b) {cfg : Image} (hb : serveOne cfg b = some c) : Orderly a c := by
  unfold Machine.serveOne at hb
  dsimp only at hb
  split at hb
  · cases hb
  split at hb
  · split at hb <;> cases hb
    exact h.modJournal.stageMarker
  · split at hb
    · split at hb <;> cases hb
      exact h.modJournal.handOver
    · cases hb

theorem Orderly.serveBuffer (h : Orderly a b) {cfg : Image} (n : Nat) : Orderly a (serveBuffer cfg n b) := by
  induction n generalizing b with
  | zero => exact h
  | succ n ih =>
    unfold Machine.serveBuffer
    split
    · exact ih (h.serveOne ‹_›)
    · exact h

theorem Orderly.requestMarker (h : Orderly a b) {k : RecordKind} {c : CtxId} : Orderly a (requestMarker k c b) := by
  unfold Machine.requestMarker
  split
  · exact h.modJournal
  · exact h

/-! ## Epoch Controller -/

theorem Orderly.answerWaiters (h : Orderly a b) {k : CtxId} {st : UpStatus} : Orderly a (answerWaiters k st b) :=
  (h.foldl (fun _ h => h.answer) _).modCtx

theorem Orderly.drainDemands (h : Orderly a b) {k : CtxId} {source : DemandSource} :
    Orderly a (drainDemands k source b) := by
  refine h.foldl (fun e h => ?_) _
  split
  · exact h.placeDemand
  · exact h

theorem Orderly.beginCommit (h : Orderly a b) {cfg : Image} {k : CtxId} : Orderly a (beginCommit cfg k b) :=
  h.modCtx.wakeContext.drainDemands.burstCheck

theorem Orderly.enterMarking (h : Orderly a b) {cfg : Image} {k : CtxId} : Orderly a (enterMarking cfg k b) :=
  h.modCtx.wakeContext.requestMarker

theorem Orderly.markerDurable (h : Orderly a b) {cfg : Image} {k : CtxId} {e : Epoch} :
    Orderly a (markerDurable cfg k e b) := by
  have hends : ∀ {b}, Orderly a b → Orderly a (Machine.answerWaiters k .okay
      ((Machine.removeEntries (fun t => decide (t.ctx = k)) b).modJournal fun j =>
        let j' := { j with live := j.live.filter fun l => decide (l.epoch ≠ e) }
        { j' with head := j'.headNow })) := fun h => h.removeEntries.modJournal.answerWaiters
  unfold Machine.markerDurable
  dsimp only at hends ⊢
  split
  · exact h
  split
  · refine Orderly.anchorCheck (Orderly.wakeContext ?_)
    split
    · exact (hends h).modCtx.raise
    · split
      · exact (hends h).modCtx.raise
      · exact (hends h).modCtx
  · exact h

theorem Orderly.breakRollback (h : Orderly a b) {k : CtxId} : Orderly a (breakRollback k b) :=
  h.withdraw.modCtx.raise.dropRestoring

theorem Orderly.enterFaulted (h : Orderly a b) {cfg : Image} {k : CtxId} {r : FaultRecord} :
    Orderly a (enterFaulted cfg k r b) := by
  unfold Machine.enterFaulted
  dsimp only
  split
  · exact h.answerWaiters.modCtx.breakRollback.raise.wakeContext
  · exact h.answerWaiters.modCtx.raise.wakeContext

theorem Orderly.reportFault (h : Orderly a b) {cfg : Image} {k : CtxId} {e : Epoch} {kind : FaultKind} {line : Addr}
    {i : StreamId} {st : DownStatus} : Orderly a (reportFault cfg k e kind line i st b) := by
  unfold Machine.reportFault
  dsimp only
  split
  · exact h.enterFaulted.discardHeld
  · exact h

theorem Orderly.reportRestoreFault (h : Orderly a b) {cfg : Image} {k : CtxId} {kind : FaultKind} {line : Addr}
    {st : DownStatus} : Orderly a (reportRestoreFault cfg k kind line st b) := by
  unfold Machine.reportRestoreFault
  dsimp only
  split
  · split
    · exact h.enterFaulted
    · exact h
  · exact h

theorem Orderly.journalFaults (h : Orderly a b) {cfg : Image} {st : Option DownStatus} {k : CtxId} :
    Orderly a (journalFaults cfg st b k) := by
  unfold Machine.journalFaults
  dsimp only
  split
  · split
    · exact h
    · exact h.enterFaulted
  · exact h

theorem Orderly.stopWriting (h : Orderly a b) : Orderly a (stopWriting b) := by
  unfold Machine.stopWriting
  exact h.modJournal

theorem Orderly.journalFail (h : Orderly a b) {cfg : Image} {reason : JournalReason} {st : Option DownStatus} :
    Orderly a (journalFail cfg reason st b) :=
  (((h.stopWriting.withdraw.modJournal (hs := by simp)).discardHeld.foldl (fun _ h => h.journalFaults) _).raise).wakeAll

theorem Orderly.enterRollback (h : Orderly a b) {cfg : Image} {k : CtxId} {m : RollbackMode} :
    Orderly a (enterRollback cfg k m b) := h.answerWaiters.modCtx.discardHeld.flagIssued.wakeContext

/-! ## Rollback -/

theorem Orderly.modRollback (h : Orderly a b) {k : CtxId} {f : Rollback → Rollback} : Orderly a (modRollback k f b) :=
  h.modCtx

theorem Orderly.dropCaptures (h : Orderly a b) {cfg : Image} {k : CtxId} : Orderly a (dropCaptures cfg k b) :=
  h.removeEntries.modJournal.releaseSpace

theorem Orderly.enterRetire (h : Orderly a b) {k : CtxId} : Orderly a (enterRetire k b) := h.modRollback.requestMarker

theorem Orderly.settleLines (h : Orderly a b) {cfg : Image} {k : CtxId} : Orderly a (settleLines cfg k b) := by
  unfold Machine.settleLines
  dsimp only
  split
  · exact h.dropCaptures.updateEntries.modRollback.drainDemands.burstCheck
  · exact h.dropCaptures.enterRetire

theorem Orderly.fillSlots (h : Orderly a b) {cfg : Image} {k : CtxId} (n : Nat) : Orderly a (fillSlots cfg k n b) := by
  induction n generalizing b with
  | zero => exact h
  | succ n ih =>
    unfold Machine.fillSlots
    split
    · exact ih h.modRollback.handOver
    · exact h

theorem Orderly.requestRestoreWrite (h : Orderly a b) {k : CtxId} {line : Addr} {d : LineData} :
    Orderly a (requestRestoreWrite k line d b) := by
  unfold Machine.requestRestoreWrite
  split
  · exact h.modRollback
  · exact h.modRollback.handOver

theorem Orderly.restoreLogged (h : Orderly a b) {k : CtxId} {line : Addr} : Orderly a (restoreLogged k line b) := by
  unfold Machine.restoreLogged
  split
  · split
    · split
      · exact h
      · exact h.updateEntries.requestRestoreWrite
    · exact h
  · exact h

theorem Orderly.contextStep (h : Orderly a b) {cfg : Image} (k : CtxId) : Orderly a (contextStep cfg b k) := by
  unfold Machine.contextStep
  split
  · split
    · exact h.enterMarking
    · exact h
  · unfold rollbackStep
    dsimp only
    have hfill : Orderly a (Machine.fillSlots cfg k Config.restoreSlots
        (if quiesceDue b k then Machine.settleLines cfg k b else b)) := by
      refine Orderly.fillSlots ?_ _
      split
      · exact h.settleLines
      · exact h
    generalize Machine.fillSlots cfg k Config.restoreSlots _ = b' at hfill ⊢
    split
    · exact hfill.enterRetire
    · exact hfill
  · exact h

/-! ## Recovery Engine -/

theorem Orderly.endRecovery (h : Orderly a b) {o : RecoveryOutcome} {st : JournalState} {reason : Option JournalReason}
    (hst : st ≠ .safe := by simp) : Orderly a (endRecovery o st reason b) :=
  ((h.modRecovery.modJournal (hs := fun hs => absurd hs hst)).raise).wakeAll

theorem Orderly.recoveryFail (h : Orderly a b) {reason : JournalReason} : Orderly a (recoveryFail reason b) :=
  h.endRecovery.raise

theorem Orderly.recoveryRead (h : Orderly a b) {line : Addr} {what : RecoveryRead} {step : RecoveryStep} :
    Orderly a (recoveryRead line what step b) := h.modRecovery.handOver

theorem Orderly.readHeader (h : Orderly a b) {cfg : Image} : Orderly a (readHeader cfg b) := h.recoveryRead

theorem Orderly.readData (h : Orderly a b) {cfg : Image} {d : LineData} : Orderly a (readData cfg d b) := h.recoveryRead

theorem Orderly.finish (h : Orderly a b) {cfg : Image} : Orderly a (finish cfg b) := by
  unfold Machine.finish
  dsimp only
  split
  · exact h.recoveryFail
  · exact h.modRecovery.modJournal.writeAnchor

theorem Orderly.restoreNext (h : Orderly a b) {cfg : Image} : Orderly a (restoreNext cfg b) := by
  unfold Machine.restoreNext
  dsimp only
  split
  · split
    · exact h.finish
    · exact h.modRecovery
  · split
    · exact h.modRecovery
    · exact h.readHeader

theorem Orderly.passRecord (h : Orderly a b) {cfg : Image} {k : RecordKind} : Orderly a (passRecord cfg k b) :=
  h.modRecovery.restoreNext

theorem Orderly.restoreHeader (h : Orderly a b) {cfg : Image} {d : LineData} : Orderly a (restoreHeader cfg d b) := by
  unfold Machine.restoreHeader
  dsimp only
  split
  · split
    · split
      · split
        · exact h.readData
        · exact h.passRecord
      · exact h.passRecord
      · exact h.passRecord
    · exact h.recoveryFail
  · exact h

theorem Orderly.restoreData (h : Orderly a b) {cfg : Image} {d e : LineData} : Orderly a (restoreData cfg d e b) := by
  unfold Machine.restoreData
  split
  · exact h.modRecovery.handOver.passRecord
  · exact h.recoveryFail

theorem Orderly.scanEnd (h : Orderly a b) {cfg : Image} : Orderly a (scanEnd cfg b) := by
  unfold Machine.scanEnd
  dsimp only
  split
  · exact h.modRecovery.finish
  · exact h.modRecovery.modRecovery.restoreNext

theorem Orderly.takeRecord (h : Orderly a b) {cfg : Image} {k : RecordKind} {d : LineData} :
    Orderly a (takeRecord cfg k d b) := by
  unfold Machine.takeRecord
  dsimp only
  split
  · exact h.recoveryFail
  · exact h.modRecovery.readHeader

theorem Orderly.scanHeader (h : Orderly a b) {cfg : Image} {d : LineData} : Orderly a (scanHeader cfg d b) := by
  unfold Machine.scanHeader
  dsimp only
  split
  · split
    · exact h.scanEnd
    · split
      · exact h.readData
      · exact h.scanEnd
    · split
      · exact h.takeRecord
      · exact h.scanEnd
  · exact h.scanEnd

theorem Orderly.scanData (h : Orderly a b) {cfg : Image} {d e : LineData} : Orderly a (scanData cfg d e b) := by
  unfold Machine.scanData
  dsimp only
  split
  · split
    · exact h.recoveryFail
    · exact h.takeRecord
  · exact h.scanEnd

theorem Orderly.judgeAnchors (h : Orderly a b) {cfg : Image} {x y : LineData} :
    Orderly a (judgeAnchors cfg x y b) := by
  unfold Machine.judgeAnchors
  dsimp only
  split
  · exact h.modJournal.endRecovery
  · exact h.modJournal.modRecovery.readHeader

theorem Orderly.anchorRead (h : Orderly a b) {cfg : Image} {copy : AnchorCopy} {d : LineData} :
    Orderly a (anchorRead cfg copy d b) := by
  unfold Machine.anchorRead
  dsimp only
  split
  · exact h.modRecovery.judgeAnchors
  · exact h.modRecovery

theorem Orderly.startRecovery (h : Orderly a b) {cfg : Image} : Orderly a (startRecovery cfg b) := by
  unfold Machine.startRecovery
  split
  · exact h.endRecovery
  · exact h.recoveryRead.recoveryRead

/-- What the data of a recovery read can lead to. -/
theorem recoveryReadData_elim {motive : Blocks → Prop} {cfg : Image} {what : RecoveryRead} {d : LineData}
    (hnone : motive b) (hanchor : ∀ copy, motive (anchorRead cfg copy d b)) (hscan : motive (scanHeader cfg d b))
    (hscanData : ∀ e, motive (scanData cfg e d b)) (hrestore : motive (restoreHeader cfg d b))
    (hrestoreData : ∀ e, motive (restoreData cfg e d b)) : motive (recoveryReadData cfg what d b) := by
  unfold recoveryReadData
  dsimp only
  split
  · exact hnone
  · generalize b.recovery.phase = phase, b.recovery.step = step
    cases phase with
    | anchor =>
      cases what with
      | anchor copy => exact hanchor copy
      | header => exact hnone
      | dataSlot => exact hnone
    | scan =>
      cases what with
      | anchor copy => exact hnone
      | header =>
        cases step with
        | header => exact hscan
        | _ => exact hnone
      | dataSlot =>
        cases step with
        | dataSlot e => exact hscanData e
        | _ => exact hnone
    | restore =>
      cases what with
      | anchor copy => exact hnone
      | header =>
        cases step with
        | header => exact hrestore
        | _ => exact hnone
      | dataSlot =>
        cases step with
        | dataSlot e => exact hrestoreData e
        | _ => exact hnone
    | finish => exact hnone
    | ended => exact hnone

theorem Orderly.recoveryReadEnd (h : Orderly a b) {cfg : Image} {what : RecoveryRead} {o : OpEnd} :
    Orderly a (recoveryReadEnd cfg what o b) := by
  have hfailed : Orderly a (recoveryOpFailed .recoveryReadFailed b) := by
    unfold recoveryOpFailed
    split
    · exact h
    · exact h.recoveryFail
  unfold Machine.recoveryReadEnd
  split
  · exact recoveryReadData_elim (motive := Orderly a) h (fun _ => h.anchorRead) h.scanHeader (fun _ => h.scanData)
      h.restoreHeader (fun _ => h.restoreData)
  · exact hfailed

theorem Orderly.recoveryWriteEnd (h : Orderly a b) {cfg : Image} {o : OpEnd} :
    Orderly a (recoveryWriteEnd cfg o b) := by
  unfold Machine.recoveryWriteEnd
  split
  · unfold recoveryWriteDone
    dsimp only
    split
    · exact h
    · exact .ite h.modRecovery.restoreNext h.modRecovery
  · unfold recoveryOpFailed
    split
    · exact h
    · exact h.recoveryFail

end Sys2Proof.Order


/-! SUPPORT. The ports keep their order through requests, grants, the ends of operations and whole events. -/

namespace Sys2Proof.Order

open Sys2Proof.Machine Sys2Proof.Safety Sys2Proof.Laws Sys2Proof.RestoreReads

variable {a b c : Blocks}

/-! ## Grants (R129, R131) -/

/-- The lines of the outstanding LINE_WRITEs, slot by slot. -/
theorem writeLines_nodup_iff (m : MemoryPort) : (m.ops.filterMap fun o => o.op.writeLine).Nodup ↔
    ∀ (j k : SlotNo) (o o' : Outstanding) l, m.slots[j] = some o → m.slots[k] = some o' →
      o.op.writeLine = some l → o'.op.writeLine = some l → j = k := by
  unfold MemoryPort.ops
  rw [List.filterMap_filterMap, List.Nodup, List.pairwise_filterMap, List.pairwise_iff_getElem]
  simp only [id, Vector.length_toList, Vector.getElem_toList]
  constructor
  · intro h j k o o' l hj hk ho ho'
    by_contra hne
    rcases Nat.lt_or_gt_of_ne (fun e => hne (Fin.ext e)) with hlt | hlt
    · exact h j k j.2 k.2 hlt l (Option.bind_eq_some_iff.2 ⟨o, hj, ho⟩) l (Option.bind_eq_some_iff.2 ⟨o', hk, ho'⟩) rfl
    · exact h k j k.2 j.2 hlt l (Option.bind_eq_some_iff.2 ⟨o', hk, ho'⟩) l (Option.bind_eq_some_iff.2 ⟨o, hj, ho⟩) rfl
  · intro h i j hi hj hlt l hl l' hl' hll
    subst hll
    obtain ⟨o, ho, hol⟩ := Option.bind_eq_some_iff.1 hl
    obtain ⟨o', ho', hol'⟩ := Option.bind_eq_some_iff.1 hl'
    have := h ⟨i, hi⟩ ⟨j, hj⟩ o o' l ho ho' hol hol'
    rw [Fin.mk.injEq] at this
    omega

theorem writeOutstanding_false {m : MemoryPort} {l : Addr} (h : m.writeOutstanding l = false) {k : SlotNo}
    {o : Outstanding} (hk : m.slots[k] = some o) : o.op.writeLine ≠ some l := by
  simp only [MemoryPort.writeOutstanding, List.any_eq_false, decide_eq_true_eq] at h
  exact h o (mem_ops.2 ⟨k, hk⟩)

/-- An operation that writes a line was asked for as a LINE_WRITE of it. -/
theorem opAtGrant_writeLine {h : HeldQueue} {r : MemRequest} (hr : releaseNamed r = true) {l : Addr}
    (hl : (opAtGrant h r).writeLine = some l) : r.op.writeLine = some l := by
  unfold opAtGrant at hl
  split at hl
  · rename_i line howner
    split at hl
    · simp only [MemOp.writeLine, Option.some.injEq] at hl
      subst hl
      simpa [releaseNamed, howner] using hr
    · exact hl
  · exact hl

theorem eligible_writeLine {m : MemoryPort} {r : MemRequest} (h : m.eligible r = true) {l : Addr}
    (hl : r.op.writeLine = some l) : m.writeOutstanding l = false := by
  unfold MemOp.writeLine at hl
  split at hl
  · rename_i l' mask d hop
    cases hl
    simp only [MemoryPort.eligible, hop, Bool.and_eq_true, Bool.not_eq_true'] at h
    exact h.2
  · cases hl

theorem granted_nodup {m : MemoryPort} {k : SlotNo} {r : MemRequest} {o : Outstanding}
    (h : (m.ops.filterMap fun o => o.op.writeLine).Nodup)
    (hnew : ∀ l, o.op.writeLine = some l → m.writeOutstanding l = false) :
    ((m.granted k r o).ops.filterMap fun o => o.op.writeLine).Nodup := by
  rw [writeLines_nodup_iff] at h ⊢
  intro i j x y l hi hj hx hy
  rw [granted_slot] at hi hj
  split at hi
  · split at hj
    · rename_i hik hjk; rw [hik, hjk]
    · cases hi
      exact absurd hy (writeOutstanding_false (hnew l hx) hj)
  · split at hj
    · cases hj
      exact absurd hx (writeOutstanding_false (hnew l hy) hi)
    · exact h i j x y l hi hj hx hy

theorem issueOldest_length (line : Addr) (l : List HeldEntry) : (issueOldest line l).length = l.length := by
  simpa using congrArg List.length (issueOldest_asIssued line l)

theorem Orderly.grantOne (h : Orderly a b) {cfg : Image} (hb : grantOne cfg b = some c) : Orderly a c := by
  obtain ⟨hn, r, k, f, hpick, _, rfl⟩ := grantOne_spec hb
  obtain ⟨hmem, helig⟩ := pick_mem hpick
  refine h.trans ⟨rfl, fun _ => .refl _, fun hl => ?_, fun hl => ?_, fun hl => ?_, fun hn' => ?_⟩
  · have hlen := congrArg List.length (heldAtGrant_entries b.held r)
    rw [List.length_map, List.length_map] at hlen
    exact hlen.le.trans hl
  · rw [safeLaw_iff] at hl ⊢
    refine ⟨fun hn' => ?_, fun hs => ?_⟩
    · rw [hn] at hn'; cases hn'
    · rw [hn] at hl
      exact nomatch (hl.2 hs).1
  · rw [writeLaw_iff] at hl ⊢
    obtain ⟨hnodup, hnamed⟩ := hl
    refine ⟨granted_nodup hnodup fun l hl => ?_, fun x hx => hnamed x (List.mem_of_mem_erase hx)⟩
    exact eligible_writeLine helig (opAtGrant_writeLine (hnamed r hmem) hl)
  · rw [hn] at hn'; cases hn'

theorem Orderly.arbitrate (h : Orderly a b) {cfg : Image} (n : Nat) : Orderly a (arbitrate cfg n b) := by
  induction n generalizing b with
  | zero => exact h
  | succ n ih =>
    unfold Machine.arbitrate
    split
    · exact ih (h.grantOne ‹_›)
    · exact h

/-! ## Requests that are handled -/

theorem Orderly.setPhase (h : Orderly a b) {i : StreamId} (hq : (b.stream i).queue ≠ []) {p : Phase} (hp : p ≠ .idle) :
    Orderly a (setPhase i p b) := h.modStream (.current hq rfl rfl hp)

theorem Orderly.stallAt (h : Orderly a b) {i : StreamId} (hq : (b.stream i).queue ≠ []) {cause : StallCause} :
    Orderly a (stallAt i cause b) := h.modStream (.current hq rfl rfl (by simp))

theorem Orderly.handleRead (h : Orderly a b) {cfg : Image} {i : StreamId} (hq : (b.stream i).queue ≠ []) {line : Addr} :
    Orderly a (handleRead cfg i line b) := by
  unfold Machine.handleRead
  split
  · exact h.answer
  · exact h.stallAt hq
  · exact h.handOver.setPhase (by rwa [handOver_stream]) (by simp)
  · unfold journaledRead
    split
    · exact h.answer
    · exact h.addOverlay.handOver.setPhase (by rwa [handOver_stream]) (by simp)

theorem Orderly.acceptWrite (h : Orderly a b) {i : StreamId} : Orderly a (acceptWrite i b) :=
  h.answer.modStream (.keep rfl rfl Iff.rfl)

theorem Orderly.startIdleTimer (h : Orderly a b) {cfg : Image} {k : CtxId} : Orderly a (startIdleTimer cfg k b) := by
  unfold Machine.startIdleTimer
  exact h.modCtx

theorem Orderly.acceptJournaled (h : Orderly a b) {cfg : Image} {i : StreamId} {k : CtxId} :
    Orderly a (acceptJournaled cfg i k b) := .ite h.acceptWrite.startIdleTimer h.acceptWrite

theorem Orderly.openEpoch (h : Orderly a b) {k : CtxId} : Orderly a (openEpoch k b) :=
  h.aside rfl le_rfl rfl rfl id

theorem Orderly.insertEntry (h : Orderly a b) {i : StreamId} {k : CtxId} {line : Addr} :
    Orderly a (insertEntry i k line b) := h.aside rfl le_rfl rfl rfl id

theorem Orderly.firstTouch (h : Orderly a b) {cfg : Image} {i : StreamId} {k : CtxId} {line : Addr} {m : ByteMask}
    {d : LineData} (hroom : b.held.full = false) : Orderly a (firstTouch cfg i k line m d b) := by
  have hopen : Orderly a (if decide ((b.ctx k).state = .idle) then Machine.openEpoch k b else b) := .ite h.openEpoch h
  have hheld : (if decide ((b.ctx k).state = .idle) then Machine.openEpoch k b else b).held = b.held := by
    split <;> rfl
  unfold Machine.firstTouch
  dsimp only
  generalize (if decide ((b.ctx k).state = .idle) then Machine.openEpoch k b else b) = b' at hopen hheld ⊢
  have htouch := (hopen.insertEntry (i := i) (k := k) (line := line)).allocHeld (i := i) (k := k) (line := line) (m := m)
    (d := d) (st := .waitLog) (by rw [← hheld] at hroom; exact hroom)
  have hreserve := (htouch.acceptJournaled (cfg := cfg) (i := i) (k := k)).reserve (cfg := cfg)
    (k := slotsNeeded (b.ctx k).state)
  exact .ite (.journalFail (.ite hreserve.wakeContext hreserve)) (.ite hreserve.wakeContext hreserve)

/-- A first touch and a new held entry are classified where the queue has room. -/
theorem classifyWrite_room {cfg : Image} {b : Blocks} {i : StreamId} {line : Addr} {m : ByteMask} {k : CtxId}
    (h : classifyWrite cfg b i line m = .firstTouch k ∨ ∃ st, classifyWrite cfg b i line m = .newEntry k st) :
    b.held.full = false := by
  unfold classifyWrite classifyJournaled classifyInContext classifyTracked classifyUntracked at h
  split at h
  · simp at h
  split at h <;> try simp at h
  split at h
  · simp at h
  split at h
  · simp at h
  split at h
  · simp at h
  split at h
  · simp at h
  split at h <;> try simp at h
  split at h <;> try simp at h
  all_goals
    split at h
    · split at h
      · split at h
        · simp at h
        split at h
        · simp at h
        · simpa using ‹¬b.held.full = true›
      · simp at h
    · split at h
      · simp at h
      split at h
      · simp at h
      split at h
      · simp at h
      · simpa using ‹¬b.held.full = true›

theorem Orderly.handleWrite (h : Orderly a b) {cfg : Image} {i : StreamId} (hq : (b.stream i).queue ≠ []) {line : Addr}
    {m : ByteMask} {d : LineData} : Orderly a (handleWrite cfg i line m d b) := by
  unfold Machine.handleWrite
  split
  · exact h.setPhase hq (by simp)
  split
  · exact h.refuseWrite
  · exact h.stallAt hq
  · exact h.handOver.acceptWrite
  · unfold conflictStall
    exact h.modStream (.current hq rfl rfl (by simp))
  · exact h.modStream (.current hq rfl rfl (by simp))
  · exact h.mergeHeld.acceptJournaled
  · exact (h.allocHeld (classifyWrite_room (.inr ⟨_, ‹_›⟩))).acceptJournaled
  · exact h.firstTouch (classifyWrite_room (.inl ‹_›))

theorem Orderly.handleBarrier (h : Orderly a b) {cfg : Image} {i : StreamId} (hq : (b.stream i).queue ≠ []) :
    Orderly a (handleBarrier cfg i b) := by
  unfold Machine.handleBarrier
  split
  · exact h.answerBarrier
  · refine Orderly.burstCheck ((h.setPhase hq (by simp)).foldl (fun l h => ?_) _)
    split
    · exact h.placeDemand
    · exact h

theorem Orderly.joinWaiters (h : Orderly a b) {i : StreamId} (hq : (b.stream i).queue ≠ []) {k : CtxId} :
    Orderly a (joinWaiters i k b) := h.modCtx.setPhase hq (by simp)

theorem Orderly.handleCommit (h : Orderly a b) {cfg : Image} {i : StreamId} (hq : (b.stream i).queue ≠ []) :
    Orderly a (handleCommit cfg i b) := by
  unfold Machine.handleCommit
  split
  · exact h.answer
  · exact h.stallAt hq
  · exact h.joinWaiters hq
  · exact (h.joinWaiters hq).beginCommit

theorem Orderly.handleCurrent (h : Orderly a b) {cfg : Image} {i : StreamId} : Orderly a (handleCurrent cfg i b) := by
  unfold Machine.handleCurrent
  split
  · rename_i hq
    refine h.modStream ⟨⟨[], Nat.zero_le _, rfl, by simp [responsesTo]⟩, fun _ => ?_⟩
    rw [streamLaw_iff, hq]
    simp
  · rename_i q rest hq
    have hne : (b.stream i).queue ≠ [] := by simp [hq]
    split
    · exact h.handleRead hne
    · exact h.handleWrite hne
    · exact h.handleBarrier hne
    · exact h.handleCommit hne

/-! ## The rest of an event -/

theorem Orderly.answerBarriers (h : Orderly a b) : Orderly a (answerBarriers b) :=
  h.foldl (fun _ h => h.answerBarrier) _

/-- The WRITEs handed on are current requests that wait. -/
theorem Orderly.handOnCounts (h : Orderly a b) : Orderly a (handOnCounts b) := by
  have hall : ∀ l : List StreamId, (∀ i ∈ l, countDue b i = true) → ∀ c, Orderly a c →
      (∀ i, (c.stream i).phase = (b.stream i).phase ∨ (c.stream i).phase = .fresh) →
      Orderly a (l.foldl (fun b i => Machine.setPhase i .fresh b) c) := by
    intro l
    induction l with
    | nil => intro _ c hc _; exact hc
    | cons i l ih =>
      intro hdue c hc hphase
      refine ih (fun k hk => hdue k (List.mem_cons_of_mem _ hk)) _ (hc.modStream (.keep rfl rfl ?_)) fun k => ?_
      · have hi := hdue i List.mem_cons_self
        have hhold : (b.stream i).phase = .countHold := by
          unfold countDue at hi
          split at hi
          · assumption
          · cases hi
        rcases hphase i with he | he <;> simp [he, hhold]
      · unfold Machine.setPhase
        rw [Blocks.modStream_stream]
        split
        · exact .inr rfl
        · exact hphase k
  exact hall _ (fun i hi => (List.mem_filter.1 hi).2) b h fun _ => .inl rfl

theorem Orderly.progress (h : Orderly a b) {cfg : Image} : Orderly a (progress cfg b) :=
  ((((h.foldl (fun k h => h.contextStep k) allCtxs).serveBuffer _).requestReleases).answerBarriers).handOnCounts

theorem Orderly.free (h : Orderly a b) {f : FreeChoices} : Orderly a { b with free := f } :=
  h.aside rfl le_rfl rfl rfl id

theorem Orderly.settle (h : Orderly a b) {cfg : Image} (n : Nat) : Orderly a (settle cfg n b) := by
  induction n generalizing b with
  | zero => exact h.progress
  | succ n ih =>
    unfold Machine.settle handleNext
    split
    · exact h.progress
    · exact ih h.progress.free.handleCurrent

theorem Orderly.enterSafe (h : Orderly a b) : Orderly a (enterSafe b) := by
  unfold Machine.enterSafe
  split
  · rename_i hsafe
    simp only [Bool.and_eq_true] at hsafe
    obtain ⟨⟨hn, hquiet⟩, _⟩ := hsafe
    refine h.trans ⟨rfl, fun _ => .refl _, id, fun hl => ?_, id, fun _ _ _ => id⟩
    rw [safeLaw_iff] at hl ⊢
    exact ⟨hl.1, fun _ => ⟨hn, hquiet⟩⟩
  · exact h

theorem Orderly.finishEvent (h : Orderly a b) {cfg : Image} : Orderly a (finishEvent cfg b) :=
  ((h.settle _).arbitrate _).enterSafe

/-! ## The ends of operations -/

theorem quiet_iff {m : MemoryPort} : m.quiet = true ↔ ∀ k : SlotNo, m.slots[k] = none := by
  simp only [MemoryPort.quiet, List.all_eq_true, Vector.mem_toList_iff, Option.isNone_iff_eq_none]
  constructor
  · exact fun h k => h _ (Vector.getElem_mem k.2)
  · intro h x hx
    obtain ⟨j, hj, rfl⟩ := Vector.mem_iff_getElem.1 hx
    exact h ⟨j, hj⟩

theorem Orderly.freeSlot (h : Orderly a b) {k : SlotNo} : Orderly a (freeSlot k b) := by
  have hslot : ∀ {j : SlotNo} {o}, (Machine.freeSlot k b).mem.slots[j] = some o → b.mem.slots[j] = some o := by
    intro j o hj
    rw [freeSlot_slot] at hj
    split at hj
    · cases hj
    · exact hj
  refine h.trans ⟨rfl, fun _ => .refl _, id, fun hl => ?_, fun hl => ?_, fun _ j o hj => hslot hj⟩
  · rw [safeLaw_iff] at hl ⊢
    refine ⟨hl.1, fun hs => ⟨(hl.2 hs).1, ?_⟩⟩
    have hquiet := (hl.2 hs).2
    rw [quiet_iff] at hquiet ⊢
    intro j
    rw [freeSlot_slot]
    split
    · rfl
    · exact hquiet j
  · rw [writeLaw_iff, writeLines_nodup_iff] at hl ⊢
    exact ⟨fun i j o o' l hi hj => hl.1 i j o o' l (hslot hi) (hslot hj), hl.2⟩

theorem Orderly.passReadEnd (h : Orderly a b) {i : StreamId} {journaled : Bool} {o : OpEnd} {line : Addr} :
    Orderly a (passReadEnd i journaled o line b) := by
  unfold Machine.passReadEnd
  split
  · exact .ite (Orderly.ite h.answer h).dropOverlay (.ite h.answer h)
  · exact .ite (Orderly.ite h.answer h).dropOverlay (.ite h.answer h)

theorem Orderly.directWriteEnd (h : Orderly a b) {i : StreamId} {o : OpEnd} : Orderly a (directWriteEnd i o b) := by
  unfold Machine.directWriteEnd
  split
  · exact h.settleWrites
  · exact h.settleWrites

theorem Orderly.captureFailed (h : Orderly a b) {cfg : Image} {id : Nat} {st : DownStatus} :
    Orderly a (captureFailed cfg id st b) := by
  unfold Machine.captureFailed
  split
  · exact h.removeEntries.releaseSpace.discardHeld.reportFault
  · exact h

theorem Orderly.captureEnd (h : Orderly a b) {cfg : Image} {id : Nat} {o : OpEnd} :
    Orderly a (captureEnd cfg id o b) := by
  have hgiven : Orderly a (b.modJournal fun j => { j with promises := j.promises.erase id }) := h.modJournal
  unfold Machine.captureEnd
  dsimp only
  split
  · unfold captureData
    split
    · exact .ite hgiven.stageUndo hgiven
    · exact hgiven
  · exact hgiven.captureFailed
  · exact hgiven.captureFailed

theorem Orderly.removeIssued (h : Orderly a b) {line : Addr} : Orderly a (removeIssued line b) :=
  h.modHeld (List.length_filter_le _ _)

theorem Orderly.releaseFailed (h : Orderly a b) {cfg : Image} {e : HeldEntry} {st : DownStatus} :
    Orderly a (releaseFailed cfg e st b) := by
  unfold Machine.releaseFailed
  dsimp only
  split
  · exact h.removeIssued.settleContributors.wakeHeldFull.reportFault
  · exact h.removeIssued.settleContributors.wakeHeldFull

theorem Orderly.releaseEnd (h : Orderly a b) {cfg : Image} {line : Addr} {o : OpEnd} :
    Orderly a (releaseEnd cfg line o b) := by
  unfold Machine.releaseEnd
  split
  · exact h.removeIssued.settleContributors.copyToOverlays.wakeHeldFull
  · exact h.releaseFailed
  · exact h.releaseFailed
  · exact h

theorem Orderly.detachedEnd (h : Orderly a b) {line : Addr} {o : OpEnd} : Orderly a (detachedEnd line o b) := by
  unfold Machine.detachedEnd
  split
  · dsimp only
    split
    · exact (h.modHeld le_rfl).settleContributors.copyToOverlays
    · exact (h.modHeld le_rfl).settleContributors
  · exact h

theorem Orderly.slotLogged (h : Orderly a b) (x : StagedSlot) : Orderly a (slotLogged b x) := by
  unfold Machine.slotLogged recordDurable
  split
  · split
    · exact h.updateEntries.heldLogged.restoreLogged
    · exact h
  · exact h

theorem Orderly.slotMarked (h : Orderly a b) {cfg : Image} (x : StagedSlot) : Orderly a (slotMarked cfg b x) := by
  unfold Machine.slotMarked
  split
  · exact h.markerDurable
  · exact h

theorem Orderly.freeBurst (h : Orderly a b) : Orderly a (freeBurst b) := h.modJournal

theorem Orderly.burstPersisted (h : Orderly a b) {cfg : Image} : Orderly a (burstPersisted cfg b) := by
  unfold Machine.burstPersisted durableAdvance
  exact ((((h.modJournal.freeBurst).foldl (fun x h => h.slotLogged x) _).foldl
    (fun x h => h.slotMarked x) _).serveBuffer _).burstCheck

theorem Orderly.burstEnd (h : Orderly a b) {cfg : Image} {o : OpEnd} : Orderly a (burstEnd cfg o b) := by
  unfold Machine.burstEnd
  split
  · exact h.freeBurst
  split
  · exact h.burstPersisted
  · exact h.freeBurst.journalFail
  · exact h.freeBurst.journalFail

theorem Orderly.anchorIdle (h : Orderly a b) : Orderly a (anchorIdle b) := h.modJournal

theorem Orderly.updateEnd (h : Orderly a b) {cfg : Image} {copy : AnchorCopy} {gen : Count32} {head : RingPtr}
    {o : OpEnd} : Orderly a (updateEnd cfg copy gen head o b) := by
  have hfailed : ∀ st, Orderly a (anchorFailed cfg copy st b) := fun st => .ite h.modJournal.anchorCheck h.journalFail
  unfold Machine.updateEnd
  split
  · exact h
  split
  · exact h.modJournal.spaceRisen.anchorCheck
  · exact hfailed _
  · exact hfailed _

theorem Orderly.formatCopyA (h : Orderly a b) {cfg : Image} : Orderly a (formatCopyA cfg b) := h.modJournal.writeAnchor

theorem Orderly.formatCopyB (h : Orderly a b) {cfg : Image} : Orderly a (formatCopyB cfg b) := .ite h h.writeAnchor

theorem Orderly.formatDone (h : Orderly a b) : Orderly a (formatDone b) :=
  (h.modJournal (hs := by simp)).raise.wakeAll

theorem Orderly.formatEnd (h : Orderly a b) {cfg : Image} {onDone : Blocks → Blocks} (hdone : Orderly a (onDone b))
    {o : OpEnd} : Orderly a (formatEnd cfg onDone o b) := by
  unfold Machine.formatEnd
  split
  · exact h
  split
  · exact hdone
  · exact h.journalFail
  · exact h.journalFail

theorem Orderly.finishSecond (h : Orderly a b) {cfg : Image} : Orderly a (finishSecond cfg b) :=
  .ite h.modJournal h.writeAnchor

theorem Orderly.finishDone (h : Orderly a b) : Orderly a (finishDone b) := by
  have hcounter (n : Epoch) : Orderly a { b with epochs := { b.epochs with counter := n } } :=
    h.aside rfl le_rfl rfl rfl id
  exact .ite h.modJournal (hcounter _).modJournal.endRecovery

theorem Orderly.finishEnd (h : Orderly a b) {onDone : Blocks → Blocks} (hdone : Orderly a (onDone b)) {o : OpEnd} :
    Orderly a (finishEnd onDone o b) := by
  unfold Machine.finishEnd
  split
  · exact h
  split
  · exact hdone
  · exact h.recoveryFail

theorem Orderly.anchorEnd (h : Orderly a b) {cfg : Image} {p : AnchorPurpose} {o : OpEnd} :
    Orderly a (anchorEnd cfg p o b) := by
  unfold Machine.anchorEnd
  dsimp only
  split
  · exact h.anchorIdle.updateEnd
  · exact h.anchorIdle.formatEnd h.anchorIdle.formatCopyB
  · exact h.anchorIdle.formatEnd h.anchorIdle.formatDone
  · exact h.anchorIdle.finishEnd h.anchorIdle.finishSecond
  · exact h.anchorIdle.finishEnd h.anchorIdle.finishDone

theorem Orderly.restoreReadEnd (h : Orderly a b) {cfg : Image} {k : CtxId} {line : Addr} {o : OpEnd} :
    Orderly a (restoreReadEnd cfg k line o b) := by
  unfold Machine.restoreReadEnd
  split
  · exact h.requestRestoreWrite
  · exact h.leaveRestoring.reportRestoreFault
  · exact h.leaveRestoring.reportRestoreFault
  · exact h.leaveRestoring

theorem Orderly.restoreWriteFailed (h : Orderly a b) {cfg : Image} {k : CtxId} {line : Addr} {st : DownStatus} :
    Orderly a (restoreWriteFailed cfg k line st b) := by
  unfold Machine.restoreWriteFailed
  split
  · exact h.leaveRestoring.reportRestoreFault
  · exact h.leaveRestoring

theorem Orderly.restoreWriteEnd (h : Orderly a b) {cfg : Image} {k : CtxId} {line : Addr} {o : OpEnd} :
    Orderly a (restoreWriteEnd cfg k line o b) := by
  unfold Machine.restoreWriteEnd
  split
  · exact h.leaveRestoring.modRollback
  · exact h.restoreWriteFailed
  · exact h.restoreWriteFailed

theorem Orderly.handBack (h : Orderly a b) {cfg : Image} {o : Outstanding} {e : OpEnd} :
    Orderly a (handBack cfg o e b) := by
  unfold Machine.handBack
  split
  · exact h.passReadEnd
  · exact h.directWriteEnd
  · exact h.captureEnd
  · exact h.releaseEnd
  · exact h.detachedEnd
  · exact h.burstEnd
  · exact h.anchorEnd
  · exact h.restoreReadEnd
  · exact h.restoreWriteEnd
  · exact h.recoveryReadEnd
  · exact h.recoveryWriteEnd
  · exact h.burstCheck
  · exact .ite h.formatCopyA h.anchorIdle
  · exact h
  · exact h

/-! ## Expiries -/

theorem Orderly.idleExpiry (h : Orderly a b) {cfg : Image} {k : CtxId} : Orderly a (idleExpiry cfg k b) := by
  unfold Machine.idleExpiry
  dsimp only
  split
  · exact .ite h.reachTime.modCtx.beginCommit h
  · exact h

theorem Orderly.groupExpiry (h : Orderly a b) {cfg : Image} : Orderly a (groupExpiry cfg b) := by
  unfold Machine.groupExpiry
  split
  · exact h.reachTime.modJournal.burstCheck
  · exact h

theorem Orderly.conflictExpiry (h : Orderly a b) {i : StreamId} : Orderly a (conflictExpiry i b) := by
  unfold Machine.conflictExpiry
  dsimp only
  split
  · exact h.reachTime.refuseWrite
  · exact h

theorem Orderly.captureExpiry (h : Orderly a b) {i : StreamId} : Orderly a (captureExpiry i b) := by
  unfold Machine.captureExpiry
  dsimp only
  split
  · exact h.reachTime.refuseWrite
  · exact h

/-! ## FORMAT and APPLY -/

theorem reown_slot (f : Owner → Owner) (b : Blocks) (k : SlotNo) :
    (reown f b).mem.slots[k] = (b.mem.slots[k]).map fun o => { o with owner := f o.owner } := by
  unfold reown
  rw [Blocks.modMem_mem, Fin.getElem_fin, Vector.getElem_ofFn]
  cases b.mem.slots[k] <;> rfl

/-- Operations that change their owners, before the notice. -/
theorem Orderly.byOwners (h : Orderly a b) (hn : a.journal.notice = false) {f : Owner → Owner}
    (hslot : ∀ k : SlotNo, c.mem.slots[k] = (b.mem.slots[k]).map fun o => { o with owner := f o.owner })
    (hwaiting : c.mem.waiting = b.mem.waiting) (hjournal : c.journal = b.journal) (hheld : c.held = b.held)
    (hreq : c.req = b.req) : Orderly a c := by
  have hstream : c.stream = b.stream := by funext k; simp only [Blocks.stream, hreq]
  refine ⟨by rw [hjournal]; exact h.notice, by rw [hstream]; exact h.records, by rw [hheld]; exact h.room,
    fun hl => ?_, fun hl => ?_, fun hn' => ?_⟩
  · have hl' := h.safe hl
    rw [safeLaw_iff] at hl' ⊢
    rw [hjournal, hwaiting]
    refine ⟨hl'.1, fun hs => ?_⟩
    have := (hl'.2 hs).1
    rw [h.notice, hn] at this
    cases this
  · have hl' := h.write hl
    rw [writeLaw_iff, writeLines_nodup_iff] at hl' ⊢
    rw [hwaiting]
    refine ⟨fun j k o o' l hj hk ho ho' => ?_, hl'.2⟩
    rw [hslot, Option.map_eq_some_iff] at hj hk
    obtain ⟨x, hx, rfl⟩ := hj
    obtain ⟨y, hy, rfl⟩ := hk
    exact hl'.1 j k x y l hx hy ho ho'
  · rw [hn] at hn'; cases hn'

theorem Orderly.reown (h : Orderly a b) (hn : a.journal.notice = false) {f : Owner → Owner} :
    Orderly a (reown f b) := by
  refine h.byOwners hn (reown_slot f b) ?_ ?_ ?_ ?_
  · simp only [Machine.reown, Blocks.modMem_mem]
  · simp only [Machine.reown, Blocks.modMem_journal]
  · simp only [Machine.reown, Blocks.modMem_held]
  · simp only [Machine.reown, Blocks.modMem_req]

theorem Orderly.format (h : Orderly a b) (hn : a.journal.notice = false) {cfg : Image} : Orderly a (format cfg b) := by
  have hends : ∀ {b}, Orderly a (Machine.removeEntries (fun _ => true) b) →
      Orderly a (endEpochs (Machine.removeEntries (fun _ => true) b)) := fun h => h.aside rfl le_rfl rfl rfl id
  have hdetach : ∀ {b}, Orderly a b → Orderly a (detachAll b) := fun h => h.aside rfl (Nat.zero_le _) rfl rfl id
  unfold Machine.format
  dsimp only
  have hempty := (hends ((hdetach ((h.withdraw (p := fun r => r.owner.ofJournal)).discardHeld
    (p := fun h => decide (h.state ≠ HeldState.issued)) (reason := some .contextFaulted))).reown hn
    (f := ownerAtFormat)).removeEntries).modJournal (f := fun j => j.formatted (anchorOutstanding b))
    rfl (by simp [JournalWriter.formatted])
  exact .ite hempty.wakeAll hempty.wakeAll.formatCopyA

theorem Orderly.applyEffect (h : Orderly a b) {old new : Image} : Orderly a (applyEffect old new b) := by
  have hgeometry : Orderly a (regeometry new b) := .ite (h.modJournal (hs := by simp)).wakeAll h
  exact (Orderly.ite hgeometry h).evalPause.anchorCheck.finishEvent

end Sys2Proof.Order


/-! SUPPORT. Every command goes on in order from the state it finds, from an arrival, from the notice or from a reset;
the laws of the streams, of SAFE and of the LINE_WRITEs follow. -/

namespace Sys2Proof.Order

open Sys2Proof.Machine Sys2Proof.Safety Sys2Proof.Laws Sys2Proof.RestoreReads

/-! ## Management commands -/

/-- A state whose blocks go on in order from those of another. -/
def After (s t : State) : Prop := Orderly s.blocks t.blocks

theorem After.refl (s : State) : After s s := Orderly.refl _

theorem After.respond {s t : State} (h : After s t) {seq : Byte} {st : MgmtStatus} {p : Payload} :
    After s (respond seq st p t) := h

theorem After.withArgs {α : Type} {s : State} {p : Parsed α} {seq : Byte} {f : α → State} (h : ∀ x, After s (f x)) :
    After s (withArgs p seq s f) := by
  cases p with
  | good x => exact h x
  | bad n => exact (After.refl s).respond

theorem After.untilNotice {s t : State} {seq : Byte} (h : s.blocks.journal.notice = false → After s t) :
    After s (untilNotice seq s t) := by
  unfold Machine.untilNotice
  split
  · exact (After.refl s).respond
  · rename_i hn
    exact h (by simpa using hn)

theorem After.ite {s t u : State} {p : Prop} [Decidable p] (ht : After s t) (hu : After s u) :
    After s (if p then t else u) := by
  split
  · exact ht
  · exact hu

theorem startWork_blocks (seq : Byte) (st : MgmtStatus) (s : State) (f : Blocks → Blocks) :
    (startWork seq st s f).blocks = finishEvent s.mgmt.active (f s.blocks) := by
  simp only [startWork, respond]

theorem After.startWork {s : State} {seq : Byte} {st : MgmtStatus} {f : Blocks → Blocks}
    (h : Orderly s.blocks (f s.blocks)) : After s (startWork seq st s f) := by
  unfold After
  rw [startWork_blocks]
  exact h.finishEvent

theorem After.events {s : State} {f : EventUnit → EventUnit} : After s { s with blocks := s.blocks.modEvents f } :=
  (Orderly.refl _).modEvents

theorem after_commit (seq : Byte) (args : List Byte) (s : State) : After s (takeCommit seq args s) := by
  refine .withArgs fun k => .untilNotice fun _ => ?_
  unfold commitContext
  split
  · exact (After.refl s).respond
  · exact .startWork (Orderly.refl _).modCtx.beginCommit
  · exact .startWork (Orderly.refl _).modCtx
  · exact .startWork (Orderly.refl _).modCtx
  · exact (After.refl s).respond
  · exact (After.refl s).respond

theorem after_abort (seq : Byte) (args : List Byte) (s : State) : After s (takeAbort seq args s) := by
  refine .withArgs fun k => .untilNotice fun _ => .ite (After.refl s).respond ?_
  unfold abortContext
  split
  · exact (After.refl s).respond
  · exact (After.refl s).respond
  · exact (After.refl s).respond
  · exact .startWork (Orderly.refl _).enterRollback
  · exact .startWork (Orderly.refl _).enterRollback
  · exact .startWork (Orderly.refl _).enterRollback

theorem after_apply (seq : Byte) (args : List Byte) (s : State) : After s (takeApply seq args s) := by
  refine .withArgs fun _ => .untilNotice fun _ => .ite (After.refl s).respond ?_
  split
  · exact (After.refl s).respond
  · refine After.respond ?_
    unfold applied
    split
    · exact .refl s
    · unfold After
      dsimp only
      exact (Orderly.refl _).applyEffect

theorem after_clearFault (seq : Byte) (args : List Byte) (s : State) : After s (takeClearFault seq args s) :=
  .withArgs fun _ => .untilNotice fun _ =>
    .ite (.startWork (Orderly.refl _).modCtx.startIdleTimer.wakeContext) (After.refl s).respond

/-- The blocks a command's event goes on from in order: those it finds, those with its request, those that have taken
the notice, or those of a reset. -/
inductive StartsFrom (c : Instr) (s : State) : Blocks → Prop
  | found : StartsFrom c s s.blocks
  | arrival {i : StreamId} {q : Request} : arrivalOf c = some (i, q) → StartsFrom c s (arrive i q s.blocks)
  | pfail {l : Bool} : c = .powerFailNotice l → StartsFrom c s (lookAtPfail l s.blocks)
  | warm (cfg : Image) (l : Bool) : (isReset c = true ∨ c.wf = false) → StartsFrom c s (lookAtPfail l
      (startRecovery cfg (s.blocks.resetTo s.blocks.mem.warmReset s.blocks.events.mask)))
  | cold (cfg : Image) (l p : Bool) (f : FreeChoices) : isReset c = true → StartsFrom c s (lookAtPfail l
      (startRecovery cfg ({ s.blocks with free := f }.resetTo (s.blocks.mem.coldReset p) 0)))

theorem warm_starts {c : Instr} {seq : Byte} {args : List Byte} {s : State} (hc : isReset c = true ∨ c.wf = false) :
    ∃ b, StartsFrom c s b ∧ Orderly b (takeWarmReset seq args s).blocks := by
  unfold takeWarmReset
  cases parseNone args with
  | good x =>
    refine ⟨_, .warm s.mgmt.active s.pins.pfail hc, ?_⟩
    unfold withArgs respond Blocks.warmReset leaveReset
    dsimp only
    exact (Orderly.refl _).finishEvent
  | bad n => exact ⟨_, .found, .refl _⟩

theorem command_starts {c : Instr} (hc : isReset c = true ∨ c.wf = false) (code : CommandCode) (seq : Byte)
    (args : List Byte) (s : State) : ∃ b, StartsFrom c s b ∧ Orderly b (takeCommand code seq args s).blocks := by
  have hreport {p : Payload} : After s (respond seq .ok p s) := (After.refl s).respond
  cases code with
  | warmReset => exact warm_starts hc
  | identify => exact ⟨_, .found, After.withArgs fun _ => hreport⟩
  | readStatus => exact ⟨_, .found, After.withArgs fun _ => hreport⟩
  | readContext => exact ⟨_, .found, After.withArgs fun _ => hreport⟩
  | readEvents => exact ⟨_, .found, After.withArgs fun _ => hreport⟩
  | readConfig => exact ⟨_, .found, After.withArgs fun _ => .untilNotice fun _ => hreport⟩
  | ackEvents => exact ⟨_, .found, After.withArgs fun _ => .untilNotice fun _ => After.events.respond⟩
  | setEventMask => exact ⟨_, .found, After.withArgs fun _ => .untilNotice fun _ => After.events.respond⟩
  | writeConfig => exact ⟨_, .found, After.withArgs fun _ => .untilNotice fun _ => .refl s⟩
  | apply => exact ⟨_, .found, after_apply seq args s⟩
  | load => exact ⟨_, .found, After.withArgs fun _ => .untilNotice fun _ => .ite (.refl s) (.refl s)⟩
  | store => exact ⟨_, .found, After.withArgs fun _ => .untilNotice fun _ => .ite (.refl s) (.refl s)⟩
  | commit => exact ⟨_, .found, after_commit seq args s⟩
  | abort => exact ⟨_, .found, after_abort seq args s⟩
  | clearFault => exact ⟨_, .found, after_clearFault seq args s⟩
  | forceRetire => exact ⟨_, .found, After.withArgs fun _ => .untilNotice fun _ =>
      .ite (.startWork (Orderly.refl _).enterRollback) (.refl s)⟩
  | format => exact ⟨_, .found, After.withArgs fun _ => .untilNotice fun hn =>
      .ite (.refl s) (.ite (.refl s) (.startWork ((Orderly.refl _).format hn)))⟩

/-! ## Every command -/

theorem event_blocks (s : State) (f : Blocks → Blocks) : (s.event f).blocks =
    if s.pins.resetLow then s.blocks else finishEvent s.mgmt.active (f s.blocks) := by
  rw [State.event, apply_ite State.blocks]

theorem event_starts {c : Instr} {s : State} {f : Blocks → Blocks} {b : Blocks} (hb : StartsFrom c s b)
    (h : Orderly b (f s.blocks)) : ∃ b, StartsFrom c s b ∧ Orderly b (s.event f).blocks := by
  rw [event_blocks]
  split
  · exact ⟨_, .found, .refl _⟩
  · exact ⟨b, hb, h.finishEvent⟩

theorem managed_starts {c : Instr} {s t : State} (h : ∃ b, StartsFrom c s b ∧ Orderly b t.blocks) :
    ∃ b, StartsFrom c s b ∧ Orderly b (s.managed t).blocks := by
  unfold State.managed
  split
  · exact ⟨_, .found, .refl _⟩
  · exact h

theorem complete_starts (c : Instr) (id : OpId) (k : Completion) (s : State) :
    ∃ b, StartsFrom c s b ∧ Orderly b (s.complete id k).blocks := by
  unfold State.complete
  split
  · exact event_starts .found (Orderly.refl _).freeSlot.handBack
  · exact ⟨_, .found, .refl _⟩

theorem timeout_starts (c : Instr) (k : SlotNo) (s : State) :
    ∃ b, StartsFrom c s b ∧ Orderly b (s.timeout k).blocks := by
  unfold State.timeout
  split
  · exact event_starts .found (Orderly.refl _).reachTime.freeSlot.handBack
  · exact ⟨_, .found, .refl _⟩

theorem storeEnd_starts (c : Instr) (how : ProgrammingEnd) (s : State) :
    ∃ b, StartsFrom c s b ∧ Orderly b (storeEnd how s).blocks := by
  refine ⟨_, .found, ?_⟩
  unfold storeEnd
  split
  · unfold programmingTime
    split
    · exact (Orderly.refl _).reachTime.raise
    · exact (Orderly.refl _).raise
  · exact .refl _

theorem frame_starts (f : List Byte) (s : State) :
    ∃ b, StartsFrom (.commandFrameRejected f) s b ∧ Orderly b (takeFrame f s).blocks := by
  unfold takeFrame
  split
  · exact ⟨_, .found, (After.refl s).respond⟩
  · exact ⟨_, .found, (After.refl s).respond⟩
  · rename_i hjudge
    exact command_starts (.inr (by simp [Instr.wf, frameRejected, hjudge])) _ _ _ s

theorem coldReset_starts (p : Bool) (s : State) :
    ∃ b, StartsFrom (.coldReset p) s b ∧ Orderly b (s.coldReset p).blocks := by
  have hdraw : ∃ f, (drawAbandon s.mgmt s.blocks).2 = { s.blocks with free := f } := by
    unfold drawAbandon
    split
    · exact ⟨_, rfl⟩
    · exact ⟨_, rfl⟩
  obtain ⟨f, hf⟩ := hdraw
  refine ⟨_, .cold (s.coldReset p).mgmt.active s.pins.pfail p f rfl, ?_⟩
  unfold State.coldReset Blocks.coldReset leaveReset
  dsimp only
  rw [hf]
  exact (Orderly.refl _).finishEvent

theorem pfail_starts (l : Bool) (s : State) :
    ∃ b, StartsFrom (.powerFailNotice l) s b ∧ Orderly b (s.pfailLevel l).blocks := by
  unfold State.pfailLevel
  dsimp only
  rw [event_blocks]
  split
  · exact ⟨_, .found, .refl _⟩
  · exact ⟨_, .pfail rfl, (Orderly.refl _).finishEvent⟩

/-- Every command's event goes on in order from one of its starts. -/
theorem exec_starts {c : Instr} {s t : State} (h : exec c s = .next t) : ∃ b, StartsFrom c s b ∧ Orderly b t.blocks := by
  cases c <;> obtain rfl := Host.Outcome.next.inj h
  case read => exact event_starts (.arrival rfl) (.refl _)
  case write => exact event_starts (.arrival rfl) (.refl _)
  case barrier => exact event_starts (.arrival rfl) (.refl _)
  case upstreamCommit => exact event_starts (.arrival rfl) (.refl _)
  case identify => exact managed_starts ⟨_, .found, After.withArgs fun _ => (After.refl s).respond⟩
  case readStatus => exact managed_starts ⟨_, .found, After.withArgs fun _ => (After.refl s).respond⟩
  case readContext => exact managed_starts ⟨_, .found, After.withArgs fun _ => (After.refl s).respond⟩
  case readEvents => exact managed_starts ⟨_, .found, After.withArgs fun _ => (After.refl s).respond⟩
  case ackEvents => exact managed_starts ⟨_, .found, After.withArgs fun _ => .untilNotice fun _ => After.events.respond⟩
  case setEventMask =>
    exact managed_starts ⟨_, .found, After.withArgs fun _ => .untilNotice fun _ => After.events.respond⟩
  case readConfig =>
    exact managed_starts ⟨_, .found, After.withArgs fun _ => .untilNotice fun _ => (After.refl s).respond⟩
  case writeConfig => exact managed_starts ⟨_, .found, After.withArgs fun _ => .untilNotice fun _ => .refl s⟩
  case apply => exact managed_starts ⟨_, .found, after_apply _ _ s⟩
  case load => exact managed_starts ⟨_, .found, After.withArgs fun _ => .untilNotice fun _ => .ite (.refl s) (.refl s)⟩
  case store => exact managed_starts ⟨_, .found, After.withArgs fun _ => .untilNotice fun _ => .ite (.refl s) (.refl s)⟩
  case storeProgrammingEnd how => exact managed_starts (storeEnd_starts _ how s)
  case managementCommit => exact managed_starts ⟨_, .found, after_commit _ _ s⟩
  case abort => exact managed_starts ⟨_, .found, after_abort _ _ s⟩
  case clearFault => exact managed_starts ⟨_, .found, after_clearFault _ _ s⟩
  case forceRetire => exact managed_starts ⟨_, .found, After.withArgs fun _ => .untilNotice fun _ =>
      .ite (.startWork (Orderly.refl _).enterRollback) (.refl s)⟩
  case format => exact managed_starts ⟨_, .found, After.withArgs fun _ => .untilNotice fun hn =>
      .ite (.refl s) (.ite (.refl s) (.startWork ((Orderly.refl _).format hn)))⟩
  case warmReset => exact managed_starts (warm_starts (.inl rfl))
  case commandFrameRejected f => exact managed_starts (frame_starts f s)
  case resetNLow => exact ⟨_, .found, .refl _⟩
  case coldReset p => exact coldReset_starts p s
  case powerFailNotice l => exact pfail_starts l s
  case idleTimerExpiry => exact event_starts .found (Orderly.refl _).idleExpiry
  case groupTimerExpiry => exact event_starts .found (Orderly.refl _).groupExpiry
  case conflictWaitExpiry => exact event_starts .found (Orderly.refl _).conflictExpiry
  case captureStallExpiry => exact event_starts .found (Orderly.refl _).captureExpiry
  case downstreamTimeout k => exact timeout_starts _ k s
  all_goals exact complete_starts _ _ _ s

end Sys2Proof.Order


/-! SUPPORT. The notice, arrivals and resets, and with them the laws that every step keeps of the streams, of SAFE and of
the LINE_WRITEs; requests answered in order; nothing issued after the notice. -/

namespace Sys2Proof.Order

open Sys2Proof.Machine Sys2Proof.Safety Sys2Proof.Laws Sys2Proof.RestoreReads

/-! ## The notice (R150) -/

theorem Orderly.settleWaiting {a b : Blocks} (h : Orderly a b) : Orderly a (settleWaiting b) := by
  refine h.foldl (fun r h => ?_) _
  split
  · exact h.settleWrites
  · exact h

/-- The notice is taken in order, and then the waiting requests go. -/
theorem takeNotice_from (b : Blocks) : ∃ x, Orderly b x ∧ (takeNotice b).req = x.req
    ∧ (takeNotice b).held.entries = x.held.entries ∧ (takeNotice b).mem.slots = x.mem.slots
    ∧ (takeNotice b).mem.waiting = [] ∧ (takeNotice b).journal.state = x.journal.state
    ∧ (takeNotice b).journal.notice = true :=
  ⟨_, ((((Orderly.refl b).mapStreams (f := fun _ r => r.powerFail) fun _ => .powerFail _).discardHeld
    (p := fun h => decide (h.state ≠ .issued)) (reason := none)).settleWaiting).stopWriting, rfl, rfl, rfl, rfl, rfl, rfl⟩

theorem takeNotice_records (b : Blocks) (i : StreamId) : RecordGoes (b.stream i) ((takeNotice b).stream i) := by
  obtain ⟨x, hx, hreq, _⟩ := takeNotice_from b
  have hstream : (takeNotice b).stream i = x.stream i := by simp only [Blocks.stream, hreq]
  rw [hstream]
  exact hx.records i

theorem quiet_congr {m n : MemoryPort} (h : m.slots = n.slots) : m.quiet = n.quiet := by simp only [MemoryPort.quiet, h]

theorem ops_congr {m n : MemoryPort} (h : m.slots = n.slots) : m.ops = n.ops := by simp only [MemoryPort.ops, h]

theorem safeLaw_takeNotice {b : Blocks} (h : safeLaw b = true) : safeLaw (takeNotice b) = true := by
  obtain ⟨x, hx, _, _, hslots, hwaiting, hstate, hnotice⟩ := takeNotice_from b
  rw [safeLaw_iff, hwaiting, hstate, hnotice, quiet_congr hslots]
  exact ⟨fun _ => rfl, fun hs => ⟨rfl, (((safeLaw_iff x).1 (hx.safe h)).2 hs).2⟩⟩

theorem writeLaw_takeNotice {b : Blocks} (h : writeLaw b.mem = true) : writeLaw (takeNotice b).mem = true := by
  obtain ⟨x, hx, _, _, hslots, hwaiting, _⟩ := takeNotice_from b
  rw [writeLaw_iff, hwaiting, ops_congr hslots]
  exact ⟨((writeLaw_iff _).1 (hx.write h)).1, by simp⟩

/-- A property that the notice keeps is kept when PFAIL is looked at. -/
theorem lookAtPfail_keeps {p : Blocks → Prop} {b : Blocks} (h : p b) (hn : p (takeNotice b)) (l : Bool) :
    p (lookAtPfail l b) := by
  unfold lookAtPfail
  split
  · exact hn
  · exact h

/-! ## The queue law (R87, R137, R138) -/

theorem queueLaw_iff (b : Blocks) : queueLaw b = true ↔
    (∀ i, streamLaw (b.stream i) = true) ∧ b.held.entries.length ≤ Config.heldCapacity := by
  simp [queueLaw, List.all_eq_true]

theorem Orderly.queueLaw {a b : Blocks} (h : Orderly a b) (hl : queueLaw a = true) : queueLaw b = true := by
  rw [queueLaw_iff] at hl ⊢
  exact ⟨fun i => (h.records i).law (hl.1 i), h.room hl.2⟩

theorem queueLaw_takeNotice {b : Blocks} (h : queueLaw b = true) : queueLaw (takeNotice b) = true := by
  obtain ⟨x, hx, _, hentries, _⟩ := takeNotice_from b
  rw [queueLaw_iff] at h ⊢
  exact ⟨fun i => (takeNotice_records b i).law (h.1 i), by rw [hentries]; exact hx.room h.2⟩

theorem streamLaw_enqueue {r : StreamRec} (h : streamLaw r = true) (hroom : ¬Config.queueDepth ≤ r.queue.length)
    (q : Request) : streamLaw (r.enqueue q) = true := by
  rw [streamLaw_iff] at h ⊢
  refine ⟨by simpa [StreamRec.enqueue] using hroom, iff_of_false ?_ (by simp [StreamRec.enqueue])⟩
  cases hq : r.queue with
  | nil => simp [StreamRec.enqueue, hq]
  | cons x l =>
    have hphase := h.2.not.2 (by simp [hq])
    simpa [StreamRec.enqueue, hq] using hphase

theorem queueLaw_arrive {b : Blocks} (h : queueLaw b = true) (i : StreamId) (q : Request) :
    queueLaw (arrive i q b) = true := by
  have hset {f : StreamRec → StreamRec} (hf : streamLaw (f (b.stream i)) = true) :
      queueLaw (b.modStream i f) = true := by
    rw [queueLaw_iff] at h ⊢
    refine ⟨fun k => ?_, h.2⟩
    rw [Blocks.modStream_stream]
    split
    · exact hf
    · exact h.1 k
  have hi := ((queueLaw_iff b).1 h).1 i
  unfold arrive
  split
  · exact hset hi
  split
  · exact h
  · exact hset (streamLaw_enqueue hi ‹_› q)

theorem queueLaw_resetTo (b : Blocks) (m : MemoryPort) (mask : BitVec 18) : queueLaw (b.resetTo m mask) = true := by
  rw [queueLaw_iff]
  refine ⟨fun i => ?_, Nat.zero_le _⟩
  have hstream : (b.resetTo m mask).stream i = (b.stream i).restarted := by
    simp [Blocks.resetTo, Blocks.stream]
  rw [hstream]
  rfl

/-- A law that order keeps, and each start of a command meets, is kept by every step. -/
theorem step_keeps {p : Blocks → Prop} (hclock : ∀ {b n}, p b → p { b with clock := n })
    (horder : ∀ {a b}, Orderly a b → p a → p b) (hnotice : ∀ {b}, p b → p (takeNotice b))
    (harrive : ∀ {b} i q, p b → p (arrive i q b)) (hwarm : ∀ {b}, p b → p (b.resetTo b.mem.warmReset b.events.mask))
    (hcold : ∀ (b : Blocks) pw, p (b.resetTo (b.mem.coldReset pw) 0)) {s t : State} (h : p s.blocks)
    (hstep : step s = .next t) : p t.blocks := by
  unfold step at hstep
  split at hstep
  · obtain rfl := Host.Outcome.next.inj hstep
    exact hclock h
  · obtain ⟨b, hb, hgo⟩ := exec_starts hstep
    refine horder hgo ?_
    have hpfail {b} (hp : p b) (l : Bool) : p (lookAtPfail l b) := lookAtPfail_keeps hp (hnotice hp) l
    cases hb with
    | found => exact h
    | arrival _ => exact harrive _ _ h
    | pfail _ => exact hpfail h _
    | warm cfg l _ => exact hpfail (horder (Orderly.refl _).startRecovery (hwarm h)) l
    | cold cfg l pw f _ => exact hpfail (horder (Orderly.refl _).startRecovery (hcold _ pw)) l

/-- Settles O6: every part of an event keeps each stream record's law and the room of the Held Write Queue. -/
theorem stepKeepsQueueLaw : Obligations.StepKeepsQueueLaw := by
  intro s t h hstep
  exact step_keeps (p := fun b => queueLaw b = true) id Orderly.queueLaw queueLaw_takeNotice
    (fun i q h => queueLaw_arrive h i q) (fun _ => queueLaw_resetTo _ _ _) (fun _ _ => queueLaw_resetTo _ _ _) h hstep

/-! ## The law of SAFE (R135, R151) -/

theorem safeLaw_congr {a b : Blocks} (hmem : b.mem = a.mem) (hj : b.journal = a.journal) :
    safeLaw b = safeLaw a := by simp only [safeLaw, hmem, hj]

theorem safeLaw_arrive {b : Blocks} (h : safeLaw b = true) (i : StreamId) (q : Request) :
    safeLaw (arrive i q b) = true := by
  unfold arrive
  split
  · exact h
  split
  · exact h
  · exact h

theorem safeLaw_resetTo (b : Blocks) (m : MemoryPort) (mask : BitVec 18) : safeLaw (b.resetTo m mask) = true := by
  rw [safeLaw_iff]
  exact ⟨nofun, nofun⟩

/-- Settles O7: after the notice nothing is handed over or granted, and SAFE is entered only with every slot free. -/
theorem stepKeepsSafeLaw : Obligations.StepKeepsSafeLaw := by
  intro s t h hstep
  exact step_keeps (p := fun b => safeLaw b = true) id Orderly.safe safeLaw_takeNotice
    (fun i q h => safeLaw_arrive h i q) (fun _ => safeLaw_resetTo _ _ _) (fun _ _ => safeLaw_resetTo _ _ _) h hstep

/-! ## The law of the LINE_WRITEs (R91, R131) -/

theorem arrive_mem (i : StreamId) (q : Request) (b : Blocks) : (arrive i q b).mem = b.mem := by
  unfold arrive
  split
  · rfl
  split
  · rfl
  · rfl

theorem warmReset_slot (m : MemoryPort) (k : SlotNo) :
    m.warmReset.slots[k] = (m.slots[k]).map fun o => { o with owner := .orphan } := by
  unfold MemoryPort.warmReset
  rw [Fin.getElem_fin, Vector.getElem_ofFn]
  cases m.slots[k] <;> rfl

theorem coldReset_slot (m : MemoryPort) (p : Bool) (k : SlotNo) : (m.coldReset p).slots[k] = none := by
  simp [MemoryPort.coldReset]

theorem writeLaw_warmReset {m : MemoryPort} (h : writeLaw m = true) : writeLaw m.warmReset = true := by
  rw [writeLaw_iff, writeLines_nodup_iff] at h ⊢
  refine ⟨fun j k o o' l hj hk ho ho' => ?_, by simp [MemoryPort.warmReset]⟩
  rw [warmReset_slot, Option.map_eq_some_iff] at hj hk
  obtain ⟨x, hx, rfl⟩ := hj
  obtain ⟨y, hy, rfl⟩ := hk
  exact h.1 j k x y l hx hy ho ho'

theorem writeLaw_coldReset (m : MemoryPort) (p : Bool) : writeLaw (m.coldReset p) = true := by
  rw [writeLaw_iff, writeLines_nodup_iff]
  refine ⟨fun j k o o' l hj => ?_, by simp [MemoryPort.coldReset]⟩
  rw [coldReset_slot] at hj
  cases hj

/-- Settles O8: a LINE_WRITE is granted only while none of its line is outstanding, and a release carries the line it was
asked for. -/
theorem stepKeepsWriteLaw : Obligations.StepKeepsWriteLaw := by
  intro s t h hstep
  exact step_keeps (p := fun b => writeLaw b.mem = true) id Orderly.write writeLaw_takeNotice
    (fun i q h => by rw [arrive_mem]; exact h) writeLaw_warmReset (fun b pw => writeLaw_coldReset b.mem pw) h hstep

/-! ## Answers in order (R139, R140) -/

/-- Every request row is an arrival. -/
theorem exec_arrival {c : Instr} {i : StreamId} {q : Request} (h : arrivalOf c = some (i, q)) (s : State) :
    exec c s = .next (s.event (arrive i q)) := by
  cases c <;> cases h <;> rfl

/-- The queue a stream answers from, when a request arrives on stream k before the notice. -/
def queueAfter (k i : StreamId) (q : Request) (r : StreamRec) : List Request :=
  if k = i ∧ r.queue.length < Config.queueDepth then r.queue ++ [q] else r.queue

theorem arrive_queue {b : Blocks} (hn : b.journal.notice = false) (k i : StreamId) (q : Request) :
    ((arrive k q b).stream i).queue = queueAfter k i q (b.stream i)
      ∧ ((arrive k q b).stream i).sent = (b.stream i).sent := by
  unfold arrive queueAfter
  rw [if_neg (by simp [hn])]
  by_cases hk : k = i
  · subst hk
    by_cases hfull : Config.queueDepth ≤ (b.stream k).queue.length
    · rw [if_pos hfull, if_neg (by omega)]
      exact ⟨rfl, rfl⟩
    · rw [if_neg hfull, if_pos ⟨rfl, by omega⟩, Blocks.modStream_stream_same]
      exact ⟨rfl, rfl⟩
  · rw [if_neg (show ¬(k = i ∧ _) from fun h => hk h.1)]
    split
    · exact ⟨rfl, rfl⟩
    · rw [Blocks.modStream_stream, if_neg (Ne.symm hk)]
      exact ⟨rfl, rfl⟩

/-- An arrival is answered with the requests before it, in order. -/
theorem arrival_inOrder {s : State} (hup : s.pins.resetLow = false) (hn : s.blocks.journal.notice = false)
    (k i : StreamId) (q : Request) : answeredInOrder (queueAfter k i q (s.blocks.stream i)) (s.blocks.stream i).sent
      ((s.event (arrive k q)).blocks.stream i) := by
  obtain ⟨hqueue, hsent⟩ := arrive_queue hn k i q
  rw [← hqueue, ← hsent, event_blocks, if_neg (by simp [hup])]
  exact ((Orderly.refl _).finishEvent.records i).answers

/-- A command that brings no request, and resets nothing, only answers the requests that are there. -/
theorem noArrival_inOrder {c : Instr} {s t : State} (hc : arrivalOf c = none) (hwf : c.wf = true)
    (hreset : isReset c = false) (h : exec c s = .next t) (i : StreamId) :
    RecordGoes (s.blocks.stream i) (t.blocks.stream i) := by
  obtain ⟨b, hb, hgo⟩ := exec_starts h
  refine RecordGoes.trans ?_ (hgo.records i)
  cases hb with
  | found => exact .refl _
  | arrival ha => rw [hc] at ha; cases ha
  | pfail _ =>
    exact lookAtPfail_keeps (p := fun b => RecordGoes (s.blocks.stream i) (b.stream i)) (.refl _)
      (takeNotice_records _ i) _
  | warm cfg l hr => rw [hwf, hreset] at hr; simp at hr
  | cold cfg l p f hr => rw [hreset] at hr; cases hr

/-- Settles O10: from its start a command's event only answers oldest requests, and an arrival with room joins the end of
its queue. -/
theorem requestsAreAnsweredInOrder : Obligations.RequestsAreAnsweredInOrder := by
  intro c s t i hwf hreset hup hn hexec
  cases harrival : arrivalOf c with
  | none => exact (noArrival_inOrder harrival hwf hreset hexec i).answers
  | some p =>
    obtain ⟨k, q⟩ := p
    rw [exec_arrival harrival] at hexec
    obtain rfl := Host.Outcome.next.inj hexec
    exact arrival_inOrder hup hn k i q

/-! ## After the notice (R135, R150) -/

theorem arrive_noticed {b : Blocks} (hn : b.journal.notice = true) (i : StreamId) (q : Request) :
    (arrive i q b).journal = b.journal := by
  rw [arrive, if_pos hn]
  rfl

/-- Settles O12: no start but a reset issues an operation, and after the notice the rest of an event grants none. -/
theorem nothingIsIssuedAfterTheNotice : Obligations.NothingIsIssuedAfterTheNotice := by
  intro c s t hwf hreset hn hexec
  obtain ⟨b, hb, hgo⟩ := exec_starts hexec
  have hstart : b.journal.notice = true ∧ b.mem.slots = s.blocks.mem.slots := by
    cases hb with
    | found => exact ⟨hn, rfl⟩
    | arrival _ => exact ⟨by rw [arrive_noticed hn]; exact hn, by rw [arrive_mem]⟩
    | pfail _ =>
      rw [lookAtPfail, if_neg (by simp [hn])]
      exact ⟨hn, rfl⟩
    | warm cfg l hr => rw [hwf, hreset] at hr; simp at hr
    | cold cfg l p f hr => rw [hreset] at hr; cases hr
  obtain ⟨hbn, hslots⟩ := hstart
  refine ⟨hgo.notice.trans hbn, fun k o ho => ?_⟩
  rw [← hslots]
  exact hgo.slots hbn k o ho

end Sys2Proof.Order


/-! SUPPORT. The Management Port's images: which commands change them, and the law of the images that passed APPLY. -/

namespace Sys2Proof.Images

open Sys2Proof.Machine Sys2Proof.Safety Sys2Proof.Order

/-! ## What the law looks at -/

theorem configLaw_iff (m : Management) : configLaw m = true ↔ imageOk m.active = true
    ∧ (∀ k : Fin 2, m.banks[k].valid = true → imageOk m.banks[k].image = true)
    ∧ ∀ p, m.programming = some p → imageOk p.image = true := by
  have hbanks : (m.banks.toList.all fun k => !k.valid || imageOk k.image) = true ↔
      ∀ k : Fin 2, m.banks[k].valid = true → imageOk m.banks[k].image = true := by
    simp only [List.all_eq_true, Vector.mem_toList_iff, Bool.or_eq_true, Bool.not_eq_true']
    constructor
    · intro h k hv
      rcases h _ (Vector.getElem_mem k.2) with hk | hk
      · have hv' : m.banks[k.val].valid = true := hv
        rw [hk] at hv'
        cases hv'
      · exact hk
    · intro h x hx
      obtain ⟨j, hj, rfl⟩ := Vector.mem_iff_getElem.1 hx
      rw [← Bool.not_eq_true]
      exact or_iff_not_imp_left.2 fun hv => h ⟨j, hj⟩ (not_not.1 hv)
  rw [configLaw, Bool.and_eq_true, Bool.and_eq_true, hbanks, and_assoc]
  cases m.programming <;> simp

/-- The images under the law are those of another state. -/
def SameImages (m n : Management) : Prop := n.active = m.active ∧ n.banks = m.banks ∧ n.programming = m.programming

theorem SameImages.configLaw {m n : Management} (h : SameImages m n) (hl : configLaw m = true) : configLaw n = true := by
  obtain ⟨hactive, hbanks, hprogramming⟩ := h
  rw [configLaw_iff] at hl ⊢
  rw [hactive, hbanks, hprogramming]
  exact hl

theorem SameImages.refl (m : Management) : SameImages m m := ⟨rfl, rfl, rfl⟩

/-! ## The parts of a command -/

theorem law_withArgs {α : Type} {p : Parsed α} {seq : Byte} {s : State} {f : α → State}
    (hs : configLaw s.mgmt = true) (h : ∀ x, configLaw (f x).mgmt = true) :
    configLaw (withArgs p seq s f).mgmt = true := by
  cases p with
  | good x => exact h x
  | bad n => exact SameImages.configLaw ⟨rfl, rfl, rfl⟩ hs

theorem law_untilNotice {seq : Byte} {s t : State} (hs : configLaw s.mgmt = true) (ht : configLaw t.mgmt = true) :
    configLaw (untilNotice seq s t).mgmt = true := by
  unfold untilNotice
  split
  · exact SameImages.configLaw ⟨rfl, rfl, rfl⟩ hs
  · exact ht

theorem law_respond {seq : Byte} {st : MgmtStatus} {p : Payload} {s : State} (hs : configLaw s.mgmt = true) :
    configLaw (respond seq st p s).mgmt = true := SameImages.configLaw ⟨rfl, rfl, rfl⟩ hs

theorem law_startWork {seq : Byte} {st : MgmtStatus} {s : State} {f : Blocks → Blocks} (hs : configLaw s.mgmt = true) :
    configLaw (startWork seq st s f).mgmt = true := by
  unfold startWork
  exact law_respond hs

theorem law_ite {p : Prop} [Decidable p] {s t : State} (hs : configLaw s.mgmt = true) (ht : configLaw t.mgmt = true) :
    configLaw (if p then s else t).mgmt = true := by
  split
  · exact hs
  · exact ht

/-! ## The commands -/

/-- APPLY makes the staged image active only when no item of it fails (R168). -/
theorem law_apply (seq : Byte) (args : List Byte) {s : State} (hs : configLaw s.mgmt = true) :
    configLaw (takeApply seq args s).mgmt = true := by
  refine law_withArgs hs fun _ => law_untilNotice hs (law_ite (law_respond hs) ?_)
  split
  · exact law_respond hs
  · rename_i hpass
    refine law_respond ?_
    unfold applied
    split
    · exact hs
    · rw [configLaw_iff] at hs ⊢
      exact ⟨by simp [imageOk, hpass], hs.2⟩

theorem law_store (seq : Byte) (args : List Byte) {s : State} (hs : configLaw s.mgmt = true) :
    configLaw (takeStore seq args s).mgmt = true := by
  refine law_withArgs hs fun _ => law_untilNotice hs (law_ite (law_respond hs) (law_respond ?_))
  rw [configLaw_iff] at hs ⊢
  obtain ⟨hactive, hbanks, _⟩ := hs
  refine ⟨hactive, hbanks, fun p hp => ?_⟩
  rw [← Option.some.inj hp]
  exact hactive

theorem banks_set (v : Vector Bank 2) (j k : Fin 2) (x : Bank) : (v.set j.val x)[k] = if k = j then x else v[k] := by
  by_cases h : k = j
  · subst h; simp
  · have : j.val ≠ k.val := fun e => h (Fin.ext e.symm)
    simp [h, this]

/-- A bank left invalid keeps the law of the banks. -/
theorem banks_invalidated {v : Vector Bank 2} (h : ∀ k : Fin 2, v[k].valid = true → imageOk v[k].image = true)
    (j k : Fin 2) (hv : (v.set j.val { v[j] with valid := false })[k].valid = true) :
    imageOk (v.set j.val { v[j] with valid := false })[k].image = true := by
  rw [banks_set] at hv ⊢
  split at hv
  · cases hv
  · rename_i hk
    rw [if_neg hk]
    exact h k hv

/-- The end of a programming writes the image that was active at its start, or leaves the bank invalid (R171). -/
theorem law_storeEnd (how : ProgrammingEnd) {s : State} (hs : configLaw s.mgmt = true) :
    configLaw (storeEnd how s).mgmt = true := by
  unfold storeEnd
  split
  · rename_i p hp
    rw [configLaw_iff] at hs ⊢
    obtain ⟨hactive, hbanks, hprogramming⟩ := hs
    cases how with
    | verified =>
      refine ⟨hactive, fun k hv => ?_, nofun⟩
      show imageOk (s.mgmt.banks.set p.target.val ⟨p.image, p.generation, true⟩)[k].image = true
      change (s.mgmt.banks.set p.target.val ⟨p.image, p.generation, true⟩)[k].valid = true at hv
      rw [banks_set] at hv ⊢
      split
      · exact hprogramming p hp
      · rename_i hk
        rw [if_neg hk] at hv
        exact hbanks k hv
    | programmingFault => exact ⟨hactive, fun k hv => banks_invalidated hbanks p.target k hv, nofun⟩
    | readBackMismatch => exact ⟨hactive, fun k hv => banks_invalidated hbanks p.target k hv, nofun⟩
    | limitElapsed => exact ⟨hactive, fun k hv => banks_invalidated hbanks p.target k hv, nofun⟩
  · exact hs

/-- The current bank of a cold reset is a valid one (R171). -/
theorem judgeBanks_valid {banks : Vector Bank 2} {k : Fin 2} (h : judgeBanks banks = some k) : banks[k].valid = true := by
  unfold judgeBanks at h
  dsimp only at h
  split at h
  · cases h
  · cases h; assumption
  · cases h; assumption
  · split at h <;> cases h <;> assumption

theorem imageOk_defaults : imageOk Config.defaults = true := by decide

/-- A cold reset makes the image of a valid bank active, or the defaults (R174). -/
theorem law_coldReset {m : Management} (hm : configLaw m = true) (invalid : Bool) :
    configLaw (m.coldReset invalid) = true := by
  rw [configLaw_iff] at hm ⊢
  obtain ⟨_, hbanks, _⟩ := hm
  have hleft : ∀ k : Fin 2, (abandoned m invalid)[k].valid = true → imageOk (abandoned m invalid)[k].image = true := by
    intro k hv
    unfold abandoned at hv ⊢
    split
    · rename_i p hp
      rw [hp] at hv
      dsimp only at hv
      split
      · rename_i hi
        rw [if_pos hi] at hv
        exact banks_invalidated hbanks p.target k hv
      · rename_i hi
        rw [if_neg hi] at hv
        exact hbanks k hv
    · rename_i hp
      rw [hp] at hv
      exact hbanks k hv
  refine ⟨?_, hleft, nofun⟩
  have hactive : (m.coldReset invalid).active = match judgeBanks (abandoned m invalid) with
      | some k => (abandoned m invalid)[k].image
      | none => Config.defaults := rfl
  rw [hactive]
  split
  · rename_i k hk
    exact hleft k (judgeBanks_valid hk)
  · exact imageOk_defaults

theorem event_mgmt (s : State) (f : Blocks → Blocks) : (s.event f).mgmt = s.mgmt := by
  unfold State.event
  split <;> rfl

theorem complete_mgmt (s : State) (id : OpId) (k : Completion) : (s.complete id k).mgmt = s.mgmt := by
  unfold State.complete
  split
  · exact event_mgmt _ _
  · rfl

theorem timeout_mgmt (s : State) (k : SlotNo) : (s.timeout k).mgmt = s.mgmt := by
  unfold State.timeout
  split
  · exact event_mgmt _ _
  · rfl

theorem law_commit (seq : Byte) (args : List Byte) {s : State} (hs : configLaw s.mgmt = true) :
    configLaw (takeCommit seq args s).mgmt = true := by
  refine law_withArgs hs fun c => law_untilNotice hs ?_
  unfold commitContext
  split
  · exact law_respond hs
  · exact law_startWork hs
  · exact law_startWork hs
  · exact law_startWork hs
  · exact law_respond hs
  · exact law_respond hs

theorem law_abort (seq : Byte) (args : List Byte) {s : State} (hs : configLaw s.mgmt = true) :
    configLaw (takeAbort seq args s).mgmt = true := by
  refine law_withArgs hs fun c => law_untilNotice hs (law_ite (law_respond hs) ?_)
  unfold abortContext
  split
  · exact law_respond hs
  · exact law_respond hs
  · exact law_respond hs
  · exact law_startWork hs
  · exact law_startWork hs
  · exact law_startWork hs

theorem law_command (code : CommandCode) (seq : Byte) (args : List Byte) {s : State} (hs : configLaw s.mgmt = true) :
    configLaw (takeCommand code seq args s).mgmt = true := by
  have hstaged (img : Image) : configLaw { s.mgmt with staged := img } = true :=
    SameImages.configLaw ⟨rfl, rfl, rfl⟩ hs
  cases code with
  | identify => exact law_withArgs hs fun _ => law_respond hs
  | readStatus => exact law_withArgs hs fun _ => law_respond hs
  | readContext => exact law_withArgs hs fun _ => law_respond hs
  | readEvents => exact law_withArgs hs fun _ => law_respond hs
  | ackEvents => exact law_withArgs hs fun _ => law_untilNotice hs (law_respond hs)
  | setEventMask => exact law_withArgs hs fun _ => law_untilNotice hs (law_respond hs)
  | readConfig => exact law_withArgs hs fun _ => law_untilNotice hs (law_respond hs)
  | writeConfig => exact law_withArgs hs fun img => law_untilNotice hs (law_respond (hstaged img))
  | apply => exact law_apply seq args hs
  | load => exact law_withArgs hs fun _ => law_untilNotice hs (law_ite (law_respond hs) (law_respond (hstaged _)))
  | store => exact law_store seq args hs
  | commit => exact law_commit seq args hs
  | abort => exact law_abort seq args hs
  | clearFault => exact law_withArgs hs fun _ => law_untilNotice hs (law_ite (law_startWork hs) (law_respond hs))
  | forceRetire => exact law_withArgs hs fun _ => law_untilNotice hs (law_ite (law_startWork hs) (law_respond hs))
  | format =>
    exact law_withArgs hs fun _ => law_untilNotice hs
      (law_ite (law_respond hs) (law_ite (law_respond hs) (law_startWork hs)))
  | warmReset => exact law_withArgs hs fun _ => law_respond hs

theorem law_frame (f : List Byte) {s : State} (hs : configLaw s.mgmt = true) :
    configLaw (takeFrame f s).mgmt = true := by
  unfold takeFrame
  split
  · exact law_respond hs
  · exact law_respond hs
  · exact law_command _ _ _ hs

theorem law_managed {s t : State} (hs : configLaw s.mgmt = true) (ht : configLaw t.mgmt = true) :
    configLaw (s.managed t).mgmt = true := law_ite hs ht

theorem law_exec {c : Instr} {s t : State} (hs : configLaw s.mgmt = true) (h : exec c s = .next t) :
    configLaw t.mgmt = true := by
  have hevent (f : Blocks → Blocks) : configLaw (s.event f).mgmt = true := by rw [event_mgmt]; exact hs
  cases c <;> obtain rfl := Host.Outcome.next.inj h
  case read | write | barrier | upstreamCommit => exact hevent _
  case identify seq args => exact law_managed hs (law_command .identify seq args hs)
  case readStatus seq args => exact law_managed hs (law_command .readStatus seq args hs)
  case readContext seq args => exact law_managed hs (law_command .readContext seq args hs)
  case readEvents seq args => exact law_managed hs (law_command .readEvents seq args hs)
  case ackEvents seq args => exact law_managed hs (law_command .ackEvents seq args hs)
  case setEventMask seq args => exact law_managed hs (law_command .setEventMask seq args hs)
  case readConfig seq args => exact law_managed hs (law_command .readConfig seq args hs)
  case writeConfig seq args => exact law_managed hs (law_command .writeConfig seq args hs)
  case apply seq args => exact law_managed hs (law_command .apply seq args hs)
  case load seq args => exact law_managed hs (law_command .load seq args hs)
  case store seq args => exact law_managed hs (law_command .store seq args hs)
  case storeProgrammingEnd how => exact law_managed hs (law_storeEnd how hs)
  case managementCommit seq args => exact law_managed hs (law_command .commit seq args hs)
  case abort seq args => exact law_managed hs (law_command .abort seq args hs)
  case clearFault seq args => exact law_managed hs (law_command .clearFault seq args hs)
  case forceRetire seq args => exact law_managed hs (law_command .forceRetire seq args hs)
  case format seq args => exact law_managed hs (law_command .format seq args hs)
  case warmReset seq args => exact law_managed hs (law_command .warmReset seq args hs)
  case commandFrameRejected f => exact law_managed hs (law_frame f hs)
  case resetNLow => exact hs
  case coldReset p => exact law_coldReset hs _
  case powerFailNotice l =>
    unfold State.pfailLevel
    rw [event_mgmt]
    exact hs
  case idleTimerExpiry | groupTimerExpiry | conflictWaitExpiry | captureStallExpiry => exact hevent _
  case downstreamTimeout k => rw [timeout_mgmt]; exact hs
  all_goals rw [complete_mgmt]; exact hs

/-- Settles O9: only APPLY, the end of a programming and a cold reset change an image under the law, each to one that has
passed the checks. -/
theorem stepKeepsConfigLaw : Obligations.StepKeepsConfigLaw := by
  intro s t hs hstep
  unfold step at hstep
  split at hstep
  · obtain rfl := Host.Outcome.next.inj hstep
    exact hs
  · rename_i c rest _
    exact law_exec (s := s.withQueue rest) hs hstep

end Sys2Proof.Images


/-! SUPPORT. The arbiter's choice (R126, R129, R130), and the end of an event, after which no grant is left to be made. -/

namespace Sys2Proof.Arbiter

open Sys2Proof.Machine Sys2Proof.Safety Sys2Proof.Laws Sys2Proof.Order

/-! ## The request that is picked -/

/-- The first eligible request of a class, in the order of hand-over. -/
theorem eligibleIn_split {m : MemoryPort} {c : MemClass} {r : MemRequest} (h : m.eligibleIn c = some r) :
    ∃ before behind, m.waiting = before ++ r :: behind ∧ r.cls = c ∧ m.eligible r = true
      ∧ ∀ x ∈ before, x.cls = c → m.eligible x = false := by
  obtain ⟨hr, before, behind, hwaiting, hbefore⟩ := List.find?_eq_some_iff_append.1 h
  simp only [Bool.and_eq_true, decide_eq_true_eq] at hr
  refine ⟨before, behind, hwaiting, hr.1, hr.2, fun x hx hc => ?_⟩
  simpa [hc] using hbefore x hx

theorem eligibleIn_isSome {m : MemoryPort} {c : MemClass} :
    (m.eligibleIn c).isSome = true ↔ ∃ x ∈ m.waiting, x.cls = c ∧ m.eligible x = true := by
  simp [MemoryPort.eligibleIn, List.find?_isSome]

theorem mem_allClasses (c : MemClass) : c ∈ allClasses := by cases c <;> decide

/-- The list of the classes is sorted by rank. -/
theorem allClasses_sorted : allClasses.Pairwise fun x y => rankOf x ≤ rankOf y := by decide

/-- The classes with an eligible request. -/
theorem mem_eligibleClasses {m : MemoryPort} {c : MemClass} :
    c ∈ allClasses.filter (fun c => (m.eligibleIn c).isSome) ↔ (m.eligibleIn c).isSome = true := by
  simp [mem_allClasses]

/-- The first class of a sorted list that meets a test ranks highest among those that meet it. -/
theorem find_rank_le {l : List MemClass} (hl : l.Pairwise fun x y => rankOf x ≤ rankOf y) {p : MemClass → Bool}
    {c x : MemClass} (h : l.find? p = some c) (hx : x ∈ l) (hp : p x = true) : rankOf c ≤ rankOf x := by
  obtain ⟨_, before, behind, rfl, hbefore⟩ := List.find?_eq_some_iff_append.1 h
  obtain ⟨_, hc, _⟩ := List.pairwise_append.1 hl
  rcases List.mem_append.1 hx with hx | hx
  · have hnot : p x = false := by simpa using hbefore x hx
    rw [hp] at hnot
    cases hnot
  · rcases List.mem_cons.1 hx with rfl | hx
    · exact le_rfl
    · exact (List.pairwise_cons.1 hc).1 x hx

theorem head_rank_le {l : List MemClass} (hl : l.Pairwise fun x y => rankOf x ≤ rankOf y) {c x : MemClass}
    (h : l.head? = some c) (hx : x ∈ l) : rankOf c ≤ rankOf x := by
  cases l with
  | nil => cases h
  | cons y l =>
    cases h
    rcases List.mem_cons.1 hx with rfl | hx
    · exact le_rfl
    · exact (List.pairwise_cons.1 hl).1 x hx

/-- The class that the next grant goes to (R130). -/
theorem pickClass_chooses {m : MemoryPort} {c : MemClass} (h : m.pickClass = some c) : choosesClass m c := by
  intro x hx hel
  have hmem := mem_eligibleClasses.2 (eligibleIn_isSome.2 ⟨x, hx, rfl, hel⟩)
  have hsorted := allClasses_sorted.filter (fun c => (m.eligibleIn c).isSome)
  unfold MemoryPort.pickClass at h
  dsimp only at h
  generalize allClasses.filter (fun c => (m.eligibleIn c).isSome) = l at h hmem hsorted
  rcases Option.or_eq_some_iff.1 h with hfind | ⟨hnone, hhead⟩
  · have hc : m.passOver.get c = 16 := by simpa using List.find?_some hfind
    exact ⟨fun hne => absurd hc hne, fun _ hx16 => find_rank_le hsorted hfind hmem (by simpa using hx16)⟩
  · have hall : ∀ y ∈ l, m.passOver.get y ≠ 16 := by simpa using hnone
    have hc := List.mem_of_head? hhead
    exact ⟨fun _ => ⟨hall _ hmem, head_rank_le hsorted hhead hmem⟩, fun hc16 => absurd hc16 (hall c hc)⟩

/-- The request that the next grant goes to (R129, R130). -/
theorem pick_spec {m : MemoryPort} {r : MemRequest} (h : m.pick = some r) :
    choosesClass m r.cls ∧ m.eligibleIn r.cls = some r := by
  obtain ⟨c, hc, hr⟩ := Option.bind_eq_some_iff.1 h
  obtain ⟨_, _, _, rfl, _⟩ := eligibleIn_split hr
  exact ⟨pickClass_chooses hc, hr⟩

theorem pick_none {m : MemoryPort} (h : m.pick = none) : ∀ r ∈ m.waiting, m.eligible r = false := by
  intro r hr
  by_contra hel
  rw [Bool.not_eq_false] at hel
  have hmem := mem_eligibleClasses.2 (eligibleIn_isSome.2 ⟨r, hr, rfl, hel⟩)
  have hpick : m.pickClass = none := by
    cases hc : m.pickClass with
    | none => rfl
    | some c =>
      have hsome : (m.eligibleIn c).isSome = true := by
        unfold MemoryPort.pickClass at hc
        rcases Option.or_eq_some_iff.1 hc with hfind | ⟨_, hhead⟩
        · exact mem_eligibleClasses.1 (List.mem_of_find?_eq_some hfind)
        · exact mem_eligibleClasses.1 (List.mem_of_head? hhead)
      rw [MemoryPort.pick, hc, Option.bind_some] at h
      rw [h] at hsome
      cases hsome
  unfold MemoryPort.pickClass at hpick
  rw [Option.or_eq_none_iff, List.head?_eq_none_iff] at hpick
  rw [hpick.2] at hmem
  cases hmem

/-! ## The pass-over counts (R130) -/

theorem get_build (f : MemClass → Nat) (c : MemClass) : (PassOver.build f).get c = f c := by cases c <;> rfl

/-- Which requests are eligible does not depend on the counts. -/
theorem settleCounts_eligible (m : MemoryPort) (r : MemRequest) : m.settleCounts.eligible r = m.eligible r := rfl

theorem settleCounts_get (m : MemoryPort) (c : MemClass) :
    m.settleCounts.passOver.get c = if (m.eligibleIn c).isSome then m.passOver.get c else 0 := get_build _ c

/-- The counts after a grant, by the requests eligible before it and after it. -/
theorem granted_passOver (m : MemoryPort) (k : SlotNo) (r : MemRequest) (o : Outstanding) (c : MemClass) :
    (m.granted k r o).passOver.get c =
      if c ≠ r.cls ∧ (∃ x ∈ m.waiting, x.cls = c ∧ m.eligible x = true)
        ∧ (∃ x ∈ (m.granted k r o).waiting, x.cls = c ∧ (m.granted k r o).eligible x = true)
      then min 16 (m.passOver.get c + 1) else 0 := by
  simp only [← eligibleIn_isSome]
  have hafter : ((m.granted k r o).eligibleIn c).isSome = ((MemoryPort.mk (m.waiting.erase r)
      (m.slots.set k.val (some o)) (m.issue.set k.val (m.issue[k] + 1)) (m.countsAfter r.cls) m.nextOrder).eligibleIn
        c).isSome := rfl
  rw [hafter]
  unfold MemoryPort.granted
  rw [settleCounts_get]
  dsimp only [MemoryPort.countsAfter]
  rw [get_build]
  by_cases hc : c = r.cls
  · simp [hc]
  · simp only [hc, if_false, Config.passOverLimit, ne_eq, not_false_eq_true, true_and]
    split <;> split <;> simp_all

/-! ## One grant -/

theorem erase_first {before behind : List MemRequest} {r : MemRequest} (h : r ∉ before) :
    (before ++ r :: behind).erase r = before ++ behind := by
  rw [List.erase_append_right _ h, List.erase_cons_head]

/-- A grant: the first eligible request of the class the counts choose, into a free slot with the next issue number. -/
theorem grantOne_grants {cfg : Image} {b b' : Blocks} (h : grantOne cfg b = some b') :
    ∃ (k : SlotNo) (r : MemRequest) (before behind : List MemRequest) (o : Outstanding),
      b.mem.waiting = before ++ r :: behind ∧ b.mem.eligible r = true
      ∧ (∀ x ∈ before, x.cls = r.cls → b.mem.eligible x = false) ∧ choosesClass b.mem r.cls
      ∧ b.mem.slots[k] = none ∧ b'.mem.slots = b.mem.slots.set k.val (some o)
      ∧ o.cls = r.cls ∧ o.owner = r.owner ∧ o.order = r.order ∧ o.deadline = b.clock + cfg.timing.downstream.toNat
      ∧ b'.mem.issue = b.mem.issue.set k.val (b.mem.issue[k] + 1) ∧ b'.mem.waiting = before ++ behind
      ∧ ∀ c, b'.mem.passOver.get c =
        if c ≠ r.cls ∧ (∃ x ∈ b.mem.waiting, x.cls = c ∧ b.mem.eligible x = true)
          ∧ (∃ x ∈ before ++ behind, x.cls = c ∧ b'.mem.eligible x = true) then min 16 (b.mem.passOver.get c + 1)
        else 0 := by
  obtain ⟨_, r, k, f, hpick, hfree, rfl⟩ := grantOne_spec h
  obtain ⟨hchooses, hfirst⟩ := pick_spec hpick
  obtain ⟨before, behind, hwaiting, _, hel, hbefore⟩ := eligibleIn_split hfirst
  have hnotin : r ∉ before := fun hr => by simp [hbefore r hr rfl] at hel
  have herase : (b.mem.granted k r (operationOf cfg b r)).waiting = before ++ behind := by
    rw [granted_waiting, hwaiting, erase_first hnotin]
  refine ⟨k, r, before, behind, operationOf cfg b r, hwaiting, hel, hbefore, hchooses,
    mem_freeSlots.1 (chooseFrom_mem hfree), rfl, rfl, rfl, rfl, rfl, rfl, herase, fun c => ?_⟩
  rw [granted_passOver, herase]

/-! ## The end of an event -/

/-- Each grant takes a free slot. -/
theorem freeSlots_grantOne {cfg : Image} {b b' : Blocks} (h : grantOne cfg b = some b') :
    b'.mem.freeSlots.length < b.mem.freeSlots.length := by
  obtain ⟨_, r, k, f, _, hfree, rfl⟩ := grantOne_spec h
  have hk := chooseFrom_mem hfree
  have hsub : (b.mem.granted k r (operationOf cfg b r)).freeSlots = b.mem.freeSlots.filter (· ≠ k) := by
    unfold MemoryPort.freeSlots
    rw [List.filter_filter]
    refine List.filter_congr fun j _ => ?_
    rw [granted_slot]
    by_cases hj : j = k
    · simp [hj]
    · simp [hj]
  show (b.mem.granted k r (operationOf cfg b r)).freeSlots.length < _
  rw [hsub]
  exact List.length_filter_lt_length_iff_exists.2 ⟨k, hk, by simp⟩

/-- With as many rounds as there are free slots, no grant is left to be made. -/
theorem arbitrate_done {cfg : Image} {n : Nat} {b : Blocks} (h : b.mem.freeSlots.length ≤ n) :
    grantOne cfg (arbitrate cfg n b) = none := by
  induction n generalizing b with
  | zero =>
    rw [Nat.le_zero, List.length_eq_zero_iff] at h
    exact grantOne_none.2 (.inr (.inr h))
  | succ n ih =>
    cases hb : grantOne cfg b with
    | some b' =>
      rw [arbitrate_some hb]
      exact ih (by have := freeSlots_grantOne hb; omega)
    | none =>
      rw [arbitrate_none hb]
      exact hb

theorem enterSafe_grant {cfg : Image} {b : Blocks} (h : grantOne cfg b = none) : grantOne cfg (enterSafe b) = none := by
  refine grantOne_none_congr ?_ ?_ h
  · unfold enterSafe
    split <;> rfl
  · unfold enterSafe
    split <;> rfl

/-- The rest of an event leaves no grant to be made (R129). -/
theorem finishEvent_grant (cfg : Image) (b : Blocks) : grantOne cfg (finishEvent cfg b) = none := by
  refine enterSafe_grant (arbitrate_done ?_)
  exact (List.length_filter_le _ _).trans (by decide)

theorem noGrant_left {cfg : Image} {b : Blocks} (h : grantOne cfg b = none) :
    b.journal.notice = true ∨ b.mem.freeSlots = [] ∨ ∀ r ∈ b.mem.waiting, b.mem.eligible r = false := by
  rcases grantOne_none.1 h with h | h | h
  · exact .inl h
  · exact .inr (.inr (pick_none h))
  · exact .inr (.inl h)

/-- An event that is taken leaves no grant to be made. -/
theorem event_grant {s : State} (hup : s.pins.resetLow = false) (f : Blocks → Blocks) :
    grantOne s.mgmt.active (s.event f).blocks = none := by
  rw [event_blocks, if_neg (by simp [hup])]
  exact finishEvent_grant _ _

/-- Settles O11: a grant takes the request that the arbiter picks, and the 32 rounds at the end of an event exhaust the
free slots or the eligible requests. -/
theorem eventsLeaveNoGrant : Obligations.EventsLeaveNoGrant := by
  refine ⟨fun cfg b b' h => grantOne_grants h, fun c s t hup hexec htaken => noGrant_left (cfg := s.mgmt.active) ?_⟩
  rcases htaken with harrival | hexpiry | ⟨id, k, hcompletion, hmatch⟩
  · obtain ⟨⟨i, q⟩, hiq⟩ := Option.isSome_iff_exists.1 harrival
    rw [exec_arrival hiq] at hexec
    obtain rfl := Host.Outcome.next.inj hexec
    exact event_grant hup _
  · cases c <;> try cases hexpiry
    all_goals
      obtain rfl := Host.Outcome.next.inj hexec
      exact event_grant hup _
  · rw [Completions.exec_of_completionOf hcompletion] at hexec
    obtain rfl := Host.Outcome.next.inj hexec
    obtain ⟨o, ho⟩ := Option.isSome_iff_exists.1 hmatch
    rw [Completions.complete_matched ho]
    exact event_grant hup _

end Sys2Proof.Arbiter


/-! SUPPORT. Every part of an event keeps the context records consistent and the tracking entries in their live epochs,
one for a line, within the quotas. -/

namespace Sys2Proof.Tracked

open Sys2Proof.Machine Sys2Proof.Safety Sys2Proof.Laws Sys2Proof.Frames Sys2Proof.Order

/-- The context law and the tracking law. -/
structure Sound (cfg : Image) (b : Blocks) : Prop where
  ctxs : ∀ k, ctxLaw (b.ctx k) = true
  lines : (b.track.map (·.line)).Nodup
  live : ∀ e ∈ b.track, (b.ctx e.ctx).epoch = some e.epoch
  quota : ∀ k, b.trackedCount k ≤ cfg.ctxs[k].quota.toNat

theorem ctxsLaw_iff (b : Blocks) : ctxsLaw b = true ↔ ∀ k, ctxLaw (b.ctx k) = true := by
  simp [ctxsLaw, List.all_eq_true]

theorem trackLaw_iff (cfg : Image) (b : Blocks) : trackLaw cfg b = true ↔ (b.track.map (·.line)).Nodup
    ∧ (∀ e ∈ b.track, (b.ctx e.ctx).epoch = some e.epoch) ∧ ∀ k, b.trackedCount k ≤ cfg.ctxs[k].quota.toNat := by
  simp [trackLaw, List.all_eq_true, and_assoc]

theorem sound_iff (cfg : Image) (b : Blocks) : Sound cfg b ↔ ctxsLaw b = true ∧ trackLaw cfg b = true := by
  rw [ctxsLaw_iff, trackLaw_iff]
  exact ⟨fun h => ⟨h.ctxs, h.lines, h.live, h.quota⟩, fun h => ⟨h.1, h.2.1, h.2.2.1, h.2.2.2⟩⟩

variable {cfg : Image} {b c : Blocks} {k : CtxId}

/-! ## Context records -/

theorem ctxLaw_iff (x : Context) : ctxLaw x = true ↔ (x.state = .idle ↔ x.epoch = none)
    ∧ (x.state = .rollback ↔ x.rollback ≠ none) ∧ (x.state = .faulted ↔ x.fault ≠ none)
    ∧ (x.idleTimer = none ∨ x.state = .opened) ∧ (x.waiters = [] ∨ x.state = .draining ∨ x.state = .marking)
    ∧ (x.mgmtWaiter = false ∨ x.state = .draining ∨ x.state = .marking) ∧ (x.state = .idle → x.undoCount = 0) := by
  obtain ⟨state, epoch, undo, timer, waiters, mgmt, fault, outcome, rollback⟩ := x
  cases state <;> cases epoch <;> cases fault <;> cases rollback <;> simp [ctxLaw, and_assoc]

theorem ctxLaw_epoch {x : Context} (h : ctxLaw x = true) : x.state = .idle ↔ x.epoch = none := ((ctxLaw_iff x).1 h).1

/-- A tracked context is not IDLE. -/
theorem Sound.not_idle (h : Sound cfg b) {e : TrackEntry} (he : e ∈ b.track) : (b.ctx e.ctx).state ≠ .idle := by
  intro hidle
  have := (ctxLaw_epoch (h.ctxs e.ctx)).1 hidle
  rw [h.live e he] at this
  cases this

/-- A change beside the contexts and the entries. -/
theorem Sound.aside (h : Sound cfg b) (hctxs : c.epochs.ctxs = b.epochs.ctxs) (htrack : c.track = b.track) :
    Sound cfg c := by
  have hctx : ∀ k, c.ctx k = b.ctx k := fun k => by simp only [Blocks.ctx, hctxs]
  have hcount : ∀ k, c.trackedCount k = b.trackedCount k := fun k => by
    simp only [Blocks.trackedCount, Blocks.entriesOf, htrack]
  refine ⟨fun k => by rw [hctx]; exact h.ctxs k, by rw [htrack]; exact h.lines, fun e he => ?_,
    fun k => by rw [hcount]; exact h.quota k⟩
  rw [hctx]
  exact h.live e (htrack ▸ he)

theorem Sound.untouched (h : Sound cfg b) (hu : Untouched b c) : Sound cfg c :=
  h.aside (congrArg EpochController.ctxs hu.epochs) hu.track

/-- A change of a context's record that keeps it consistent and its epoch. -/
theorem Sound.modCtx (h : Sound cfg b) {f : Context → Context}
    (hlaw : ctxLaw (b.ctx k) = true → ctxLaw (f (b.ctx k)) = true)
    (hepoch : (f (b.ctx k)).epoch = (b.ctx k).epoch := by rfl) : Sound cfg (b.modCtx k f) := by
  have hctx : ∀ j, (b.modCtx k f).ctx j = if j = k then f (b.ctx k) else b.ctx j := fun j => Blocks.modCtx_ctx b k j f
  refine ⟨fun j => ?_, h.lines, fun e he => ?_, h.quota⟩
  · rw [hctx]
    split
    · exact hlaw (h.ctxs k)
    · exact h.ctxs j
  · have hlive := h.live e he
    rw [hctx]
    split
    · rename_i hk
      rw [hepoch, ← hk]
      exact hlive
    · exact hlive

theorem Sound.ite {p : Prop} [Decidable p] (hb : Sound cfg b) (hc : Sound cfg c) : Sound cfg (if p then b else c) := by
  split
  · exact hb
  · exact hc

theorem Sound.foldl {α : Type} {f : Blocks → α → Blocks} (hf : ∀ {b} x, Sound cfg b → Sound cfg (f b x))
    (h : Sound cfg b) (l : List α) : Sound cfg (l.foldl f b) := by
  induction l generalizing b with
  | nil => exact h
  | cons x l ih => exact ih (hf x h)

/-! ## Line Tracking Table -/

/-- Entries that are left after some have gone. -/
theorem Sound.sublist (h : Sound cfg b) (hctxs : c.epochs.ctxs = b.epochs.ctxs) (htrack : c.track.Sublist b.track) :
    Sound cfg c := by
  have hctx : ∀ k, c.ctx k = b.ctx k := fun k => by simp only [Blocks.ctx, hctxs]
  refine ⟨fun k => by rw [hctx]; exact h.ctxs k, h.lines.sublist (htrack.map _), fun e he => ?_, fun k => ?_⟩
  · rw [hctx]
    exact h.live e (htrack.subset he)
  · exact (htrack.filter _).length_le.trans (h.quota k)

theorem Sound.removeEntries (h : Sound cfg b) {p : TrackEntry → Bool} : Sound cfg (removeEntries p b) :=
  (h.sublist rfl List.filter_sublist : Sound cfg (b.modTrack fun t => t.filter fun e => !p e)).untouched
    (untouched_freeLines _ _)

/-- A change of entries that keeps their lines, contexts and epochs. -/
theorem Sound.updateEntries (h : Sound cfg b) {p : TrackEntry → Bool} {f : TrackEntry → TrackEntry}
    (hline : ∀ e, (f e).line = e.line := by intro e; rfl) (hctx : ∀ e, (f e).ctx = e.ctx := by intro e; rfl)
    (hepoch : ∀ e, (f e).epoch = e.epoch := by intro e; rfl) : Sound cfg (updateEntries p f b) := by
  have hentry : ∀ e, (if p e then f e else e).line = e.line ∧ (if p e then f e else e).ctx = e.ctx
      ∧ (if p e then f e else e).epoch = e.epoch := fun e => by
    split
    · exact ⟨hline e, hctx e, hepoch e⟩
    · exact ⟨rfl, rfl, rfl⟩
  refine ⟨h.ctxs, ?_, fun e he => ?_, fun k => ?_⟩
  · simp only [Machine.updateEntries, Blocks.modTrack_track, List.map_map, Function.comp_def, (hentry _).1]
    exact h.lines
  · obtain ⟨x, hx, rfl⟩ := List.mem_map.1 he
    rw [(hentry x).2.1, (hentry x).2.2]
    exact h.live x hx
  · have hcount : (Machine.updateEntries p f b).trackedCount k = b.trackedCount k := by
      simp only [Blocks.trackedCount, Blocks.entriesOf, Machine.updateEntries, Blocks.modTrack_track, List.filter_map,
        List.length_map, Function.comp_def, (hentry _).2.1]
    rw [hcount]
    exact h.quota k

theorem Sound.dropRestoring (h : Sound cfg b) : Sound cfg (dropRestoring k b) :=
  h.updateEntries.untouched (untouched_wakeLines _ _)

theorem Sound.wake (h : Sound cfg b) {p : StreamId → StreamRec → StallCause → Bool} : Sound cfg (wake p b) :=
  h.untouched (untouched_wake p b)

theorem Sound.wakeRestoring (h : Sound cfg b) {line : Addr} : Sound cfg (wakeRestoring line b) := h.wake

theorem Sound.wakeContext (h : Sound cfg b) : Sound cfg (wakeContext cfg k b) := h.wake

theorem Sound.wakeAll (h : Sound cfg b) : Sound cfg (wakeAll b) := h.wake

theorem Sound.leaveRestoring (h : Sound cfg b) {line : Addr} {st : TrackState} :
    Sound cfg (leaveRestoring k line st b) := h.updateEntries.wakeRestoring

/-! ## Epoch Controller -/

theorem Sound.answerWaiters (h : Sound cfg b) {st : UpStatus} : Sound cfg (answerWaiters k st b) := by
  refine (h.untouched (untouched_answerAll st _ b)).modCtx fun hlaw => ?_
  rw [ctxLaw_iff] at hlaw ⊢
  simp_all

/-- A context that is to commit, from OPEN, whatever waiters it has been given. -/
theorem Sound.beginCommit (h : Sound cfg b) {w : List StreamId} {m : Bool} (hopen : (b.ctx k).state = .opened)
    (hctxs : c.epochs.ctxs = (b.modCtx k fun x => { x with waiters := w, mgmtWaiter := m }).epochs.ctxs)
    (htrack : c.track = b.track) : Sound cfg (beginCommit cfg k c) := by
  have hdraining : Sound cfg (b.modCtx k fun x =>
      { x with waiters := w, mgmtWaiter := m, state := .draining, idleTimer := none }) := by
    refine h.modCtx fun hlaw => ?_
    rw [ctxLaw_iff] at hlaw ⊢
    simp_all
  have hbegun : Sound cfg (c.modCtx k fun x => { x with state := .draining, idleTimer := none }) := by
    refine hdraining.aside ?_ htrack
    have := congrArg (fun v => (({ c with epochs := { c.epochs with ctxs := v } } : Blocks).modCtx k fun x =>
      { x with state := .draining, idleTimer := none }).epochs.ctxs) hctxs
    refine this.trans ?_
    simp [Blocks.modCtx]
  exact ((hbegun.wakeContext).untouched (untouched_drainDemands _ _ _)).untouched (untouched_burstCheck _ _)

theorem Sound.requestMarker (h : Sound cfg b) {r : RecordKind} : Sound cfg (requestMarker r k b) :=
  h.untouched (untouched_requestMarker _ _ _)

theorem Sound.enterMarking (h : Sound cfg b) (hdraining : (b.ctx k).state = .draining) :
    Sound cfg (enterMarking cfg k b) := by
  refine Sound.requestMarker (Sound.wakeContext (h.modCtx fun hlaw => ?_))
  rw [ctxLaw_iff] at hlaw ⊢
  simp_all

/-- A context whose epoch ends, with no entry left. -/
theorem Sound.ended (h : Sound cfg b) (hnone : ∀ e ∈ b.track, e.ctx ≠ k) {o : Option AbortOutcome} :
    Sound cfg (b.modCtx k fun _ => Context.ended o) := by
  refine ⟨fun j => ?_, h.lines, fun e he => ?_, h.quota⟩
  · rw [Blocks.modCtx_ctx]
    split
    · rfl
    · exact h.ctxs j
  · rw [Blocks.modCtx_ctx, if_neg (hnone e he)]
    exact h.live e he

theorem removeEntries_track (p : TrackEntry → Bool) (b : Blocks) :
    (removeEntries p b).track = b.track.filter fun e => !p e := (untouched_freeLines _ _).track

theorem answerWaiters_track (st : UpStatus) (b : Blocks) : (answerWaiters k st b).track = b.track :=
  (untouched_answerAll st _ b).track

theorem Sound.anchorCheck (h : Sound cfg b) : Sound cfg (anchorCheck cfg b) := h.untouched (untouched_anchorCheck _ _)

theorem Sound.markerDurable (h : Sound cfg b) {e : Epoch} : Sound cfg (markerDurable cfg k e b) := by
  have hends : Sound cfg (Machine.answerWaiters k .okay
      ((Machine.removeEntries (fun t => decide (t.ctx = k)) b).modJournal fun j =>
        let j' := { j with live := j.live.filter fun l => decide (l.epoch ≠ e) }
        { j' with head := j'.headNow })) := (h.removeEntries.untouched (untouched_modJournal _ _)).answerWaiters
  have hnone : ∀ t ∈ (Machine.answerWaiters k .okay
      ((Machine.removeEntries (fun t => decide (t.ctx = k)) b).modJournal fun j =>
        let j' := { j with live := j.live.filter fun l => decide (l.epoch ≠ e) }
        { j' with head := j'.headNow })).track, t.ctx ≠ k := fun t ht => by
    rw [answerWaiters_track, Blocks.modJournal_track, removeEntries_track, List.mem_filter] at ht
    simpa using ht.2
  unfold Machine.markerDurable
  dsimp only at hends hnone ⊢
  split
  · exact h
  split
  · refine Sound.anchorCheck (Sound.wakeContext ?_)
    split
    · exact (hends.ended hnone).untouched (untouched_modEvents _ _)
    · exact .ite ((hends.ended hnone).untouched (untouched_modEvents _ _)) (hends.ended hnone)
  · exact h

/-! ## Faults -/

/-- A context that is not IDLE enters FAULTED; one in ROLLBACK loses its rollback record. -/
theorem Sound.enterFaulted (h : Sound cfg b) {r : FaultRecord} (hidle : (b.ctx k).state ≠ .idle) :
    Sound cfg (enterFaulted cfg k r b) := by
  have hwaiters : Sound cfg (Machine.answerWaiters k .contextFaulted b) := h.answerWaiters
  have hstate : ((Machine.answerWaiters k .contextFaulted b).ctx k).state = (b.ctx k).state := by
    rw [answerWaiters_ctx, if_pos rfl]
  have hmgmt : ((Machine.answerWaiters k .contextFaulted b).ctx k).waiters = []
      ∧ ((Machine.answerWaiters k .contextFaulted b).ctx k).mgmtWaiter = false := by
    rw [answerWaiters_ctx, if_pos rfl]
    exact ⟨rfl, rfl⟩
  obtain ⟨hempty, hmgmt⟩ := hmgmt
  unfold Machine.enterFaulted
  dsimp only
  generalize Machine.answerWaiters k .contextFaulted b = d at hwaiters hstate hempty hmgmt
  refine Sound.wakeContext (Sound.untouched ?_ (untouched_modEvents _ _))
  split
  · rename_i hroll
    rw [hroll] at hstate
    refine Sound.dropRestoring (Sound.untouched (b := (d.modCtx k fun x => { x with
      state := .faulted, idleTimer := none, fault := some r, rollback := none, abortOutcome := some .failed })) ?_ ?_)
    · refine hwaiters.modCtx fun hlaw => ?_
      rw [ctxLaw_iff] at hlaw ⊢
      grind
    · refine ⟨?_, rfl, rfl, rfl⟩
      simp [raise, Machine.withdraw, Blocks.modCtx, Blocks.modEvents, Blocks.modMem]
  · refine hwaiters.modCtx fun hlaw => ?_
    rw [ctxLaw_iff] at hlaw ⊢
    simp_all

theorem Sound.discardHeld (h : Sound cfg b) {p : HeldEntry → Bool} {reason : Option LossReason} :
    Sound cfg (discardHeld p reason b) := h.untouched (untouched_discardHeld _ _ _)

theorem Sound.reportFault (h : Sound cfg b) {e : Epoch} {kind : FaultKind} {line : Addr} {i : StreamId}
    {st : DownStatus} : Sound cfg (reportFault cfg k e kind line i st b) := by
  unfold Machine.reportFault
  dsimp only
  split
  · rename_i hlive
    refine (h.enterFaulted ?_).discardHeld
    rcases hlive.2 with hs | hs <;> simp [hs]
  · exact h

theorem Sound.reportRestoreFault (h : Sound cfg b) {kind : FaultKind} {line : Addr} {st : DownStatus} :
    Sound cfg (reportRestoreFault cfg k kind line st b) := by
  unfold Machine.reportRestoreFault
  dsimp only
  split
  · split
    · rename_i hs
      exact h.enterFaulted (by simp [hs])
    · exact h
  · exact h

theorem Sound.journalFaults (h : Sound cfg b) {st : Option DownStatus} : Sound cfg (journalFaults cfg st b k) := by
  unfold Machine.journalFaults
  dsimp only
  split
  · split
    · exact h
    · rename_i hs
      exact h.enterFaulted fun hidle => hs (.inl hidle)
  · exact h

theorem Sound.journalFail (h : Sound cfg b) {reason : JournalReason} {st : Option DownStatus} :
    Sound cfg (journalFail cfg reason st b) := by
  have hstop : Sound cfg ((withdraw (fun r => r.owner.ofJournal) (stopWriting b)).modJournal fun j =>
      { j with state := .failed, reason := some reason, pause := false, formatWaits := false }) :=
    ((h.untouched (untouched_stopWriting b)).untouched (untouched_withdraw _ _)).untouched (untouched_modJournal _ _)
  exact ((hstop.discardHeld.foldl (fun _ h => h.journalFaults) allCtxs).untouched (untouched_modEvents _ _)).wakeAll

/-! ## Rollback -/

theorem Sound.enterRollback (h : Sound cfg b) {m : RollbackMode} (hidle : (b.ctx k).state ≠ .idle) :
    Sound cfg (enterRollback cfg k m b) := by
  have hstate : ((Machine.answerWaiters k .aborted b).ctx k).state = (b.ctx k).state := by
    rw [answerWaiters_ctx, if_pos rfl]
  have hmgmt : ((Machine.answerWaiters k .aborted b).ctx k).waiters = []
      ∧ ((Machine.answerWaiters k .aborted b).ctx k).mgmtWaiter = false := by
    rw [answerWaiters_ctx, if_pos rfl]
    exact ⟨rfl, rfl⟩
  obtain ⟨hempty, hmgmt⟩ := hmgmt
  have hentered : Sound cfg ((Machine.answerWaiters k .aborted b).modCtx k fun x =>
      { x with state := .rollback, idleTimer := none, fault := none, rollback := some ⟨m, .quiesce, [], 0⟩ }) := by
    refine (h.answerWaiters).modCtx fun hlaw => ?_
    rw [ctxLaw_iff] at hlaw ⊢
    simp_all
  exact (hentered.discardHeld.untouched (untouched_modHeld _ _)).wakeContext

theorem Sound.modRollback (h : Sound cfg b) {f : Rollback → Rollback} : Sound cfg (modRollback k f b) := by
  refine h.modCtx fun hlaw => ?_
  rw [ctxLaw_iff] at hlaw ⊢
  simp_all

theorem Sound.dropCaptures (h : Sound cfg b) : Sound cfg (dropCaptures cfg k b) :=
  (h.removeEntries.untouched (untouched_modJournal _ _)).untouched (untouched_releaseSpace _ _ _)

theorem Sound.enterRetire (h : Sound cfg b) : Sound cfg (enterRetire k b) := h.modRollback.requestMarker

theorem Sound.burstCheck (h : Sound cfg b) : Sound cfg (burstCheck cfg b) := h.untouched (untouched_burstCheck _ _)

theorem Sound.settleLines (h : Sound cfg b) : Sound cfg (settleLines cfg k b) := by
  unfold Machine.settleLines
  dsimp only
  split
  · exact (h.dropCaptures.updateEntries.modRollback.untouched (untouched_drainDemands _ _ _)).burstCheck
  · exact h.dropCaptures.enterRetire

theorem Sound.handOver (h : Sound cfg b) {op : MemOp} {cls : MemClass} {o : Owner} : Sound cfg (handOver op cls o b) :=
  h.untouched (untouched_handOver _ _ _ _)

theorem Sound.fillSlots (h : Sound cfg b) (n : Nat) : Sound cfg (fillSlots cfg k n b) := by
  induction n generalizing b with
  | zero => exact h
  | succ n ih =>
    unfold Machine.fillSlots
    split
    · exact ih h.modRollback.handOver
    · exact h

theorem Sound.requestRestoreWrite (h : Sound cfg b) {line : Addr} {d : LineData} :
    Sound cfg (requestRestoreWrite k line d b) := by
  unfold Machine.requestRestoreWrite
  split
  · exact h.modRollback
  · exact h.modRollback.handOver

theorem Sound.restoreLogged (h : Sound cfg b) {line : Addr} : Sound cfg (restoreLogged k line b) := by
  unfold Machine.restoreLogged
  split
  · split
    · split
      · exact h
      · exact h.updateEntries.requestRestoreWrite
    · exact h
  · exact h

theorem Sound.contextStep (h : Sound cfg b) (k : CtxId) : Sound cfg (contextStep cfg b k) := by
  unfold Machine.contextStep
  split
  · rename_i hdraining
    split
    · exact h.enterMarking hdraining
    · exact h
  · unfold rollbackStep
    dsimp only
    have hfill : Sound cfg (Machine.fillSlots cfg k Config.restoreSlots
        (if quiesceDue b k then Machine.settleLines cfg k b else b)) := Sound.fillSlots (.ite h.settleLines h) _
    exact .ite hfill.enterRetire hfill
  · exact h

/-! ## Staging -/

theorem untouched_demandsAtStaging (e : TrackEntry) (seq : Count32) (b : Blocks) :
    Untouched b (demandsAtStaging e seq b) := by
  have hwaiting := fun l => untouched_foldl
    (f := fun b i => placeDemand ⟨seq, DemandSource.barrier i⟩ b) (fun b i => untouched_placeDemand _ b) l b
  unfold demandsAtStaging
  dsimp only
  split
  · exact (untouched_placeDemand _ _).after (hwaiting _)
  · exact hwaiting _

/-- A record that is staged for an entry counts in its context, which is not IDLE. -/
theorem Sound.stageUndo (h : Sound cfg b) {e : TrackEntry} (he : e ∈ b.track) {d : LineData} :
    Sound cfg (stageUndo cfg e d b) := by
  have hstaged : Sound cfg (Machine.updateEntries (fun x => decide (x.capture = e.capture))
      (fun x => { x with pos := some b.journal.tail }) (stage cfg (undoSlots cfg b.journal e d) e.epoch e.ctx b)) :=
    (h.untouched (untouched_modJournal _ _)).updateEntries
  have hidle := h.not_idle he
  have hcounted := hstaged.modCtx (k := e.ctx) (f := fun x => { x with undoCount := x.undoCount + 1 }) fun hlaw => by
    have hstate : ((Machine.updateEntries (fun x => decide (x.capture = e.capture))
      (fun x => { x with pos := some b.journal.tail }) (stage cfg (undoSlots cfg b.journal e d) e.epoch e.ctx b)).ctx
        e.ctx).state = (b.ctx e.ctx).state := rfl
    rw [← hstate] at hidle
    rw [ctxLaw_iff] at hlaw ⊢
    simp_all
  exact (hcounted.untouched (untouched_demandsAtStaging _ _ _)).burstCheck

theorem Sound.serveBuffer (h : Sound cfg b) (n : Nat) : Sound cfg (serveBuffer cfg n b) :=
  h.untouched (untouched_serveBuffer _ _ _)

/-! ## Recovery Engine -/

theorem Sound.modRecovery (h : Sound cfg b) {f : RecoveryEngine → RecoveryEngine} : Sound cfg (b.modRecovery f) :=
  h.aside rfl rfl

theorem Sound.modJournal (h : Sound cfg b) {f : JournalWriter → JournalWriter} : Sound cfg (b.modJournal f) :=
  h.aside rfl rfl

theorem Sound.raise (h : Sound cfg b) {f : EventFlag} : Sound cfg (raise f b) := h.aside rfl rfl

theorem Sound.endRecovery (h : Sound cfg b) {o : RecoveryOutcome} {st : JournalState} {reason : Option JournalReason} :
    Sound cfg (endRecovery o st reason b) := h.modRecovery.modJournal.raise.wakeAll

theorem Sound.recoveryFail (h : Sound cfg b) {reason : JournalReason} : Sound cfg (recoveryFail reason b) :=
  h.endRecovery.raise

theorem Sound.writeAnchor (h : Sound cfg b) {act : Image} {copy : AnchorCopy} {f : AnchorFields} {p : AnchorPurpose} :
    Sound cfg (writeAnchor act copy f p b) := h.modJournal.handOver

theorem Sound.recoveryRead (h : Sound cfg b) {line : Addr} {what : RecoveryRead} {step : RecoveryStep} :
    Sound cfg (recoveryRead line what step b) := h.modRecovery.handOver

theorem Sound.readHeader (h : Sound cfg b) : Sound cfg (readHeader cfg b) := h.recoveryRead

theorem Sound.readData (h : Sound cfg b) {d : LineData} : Sound cfg (readData cfg d b) := h.recoveryRead

theorem Sound.finish (h : Sound cfg b) : Sound cfg (finish cfg b) :=
  .ite h.recoveryFail h.modRecovery.modJournal.writeAnchor

theorem Sound.restoreNext (h : Sound cfg b) : Sound cfg (restoreNext cfg b) := by
  unfold Machine.restoreNext
  dsimp only
  split
  · exact .ite h.finish h.modRecovery
  · exact .ite h.modRecovery h.readHeader

theorem Sound.passRecord (h : Sound cfg b) {r : RecordKind} : Sound cfg (passRecord cfg r b) :=
  h.modRecovery.restoreNext

theorem Sound.restoreHeader (h : Sound cfg b) {d : LineData} : Sound cfg (restoreHeader cfg d b) := by
  unfold Machine.restoreHeader
  dsimp only
  split
  · split
    · split
      · exact .ite h.readData h.passRecord
      · exact h.passRecord
      · exact h.passRecord
    · exact h.recoveryFail
  · exact h

theorem Sound.restoreData (h : Sound cfg b) {d e : LineData} : Sound cfg (restoreData cfg d e b) :=
  .ite h.modRecovery.handOver.passRecord h.recoveryFail

theorem Sound.scanEnd (h : Sound cfg b) : Sound cfg (scanEnd cfg b) :=
  .ite h.modRecovery.finish h.modRecovery.modRecovery.restoreNext

theorem Sound.takeRecord (h : Sound cfg b) {r : RecordKind} {d : LineData} : Sound cfg (takeRecord cfg r d b) := by
  unfold Machine.takeRecord
  dsimp only
  split
  · exact h.recoveryFail
  · exact h.modRecovery.readHeader

theorem Sound.scanHeader (h : Sound cfg b) {d : LineData} : Sound cfg (scanHeader cfg d b) := by
  unfold Machine.scanHeader
  dsimp only
  split
  · split
    · exact h.scanEnd
    · exact .ite h.readData h.scanEnd
    · exact .ite h.takeRecord h.scanEnd
  · exact h.scanEnd

theorem Sound.scanData (h : Sound cfg b) {d e : LineData} : Sound cfg (scanData cfg d e b) :=
  .ite (.ite h.recoveryFail h.takeRecord) h.scanEnd

theorem Sound.anchorRead (h : Sound cfg b) {copy : AnchorCopy} {d : LineData} : Sound cfg (anchorRead cfg copy d b) := by
  unfold Machine.anchorRead
  dsimp only
  split
  · unfold judgeAnchors
    dsimp only
    split
    · exact h.modRecovery.modJournal.endRecovery
    · exact h.modRecovery.modJournal.modRecovery.readHeader
  · exact h.modRecovery

theorem Sound.startRecovery (h : Sound cfg b) : Sound cfg (startRecovery cfg b) :=
  .ite h.endRecovery h.recoveryRead.recoveryRead

theorem Sound.recoveryOpFailed (h : Sound cfg b) {reason : JournalReason} : Sound cfg (recoveryOpFailed reason b) :=
  .ite h h.recoveryFail

theorem Sound.recoveryReadEnd (h : Sound cfg b) {what : RecoveryRead} {o : OpEnd} :
    Sound cfg (recoveryReadEnd cfg what o b) := by
  unfold Machine.recoveryReadEnd
  split
  · exact recoveryReadData_elim (motive := Sound cfg) h (fun _ => h.anchorRead) h.scanHeader (fun _ => h.scanData)
      h.restoreHeader (fun _ => h.restoreData)
  · exact h.recoveryOpFailed

theorem Sound.recoveryWriteEnd (h : Sound cfg b) {o : OpEnd} : Sound cfg (recoveryWriteEnd cfg o b) := by
  unfold Machine.recoveryWriteEnd
  split
  · exact .ite h (.ite h.modRecovery.restoreNext h.modRecovery)
  · exact h.recoveryOpFailed

/-! ## Requests that are handled -/

theorem Sound.modStream (h : Sound cfg b) {i : StreamId} {f : StreamRec → StreamRec} : Sound cfg (b.modStream i f) :=
  h.aside rfl rfl

theorem Sound.acceptWrite (h : Sound cfg b) {i : StreamId} : Sound cfg (acceptWrite i b) := h.modStream.modStream

theorem Sound.acceptJournaled (h : Sound cfg b) {i : StreamId} : Sound cfg (acceptJournaled cfg i k b) := by
  unfold Machine.acceptJournaled
  dsimp only
  split
  · rename_i hopen
    unfold startIdleTimer
    refine h.acceptWrite.modCtx fun hlaw => ?_
    rw [ctxLaw_iff] at hlaw ⊢
    simp_all
  · exact h.acceptWrite

/-- A first touch is of an untracked line, in an IDLE or OPEN context below its quota. -/
theorem classifyWrite_firstTouch {i : StreamId} {line : Addr} {m : ByteMask}
    (h : classifyWrite cfg b i line m = .firstTouch k) : b.entryOf line = none
      ∧ b.trackedCount k < cfg.ctxs[k].quota.toNat ∧ ((b.ctx k).state = .idle ∨ (b.ctx k).state = .opened) := by
  have huntracked : ∀ {c}, classifyUntracked cfg b c = .firstTouch k → c = k ∧ b.trackedCount k < cfg.ctxs[k].quota.toNat := by
    intro c hc
    unfold classifyUntracked at hc
    split at hc
    · cases hc
    · rename_i hquota
      split at hc
      · cases hc
      split at hc
      · cases hc
      · cases hc
        exact ⟨rfl, Nat.lt_of_not_le hquota⟩
  have htracked : ∀ {c}, classifyTracked cfg b c line = .firstTouch k →
      c = k ∧ b.entryOf line = none ∧ b.trackedCount k < cfg.ctxs[k].quota.toNat := by
    intro c hc
    unfold classifyTracked at hc
    split at hc
    · split at hc
      · split at hc
        · cases hc
        · split at hc <;> cases hc
      · cases hc
    · rename_i hnone
      obtain ⟨rfl, hquota⟩ := huntracked hc
      exact ⟨rfl, hnone, hquota⟩
  unfold classifyWrite classifyJournaled at h
  split at h
  · cases h
  split at h <;> try cases h
  split at h
  · cases h
  split at h
  · cases h
  split at h
  · cases h
  split at h
  · cases h
  split at h <;> try cases h
  unfold classifyInContext at h
  split at h <;> try cases h
  · obtain ⟨rfl, hnone, hquota⟩ := htracked h
    exact ⟨hnone, hquota, .inl ‹_›⟩
  · obtain ⟨rfl, hnone, hquota⟩ := htracked h
    exact ⟨hnone, hquota, .inr ‹_›⟩

theorem openEpoch_ctx (k : CtxId) (b : Blocks) (j : CtxId) : (openEpoch k b).ctx j =
    if j = k then { b.ctx k with state := .opened, epoch := some b.epochs.counter, undoCount := 0 } else b.ctx j :=
  Blocks.modCtx_ctx b k j fun x => { x with state := .opened, epoch := some b.epochs.counter, undoCount := 0 }

/-- An epoch is opened in an IDLE context, which no entry tracks. -/
theorem Sound.openEpoch (h : Sound cfg b) (hidle : (b.ctx k).state = .idle) : Sound cfg (openEpoch k b) := by
  have hctx := openEpoch_ctx k b
  have hlaw := h.ctxs k
  refine ⟨fun j => ?_, h.lines, fun e he => ?_, h.quota⟩
  · rw [hctx]
    split
    · rw [ctxLaw_iff] at hlaw ⊢
      grind
    · exact h.ctxs j
  · rw [hctx]
    split
    · rename_i hk
      exact absurd (by rw [hk]; exact hidle) (h.not_idle he)
    · exact h.live e he

theorem entryOf_none {line : Addr} : b.entryOf line = none ↔ ∀ e ∈ b.track, e.line ≠ line := by
  simp [Blocks.entryOf]

/-- An untracked line is entered in a context that has an epoch, below its quota. -/
theorem Sound.insertEntry (h : Sound cfg b) {i : StreamId} {line : Addr} (hnone : b.entryOf line = none)
    (hquota : b.trackedCount k < cfg.ctxs[k].quota.toNat) (hidle : (b.ctx k).state ≠ .idle) :
    Sound cfg (insertEntry i k line b) := by
  obtain ⟨n, hn⟩ := Option.ne_none_iff_exists'.1 (mt (ctxLaw_epoch (h.ctxs k)).2 hidle)
  have htrack : (Machine.insertEntry i k line b).track = b.track ++ [⟨line, k, n, .capturing, none, b.nextCapture, i⟩] := by
    simp [Machine.insertEntry, hn]
  refine ⟨h.ctxs, ?_, fun e he => ?_, fun j => ?_⟩
  · rw [htrack, List.map_append, List.nodup_append]
    refine ⟨h.lines, by simp, fun x hx y hy => ?_⟩
    obtain ⟨e, he, rfl⟩ := List.mem_map.1 hx
    rw [List.mem_singleton.1 hy]
    exact entryOf_none.1 hnone e he
  · rw [htrack] at he
    rcases List.mem_append.1 he with he | he
    · exact h.live e he
    · rw [List.mem_singleton.1 he]
      exact hn
  · have hcount := h.quota j
    unfold Blocks.trackedCount Blocks.entriesOf at hcount hquota ⊢
    rw [htrack, List.filter_append, List.length_append]
    by_cases hj : k = j
    · subst hj
      simpa using hquota
    · simpa [hj] using hcount

theorem Sound.modHeld (h : Sound cfg b) {f : HeldQueue → HeldQueue} : Sound cfg (b.modHeld f) := h.aside rfl rfl

theorem Sound.firstTouch (h : Sound cfg b) {i : StreamId} {line : Addr} {m : ByteMask} {d : LineData}
    (hnone : b.entryOf line = none) (hquota : b.trackedCount k < cfg.ctxs[k].quota.toNat)
    (hstate : (b.ctx k).state = .idle ∨ (b.ctx k).state = .opened) : Sound cfg (firstTouch cfg i k line m d b) := by
  have hopen : Sound cfg (if decide ((b.ctx k).state = .idle) then Machine.openEpoch k b else b)
      ∧ (if decide ((b.ctx k).state = .idle) then Machine.openEpoch k b else b).track = b.track
      ∧ ((if decide ((b.ctx k).state = .idle) then Machine.openEpoch k b else b).ctx k).state = .opened := by
    by_cases hidle : (b.ctx k).state = .idle
    · rw [if_pos (by simpa using hidle)]
      refine ⟨h.openEpoch hidle, rfl, ?_⟩
      rw [openEpoch_ctx, if_pos rfl]
    · rw [if_neg (by simpa using hidle)]
      exact ⟨h, rfl, hstate.resolve_left hidle⟩
  unfold Machine.firstTouch
  dsimp only
  generalize (if decide ((b.ctx k).state = .idle) then Machine.openEpoch k b else b) = b' at hopen ⊢
  obtain ⟨hopen, htrack, hopened⟩ := hopen
  have hnone' : b'.entryOf line = none := by rw [entryOf_none, htrack]; exact entryOf_none.1 hnone
  have hquota' : b'.trackedCount k < cfg.ctxs[k].quota.toNat := by
    simpa only [Blocks.trackedCount, Blocks.entriesOf, htrack] using hquota
  have hheld : Sound cfg (allocHeld i k line m d .waitLog (Machine.insertEntry i k line b')) :=
    (hopen.insertEntry (i := i) hnone' hquota' (by simp [hopened])).modHeld
  have htouch : Sound cfg (reserve cfg (slotsNeeded (b.ctx k).state) (Machine.acceptJournaled cfg i k
      (allocHeld i k line m d .waitLog (Machine.insertEntry i k line b')))) :=
    hheld.acceptJournaled.untouched (untouched_reserve _ _ _)
  exact .ite (Sound.journalFail (.ite htouch.wakeContext htouch)) (.ite htouch.wakeContext htouch)

theorem Sound.handleWrite (h : Sound cfg b) {i : StreamId} {line : Addr} {m : ByteMask} {d : LineData} :
    Sound cfg (handleWrite cfg i line m d b) := by
  unfold Machine.handleWrite
  split
  · exact h.modStream
  split
  · exact h.untouched (untouched_refuseWrite _ _ _ _)
  · exact h.modStream
  · exact h.handOver.acceptWrite
  · unfold conflictStall
    exact h.modStream
  · exact h.modStream
  · exact h.modHeld.acceptJournaled
  · exact h.modHeld.acceptJournaled
  · obtain ⟨hnone, hquota, hstate⟩ := classifyWrite_firstTouch ‹_›
    exact h.firstTouch hnone hquota hstate

/-- A COMMIT begins a commit of an OPEN context, and joins one in DRAINING or MARKING. -/
theorem classifyCommit_joins {i : StreamId} : (classifyCommit cfg b i = .begins k → (b.ctx k).state = .opened)
    ∧ (classifyCommit cfg b i = .joins k → (b.ctx k).state = .draining ∨ (b.ctx k).state = .marking) := by
  unfold classifyCommit commitInContext
  split
  · simp
  · rename_i c _
    split <;> try simp
    cases hs : (b.ctx c).state <;> simp <;> rintro rfl <;> simp [hs]

theorem Sound.handleCommit (h : Sound cfg b) {i : StreamId} : Sound cfg (handleCommit cfg i b) := by
  unfold Machine.handleCommit
  split
  · exact h.modStream
  · exact h.modStream
  · rename_i k hjoins
    have hstate := classifyCommit_joins.2 hjoins
    have hjoined : ∀ w, Sound cfg (b.modCtx k fun x => { x with waiters := w }) := fun w => h.modCtx fun hlaw => by
      rw [ctxLaw_iff] at hlaw ⊢
      grind
    exact (hjoined ((b.ctx k).waiters ++ [i])).aside (by simp [joinWaiters, setPhase, Blocks.modCtx, Blocks.modStream, Blocks.ctx]) rfl
  · rename_i k hbegins
    exact h.beginCommit (c := joinWaiters i k b) (w := (b.ctx k).waiters ++ [i]) (m := (b.ctx k).mgmtWaiter)
      (classifyCommit_joins.1 hbegins) rfl rfl

theorem Sound.handleCurrent (h : Sound cfg b) {i : StreamId} : Sound cfg (handleCurrent cfg i b) := by
  unfold Machine.handleCurrent
  split
  · exact h.modStream
  · split
    · exact h.untouched (untouched_handleRead _ _ _ _)
    · exact h.handleWrite
    · exact h.untouched (untouched_handleBarrier _ _ _)
    · exact h.handleCommit

/-! ## The rest of an event -/

theorem Sound.progress (h : Sound cfg b) : Sound cfg (progress cfg b) := by
  have hserved : Sound cfg (Machine.serveBuffer cfg Config.stagingCapacity (allCtxs.foldl (Machine.contextStep cfg) b)) :=
    (h.foldl (f := Machine.contextStep cfg) (fun k h => h.contextStep k) allCtxs).serveBuffer _
  have hreleased : Sound cfg (requestReleases
      (Machine.serveBuffer cfg Config.stagingCapacity (allCtxs.foldl (Machine.contextStep cfg) b))) :=
    hserved.foldl (fun _ h => h.handOver) _
  have hanswered : Sound cfg (answerBarriers (requestReleases
      (Machine.serveBuffer cfg Config.stagingCapacity (allCtxs.foldl (Machine.contextStep cfg) b)))) :=
    hreleased.foldl (fun _ h => h.untouched (untouched_answerBarrier _ _)) _
  exact hanswered.foldl (fun _ h => h.modStream) _

theorem Sound.settle (h : Sound cfg b) (n : Nat) : Sound cfg (settle cfg n b) := by
  induction n generalizing b with
  | zero => exact h.progress
  | succ n ih =>
    unfold Machine.settle handleNext
    split
    · exact h.progress
    · exact ih (h.progress.untouched (untouched_free _ _)).handleCurrent

theorem Sound.arbitrate (h : Sound cfg b) (n : Nat) : Sound cfg (arbitrate cfg n b) :=
  h.aside (congrArg EpochController.ctxs (arbitrate_frame cfg n b).epochs) (arbitrate_frame cfg n b).track

theorem Sound.finishEvent (h : Sound cfg b) : Sound cfg (finishEvent cfg b) :=
  ((h.settle _).arbitrate _).untouched (untouched_enterSafe _)

end Sys2Proof.Tracked


/-! SUPPORT. What a command can do to the blocks: nothing, one event, an APPLY, a reset (R150 to R154, R164). -/

namespace Sys2Proof.Commands

open Sys2Proof.Machine Sys2Proof.Safety Sys2Proof.Laws Sys2Proof.Order

/-- What the event of a command does to the blocks before the rest of the event. -/
inductive Effect (cfg : Image) (b : Blocks) : Blocks → Prop
  | arrival (i : StreamId) (q : Request) : Effect cfg b (arrive i q b)
  | ended {k : SlotNo} {o : Outstanding} (e : OpEnd) : b.mem.slots[k] = some o →
      Effect cfg b (handBack cfg o e (freeSlot k b))
  | timedOut {k : SlotNo} {o : Outstanding} : b.mem.slots[k] = some o →
      Effect cfg b (handBack cfg o (.failed .timeout) (freeSlot k (b.reachTime o.deadline)))
  | idleExpiry (c : CtxId) : Effect cfg b (idleExpiry cfg c b)
  | groupExpiry : Effect cfg b (groupExpiry cfg b)
  | conflictExpiry (i : StreamId) : Effect cfg b (conflictExpiry i b)
  | captureExpiry (i : StreamId) : Effect cfg b (captureExpiry i b)
  | pfail (l : Bool) : Effect cfg b (lookAtPfail l b)
  | commit {c : CtxId} : (b.ctx c).state = .opened →
      Effect cfg b (beginCommit cfg c (b.modCtx c fun x => { x with mgmtWaiter := true }))
  | waits {c : CtxId} : (b.ctx c).state = .draining ∨ (b.ctx c).state = .marking →
      Effect cfg b (b.modCtx c fun x => { x with mgmtWaiter := true })
  | rollback {c : CtxId} (m : RollbackMode) : b.journal.state = .ready → b.journal.notice = false →
      (b.ctx c).state = .opened ∨ (b.ctx c).state = .draining ∨ (b.ctx c).state = .faulted →
      Effect cfg b (enterRollback cfg c m b)
  | clearFault {c : CtxId} : b.journal.state = .ready → clearable (b.ctx c) = true → Effect cfg b (clearFault cfg c b)
  | format : b.journal.notice = false → formatAllowed b = true → cfg.ringN ≠ 0 → Effect cfg b (format cfg b)

/-- What a command makes of a state, as far as the blocks and the active image go. -/
inductive Follows (s : State) : State → Prop
  | aside {t : State} (e : EventUnit) (n : Nat) : t.mgmt.active = s.mgmt.active →
      t.blocks = { s.blocks with events := e, clock := n } → Follows s t
  | event {t : State} {b : Blocks} : s.pins.resetLow = false → Effect s.mgmt.active s.blocks b →
      t.mgmt.active = s.mgmt.active → t.blocks = finishEvent s.mgmt.active b → Follows s t
  | applied {t : State} : s.blocks.journal.notice = false → applyRefused s.mgmt s.blocks = false →
      imageOk s.mgmt.staged = true → t.mgmt.active = s.mgmt.staged →
      t.blocks = applyEffect s.mgmt.active s.mgmt.staged s.blocks → Follows s t
  | reset {t : State} (f : FreeChoices) (m : MemoryPort) (mask : BitVec 18) :
      m.waiting = [] → (∀ (k : SlotNo) o, m.slots[k] = some o → o.owner = .orphan) →
      t.blocks = leaveReset t.mgmt.active s.pins.pfail ({ s.blocks with free := f }.resetTo m mask) → Follows s t

theorem Follows.refl (s : State) : Follows s s := .aside s.blocks.events s.blocks.clock rfl rfl

theorem Follows.same {s t : State} (ha : t.mgmt.active = s.mgmt.active) (hb : t.blocks = s.blocks) : Follows s t :=
  .aside s.blocks.events s.blocks.clock ha hb

theorem Follows.respond {s t : State} (h : Follows s t) {seq : Byte} {st : MgmtStatus} {p : Payload} :
    Follows s (respond seq st p t) := by
  cases h with
  | aside e n ha hb => exact .aside e n ha hb
  | event hup he ha hb => exact .event hup he ha hb
  | applied hn hr hi ha hb => exact .applied hn hr hi ha hb
  | reset f m mask hw hs hb => exact .reset f m mask hw hs hb

theorem Follows.withArgs {α : Type} {s : State} {p : Parsed α} {seq : Byte} {f : α → State} (h : ∀ x, Follows s (f x)) :
    Follows s (withArgs p seq s f) := by
  cases p with
  | good x => exact h x
  | bad n => exact (Follows.refl s).respond

theorem Follows.untilNotice {s t : State} {seq : Byte} (h : s.blocks.journal.notice = false → Follows s t) :
    Follows s (untilNotice seq s t) := by
  unfold Machine.untilNotice
  split
  · exact (Follows.refl s).respond
  · rename_i hn
    exact h (by simpa using hn)

theorem Follows.startWork {s : State} {seq : Byte} {st : MgmtStatus} {f : Blocks → Blocks}
    (hup : s.pins.resetLow = false) (h : Effect s.mgmt.active s.blocks (f s.blocks)) :
    Follows s (startWork seq st s f) :=
  .event hup h rfl (startWork_blocks seq st s f)

variable {s : State} (hup : s.pins.resetLow = false)
include hup

theorem follows_commit (seq : Byte) (args : List Byte) : Follows s (takeCommit seq args s) := by
  refine .withArgs fun k => .untilNotice fun _ => ?_
  unfold commitContext
  split
  · exact (Follows.refl s).respond
  · exact .startWork hup (.commit ‹_›)
  · exact .startWork hup (.waits (.inl ‹_›))
  · exact .startWork hup (.waits (.inr ‹_›))
  · exact (Follows.refl s).respond
  · exact (Follows.refl s).respond

theorem follows_abort (seq : Byte) (args : List Byte) : Follows s (takeAbort seq args s) := by
  refine .withArgs fun k => .untilNotice fun hn => ?_
  split
  · exact (Follows.refl s).respond
  · rename_i hmay
    have hready : (s.blocks.ctx k).state ≠ .idle → s.blocks.journal.state = .ready := fun hs => by
      by_contra hj
      exact hmay ⟨hs, hj⟩
    unfold abortContext
    split
    · exact (Follows.refl s).respond
    · exact (Follows.refl s).respond
    · exact (Follows.refl s).respond
    · rename_i hs
      exact .startWork hup (.rollback .restore (hready (by simp [hs])) hn (.inl hs))
    · rename_i hs
      exact .startWork hup (.rollback .restore (hready (by simp [hs])) hn (.inr (.inl hs)))
    · rename_i hs
      exact .startWork hup (.rollback .restore (hready (by simp [hs])) hn (.inr (.inr hs)))

theorem follows_clearFault (seq : Byte) (args : List Byte) : Follows s (takeClearFault seq args s) := by
  refine .withArgs fun k => .untilNotice fun _ => ?_
  split
  · rename_i hmay
    exact .startWork hup (.clearFault hmay.2 hmay.1)
  · exact (Follows.refl s).respond

theorem follows_forceRetire (seq : Byte) (args : List Byte) : Follows s (takeForceRetire seq args s) := by
  refine .withArgs fun k => .untilNotice fun hn => ?_
  split
  · rename_i hmay
    exact .startWork hup (.rollback .retireOnly hmay.2 hn (.inr (.inr hmay.1)))
  · exact (Follows.refl s).respond

theorem follows_format (seq : Byte) (args : List Byte) : Follows s (takeFormat seq args s) := by
  refine .withArgs fun _ => .untilNotice fun hn => ?_
  split
  · exact (Follows.refl s).respond
  split
  · exact (Follows.refl s).respond
  · rename_i hmay hring
    exact .startWork hup (.format hn (by simpa using hmay) hring)

omit hup

theorem follows_apply (s : State) (seq : Byte) (args : List Byte) : Follows s (takeApply seq args s) := by
  refine .withArgs fun _ => .untilNotice fun hn => ?_
  split
  · exact (Follows.refl s).respond
  · rename_i hmay
    split
    · exact (Follows.refl s).respond
    · rename_i hok
      refine Follows.respond ?_
      unfold applied
      split
      · exact .refl s
      · exact .applied hn (by simpa using hmay) (by simp [imageOk, hok]) (by dsimp only) (by dsimp only)

theorem warmReset_owner {m : MemoryPort} {k : SlotNo} {o : Outstanding} (h : m.warmReset.slots[k] = some o) :
    o.owner = .orphan := by
  rw [warmReset_slot] at h
  obtain ⟨x, _, rfl⟩ := Option.map_eq_some_iff.1 h
  rfl

theorem follows_warmReset (s : State) (seq : Byte) (args : List Byte) : Follows s (takeWarmReset seq args s) := by
  refine .withArgs fun _ => Follows.respond ?_
  refine .reset s.blocks.free s.blocks.mem.warmReset s.blocks.events.mask rfl (fun k o h => warmReset_owner h) ?_
  unfold Blocks.warmReset
  dsimp only

theorem follows_command (hup : s.pins.resetLow = false) (code : CommandCode) (seq : Byte) (args : List Byte) :
    Follows s (takeCommand code seq args s) := by
  have hreport {p : Payload} : Follows s (respond seq .ok p s) := (Follows.refl s).respond
  have hevents {f : EventUnit → EventUnit} : Follows s (respond seq .ok .empty { s with blocks := s.blocks.modEvents f }) :=
    .aside (f s.blocks.events) s.blocks.clock rfl rfl
  cases code with
  | warmReset => exact follows_warmReset s seq args
  | identify => exact .withArgs fun _ => hreport
  | readStatus => exact .withArgs fun _ => hreport
  | readContext => exact .withArgs fun _ => hreport
  | readEvents => exact .withArgs fun _ => hreport
  | readConfig => exact .withArgs fun _ => .untilNotice fun _ => hreport
  | ackEvents => exact .withArgs fun _ => .untilNotice fun _ => hevents
  | setEventMask => exact .withArgs fun _ => .untilNotice fun _ => hevents
  | writeConfig => exact .withArgs fun _ => .untilNotice fun _ => .same rfl rfl
  | apply => exact follows_apply s seq args
  | load =>
    refine .withArgs fun _ => .untilNotice fun _ => ?_
    split
    · exact (Follows.refl s).respond
    · exact .same rfl rfl
  | store =>
    refine .withArgs fun _ => .untilNotice fun _ => ?_
    split
    · exact (Follows.refl s).respond
    · exact .same rfl rfl
  | commit => exact follows_commit hup seq args
  | abort => exact follows_abort hup seq args
  | clearFault => exact follows_clearFault hup seq args
  | forceRetire => exact follows_forceRetire hup seq args
  | format => exact follows_format hup seq args

theorem follows_frame (hup : s.pins.resetLow = false) (f : List Byte) : Follows s (takeFrame f s) := by
  unfold takeFrame
  split
  · exact (Follows.refl s).respond
  · exact (Follows.refl s).respond
  · exact follows_command hup _ _ _

theorem follows_managed {t : State} (h : s.pins.resetLow = false → Follows s t) : Follows s (s.managed t) := by
  unfold State.managed
  split
  · exact .refl s
  · rename_i hlow
    exact h (by simpa using hlow)

theorem follows_event {f : Blocks → Blocks} (h : Effect s.mgmt.active s.blocks (f s.blocks)) :
    Follows s (s.event f) := by
  cases hlow : s.pins.resetLow with
  | true =>
    rw [State.event, if_pos hlow]
    exact .refl s
  | false =>
    refine .event hlow h ?_ (by rw [event_blocks, if_neg (by simp [hlow])])
    unfold State.event
    rw [if_neg (by simp [hlow])]

theorem follows_complete (s : State) (id : OpId) (k : Completion) : Follows s (s.complete id k) := by
  cases hm : s.blocks.mem.matching id with
  | some o =>
    rw [Completions.complete_matched hm]
    exact follows_event (f := endOperation s.mgmt.active id.slot o (endOf o.op k)) (.ended _ (RestoreReads.matching_slot hm).2)
  | none =>
    rw [Completions.complete_unmatched hm]
    exact .refl s

theorem follows_timeout (s : State) (k : SlotNo) : Follows s (s.timeout k) := by
  unfold State.timeout
  split
  · exact follows_event (.timedOut ‹_›)
  · exact .refl s

theorem follows_storeEnd (s : State) (how : ProgrammingEnd) : Follows s (storeEnd how s) := by
  unfold storeEnd
  split
  · rename_i p _
    refine .aside (s.blocks.events.raise .storeDone) (programmingTime p how s.blocks).clock ?_ ?_
    · cases how <;> rfl
    · cases how <;> rfl
  · exact .refl s

theorem drawAbandon_blocks (m : Management) (b : Blocks) :
    (drawAbandon m b).2 = { b with free := (drawAbandon m b).2.free } := by
  unfold drawAbandon
  split <;> rfl

theorem follows_coldReset (s : State) (p : Bool) : Follows s (s.coldReset p) := by
  refine .reset (drawAbandon s.mgmt s.blocks).2.free (s.blocks.mem.coldReset p) 0 rfl (fun k o h => ?_) ?_
  · rw [coldReset_slot] at h
    cases h
  · unfold State.coldReset Blocks.coldReset
    dsimp only
    rw [drawAbandon_blocks]

theorem follows_pfail (s : State) (l : Bool) : Follows s (s.pfailLevel l) := by
  unfold State.pfailLevel
  cases hlow : s.pins.resetLow with
  | true =>
    rw [State.event, if_pos hlow]
    exact .same rfl rfl
  | false =>
    refine .event hlow (.pfail l) ?_ (by rw [event_blocks, if_neg (by simp [hlow])])
    unfold State.event
    rw [if_neg (by simp [hlow])]

/-- What a command makes of a state. -/
theorem exec_follows {c : Instr} {t : State} (h : exec c s = .next t) : Follows s t := by
  cases c <;> obtain rfl := Host.Outcome.next.inj h
  case read => exact follows_event (.arrival _ _)
  case write => exact follows_event (.arrival _ _)
  case barrier => exact follows_event (.arrival _ _)
  case upstreamCommit => exact follows_event (.arrival _ _)
  case identify => exact follows_managed fun hup => follows_command hup .identify _ _
  case readStatus => exact follows_managed fun hup => follows_command hup .readStatus _ _
  case readContext => exact follows_managed fun hup => follows_command hup .readContext _ _
  case readEvents => exact follows_managed fun hup => follows_command hup .readEvents _ _
  case ackEvents => exact follows_managed fun hup => follows_command hup .ackEvents _ _
  case setEventMask => exact follows_managed fun hup => follows_command hup .setEventMask _ _
  case readConfig => exact follows_managed fun hup => follows_command hup .readConfig _ _
  case writeConfig => exact follows_managed fun hup => follows_command hup .writeConfig _ _
  case apply => exact follows_managed fun hup => follows_command hup .apply _ _
  case load => exact follows_managed fun hup => follows_command hup .load _ _
  case store => exact follows_managed fun hup => follows_command hup .store _ _
  case storeProgrammingEnd how => exact follows_managed fun _ => follows_storeEnd s how
  case managementCommit => exact follows_managed fun hup => follows_command hup .commit _ _
  case abort => exact follows_managed fun hup => follows_command hup .abort _ _
  case clearFault => exact follows_managed fun hup => follows_command hup .clearFault _ _
  case forceRetire => exact follows_managed fun hup => follows_command hup .forceRetire _ _
  case format => exact follows_managed fun hup => follows_command hup .format _ _
  case warmReset => exact follows_managed fun hup => follows_command hup .warmReset _ _
  case commandFrameRejected => exact follows_managed fun hup => follows_frame hup _
  case resetNLow => exact .same rfl rfl
  case coldReset p => exact follows_coldReset s p
  case powerFailNotice l => exact follows_pfail s l
  case idleTimerExpiry => exact follows_event (.idleExpiry _)
  case groupTimerExpiry => exact follows_event .groupExpiry
  case conflictWaitExpiry => exact follows_event (.conflictExpiry _)
  case captureStallExpiry => exact follows_event (.captureExpiry _)
  case downstreamTimeout k => exact follows_timeout s k
  all_goals exact follows_complete s _ _

/-- What a step makes of a state. -/
theorem step_follows {t : State} (h : step s = .next t) : ∃ s' : State, s'.blocks = s.blocks ∧ s'.mgmt = s.mgmt
    ∧ s'.pins = s.pins ∧ Follows s' t := by
  unfold step at h
  split at h
  · obtain rfl := Host.Outcome.next.inj h
    exact ⟨s, rfl, rfl, rfl, .aside s.blocks.events (s.blocks.clock + 1) rfl rfl⟩
  · rename_i rest _
    exact ⟨s.withQueue rest, rfl, rfl, rfl, exec_follows h⟩

end Sys2Proof.Commands


/-! SUPPORT. The ends of operations, the expiries, FORMAT, the notice, APPLY and the resets keep the context records and
the tracking entries in order, and so does every step. -/

namespace Sys2Proof.Tracked

open Sys2Proof.Machine Sys2Proof.Safety Sys2Proof.Laws Sys2Proof.Frames Sys2Proof.Order Sys2Proof.Commands

variable {cfg : Image} {b c : Blocks} {k : CtxId}

/-! ## The ends of operations -/

theorem Sound.answer (h : Sound cfg b) {i : StreamId} {st : UpStatus} {bytes : Option LineData} :
    Sound cfg (answer i st bytes b) := h.modStream

theorem Sound.passReadEnd (h : Sound cfg b) {i : StreamId} {journaled : Bool} {o : OpEnd} {line : Addr} :
    Sound cfg (passReadEnd i journaled o line b) := by
  unfold Machine.passReadEnd
  split
  · exact .ite (Sound.ite h.answer h).modHeld (.ite h.answer h)
  · exact .ite (Sound.ite h.answer h).modHeld (.ite h.answer h)

theorem Sound.directWriteEnd (h : Sound cfg b) {i : StreamId} {o : OpEnd} : Sound cfg (directWriteEnd i o b) := by
  unfold Machine.directWriteEnd
  split
  · exact h.modStream
  · exact h.modStream

theorem Sound.captureFailed (h : Sound cfg b) {id : Nat} {st : DownStatus} : Sound cfg (captureFailed cfg id st b) := by
  unfold Machine.captureFailed
  split
  · exact (h.removeEntries.untouched (untouched_releaseSpace _ _ _)).discardHeld.reportFault
  · exact h

theorem Sound.captureEnd (h : Sound cfg b) {id : Nat} {o : OpEnd} : Sound cfg (captureEnd cfg id o b) := by
  have hgiven : Sound cfg (b.modJournal fun j => { j with promises := j.promises.erase id }) := h.modJournal
  unfold Machine.captureEnd
  dsimp only
  split
  · unfold captureData
    split
    · rename_i hentry
      exact .ite (hgiven.stageUndo (List.mem_of_find?_eq_some hentry)) hgiven
    · exact hgiven
  · exact hgiven.captureFailed
  · exact hgiven.captureFailed

theorem Sound.settleContributors (h : Sound cfg b) {reason : Option LossReason} {cs : List (StreamId × Nat)} :
    Sound cfg (settleContributors reason cs b) := h.untouched (untouched_settleContributors _ _ _)

theorem Sound.wakeHeldFull (h : Sound cfg b) : Sound cfg (wakeHeldFull b) := h.wake

theorem Sound.releaseFailed (h : Sound cfg b) {e : HeldEntry} {st : DownStatus} :
    Sound cfg (releaseFailed cfg e st b) := by
  unfold Machine.releaseFailed
  dsimp only
  split
  · exact h.modHeld.settleContributors.wakeHeldFull.reportFault
  · exact h.modHeld.settleContributors.wakeHeldFull

theorem Sound.releaseEnd (h : Sound cfg b) {line : Addr} {o : OpEnd} : Sound cfg (releaseEnd cfg line o b) := by
  unfold Machine.releaseEnd
  split
  · exact h.modHeld.settleContributors.modHeld.wakeHeldFull
  · exact h.releaseFailed
  · exact h.releaseFailed
  · exact h

theorem Sound.detachedEnd (h : Sound cfg b) {line : Addr} {o : OpEnd} : Sound cfg (detachedEnd line o b) := by
  unfold Machine.detachedEnd
  split
  · dsimp only
    split
    · exact h.modHeld.settleContributors.modHeld
    · exact h.modHeld.settleContributors
  · exact h

theorem Sound.slotLogged (h : Sound cfg b) (x : StagedSlot) : Sound cfg (slotLogged b x) := by
  unfold Machine.slotLogged recordDurable
  split
  · split
    · exact h.updateEntries.modHeld.restoreLogged
    · exact h
  · exact h

theorem Sound.slotMarked (h : Sound cfg b) (x : StagedSlot) : Sound cfg (slotMarked cfg b x) := by
  unfold Machine.slotMarked
  split
  · exact h.markerDurable
  · exact h

theorem Sound.burstPersisted (h : Sound cfg b) : Sound cfg (burstPersisted cfg b) := by
  unfold Machine.burstPersisted durableAdvance
  exact (((h.modJournal.modJournal.foldl (fun x h => h.slotLogged x) _).foldl (f := Machine.slotMarked cfg)
    (fun x h => h.slotMarked x) _).serveBuffer _).burstCheck

theorem Sound.burstEnd (h : Sound cfg b) {o : OpEnd} : Sound cfg (burstEnd cfg o b) := by
  unfold Machine.burstEnd
  split
  · exact h.modJournal
  split
  · exact h.burstPersisted
  · exact Sound.journalFail h.modJournal
  · exact Sound.journalFail h.modJournal

theorem Sound.evalPause (h : Sound cfg b) : Sound cfg (evalPause cfg b) := h.untouched (untouched_evalPause _ _)

theorem Sound.updateEnd (h : Sound cfg b) {copy : AnchorCopy} {gen : Count32} {head : RingPtr} {o : OpEnd} :
    Sound cfg (updateEnd cfg copy gen head o b) := by
  have hfailed : ∀ st, Sound cfg (anchorFailed cfg copy st b) := fun st => .ite h.modJournal.anchorCheck h.journalFail
  unfold Machine.updateEnd
  split
  · exact h
  split
  · have hrisen : Sound cfg (spaceRisen cfg
        (b.modJournal fun j => { j with anchored := head, anchor := j.anchor.written copy gen })) :=
      h.modJournal.wake.evalPause
    exact hrisen.anchorCheck
  · exact hfailed _
  · exact hfailed _

theorem Sound.formatCopyA (h : Sound cfg b) : Sound cfg (formatCopyA cfg b) := h.modJournal.writeAnchor

theorem Sound.formatCopyB (h : Sound cfg b) : Sound cfg (formatCopyB cfg b) := .ite h h.writeAnchor

theorem Sound.finishSecond (h : Sound cfg b) : Sound cfg (finishSecond cfg b) := .ite h.modJournal h.writeAnchor

theorem Sound.formatEnd (h : Sound cfg b) {onDone : Blocks → Blocks} (hdone : Sound cfg (onDone b)) {o : OpEnd} :
    Sound cfg (formatEnd cfg onDone o b) := by
  unfold Machine.formatEnd
  split
  · exact h
  split
  · exact hdone
  · exact h.journalFail
  · exact h.journalFail

theorem Sound.finishDone (h : Sound cfg b) : Sound cfg (finishDone b) := by
  have hcounter (n : Epoch) : Sound cfg { b with epochs := { b.epochs with counter := n } } := h.aside rfl rfl
  exact .ite h.modJournal (hcounter _).modJournal.endRecovery

theorem Sound.finishEnd (h : Sound cfg b) {onDone : Blocks → Blocks} (hdone : Sound cfg (onDone b)) {o : OpEnd} :
    Sound cfg (finishEnd onDone o b) := by
  unfold Machine.finishEnd
  split
  · exact h
  split
  · exact hdone
  · exact h.recoveryFail

theorem Sound.anchorEnd (h : Sound cfg b) {p : AnchorPurpose} {o : OpEnd} : Sound cfg (anchorEnd cfg p o b) := by
  have hidle : Sound cfg (anchorIdle b) := h.modJournal
  unfold Machine.anchorEnd
  dsimp only
  split
  · exact hidle.updateEnd
  · exact hidle.formatEnd hidle.formatCopyB
  · exact hidle.formatEnd hidle.modJournal.raise.wakeAll
  · exact hidle.finishEnd hidle.finishSecond
  · exact hidle.finishEnd hidle.finishDone

theorem Sound.restoreReadEnd (h : Sound cfg b) {line : Addr} {o : OpEnd} :
    Sound cfg (restoreReadEnd cfg k line o b) := by
  unfold Machine.restoreReadEnd
  split
  · exact h.requestRestoreWrite
  · exact h.leaveRestoring.reportRestoreFault
  · exact h.leaveRestoring.reportRestoreFault
  · exact h.leaveRestoring

theorem Sound.restoreWriteFailed (h : Sound cfg b) {line : Addr} {st : DownStatus} :
    Sound cfg (restoreWriteFailed cfg k line st b) := by
  unfold Machine.restoreWriteFailed
  split
  · exact h.leaveRestoring.reportRestoreFault
  · exact h.leaveRestoring

theorem Sound.restoreWriteEnd (h : Sound cfg b) {line : Addr} {o : OpEnd} :
    Sound cfg (restoreWriteEnd cfg k line o b) := by
  unfold Machine.restoreWriteEnd
  split
  · exact h.leaveRestoring.modRollback
  · exact h.restoreWriteFailed
  · exact h.restoreWriteFailed

theorem Sound.handBack (h : Sound cfg b) {o : Outstanding} {e : OpEnd} : Sound cfg (handBack cfg o e b) := by
  unfold Machine.handBack
  split
  · exact h.passReadEnd
  · exact h.directWriteEnd
  · exact h.captureEnd
  · exact h.releaseEnd
  · exact h.detachedEnd
  · exact h.burstEnd
  · exact h.anchorEnd
  · exact h.restoreReadEnd
  · exact h.restoreWriteEnd
  · exact h.recoveryReadEnd
  · exact h.recoveryWriteEnd
  · exact h.burstCheck
  · exact .ite h.formatCopyA h.modJournal
  · exact h
  · exact h

/-! ## Expiries, the notice, FORMAT -/

theorem Sound.arrive (h : Sound cfg b) {i : StreamId} {q : Request} : Sound cfg (arrive i q b) :=
  .ite h.modStream (.ite (h.aside rfl rfl) h.modStream)

theorem Sound.idleExpiry (h : Sound cfg b) : Sound cfg (idleExpiry cfg k b) := by
  unfold Machine.idleExpiry
  dsimp only
  split
  · split
    · exact h.beginCommit (w := (b.ctx k).waiters) (m := true) ‹_› rfl rfl
    · exact h
  · exact h

theorem Sound.groupExpiry (h : Sound cfg b) : Sound cfg (groupExpiry cfg b) := by
  unfold Machine.groupExpiry
  split
  · have hdue (t : Nat) : Sound cfg ((b.reachTime t).modJournal fun j => { j with groupTimer := .due }) := h.aside rfl rfl
    exact (hdue _).burstCheck
  · exact h

theorem Sound.reachTime (h : Sound cfg b) {t : Nat} : Sound cfg (b.reachTime t) := h.aside rfl rfl

theorem Sound.conflictExpiry (h : Sound cfg b) {i : StreamId} : Sound cfg (conflictExpiry i b) := by
  unfold Machine.conflictExpiry
  dsimp only
  split
  · exact h.reachTime.untouched (untouched_refuseWrite _ _ _ _)
  · exact h

theorem Sound.captureExpiry (h : Sound cfg b) {i : StreamId} : Sound cfg (captureExpiry i b) := by
  unfold Machine.captureExpiry
  dsimp only
  split
  · exact h.reachTime.untouched (untouched_refuseWrite _ _ _ _)
  · exact h

/-- Context records that keep their epochs and stay consistent. -/
theorem Sound.byRecords (h : Sound cfg b) (htrack : c.track = b.track)
    (hlaw : ∀ k, ctxLaw (b.ctx k) = true → ctxLaw (c.ctx k) = true) (hepoch : ∀ k, (c.ctx k).epoch = (b.ctx k).epoch) :
    Sound cfg c := by
  refine ⟨fun k => hlaw k (h.ctxs k), by rw [htrack]; exact h.lines, fun e he => ?_, fun k => ?_⟩
  · rw [hepoch]
    exact h.live e (htrack ▸ he)
  · simpa only [Blocks.trackedCount, Blocks.entriesOf, htrack] using h.quota k

theorem ctxLaw_powerFail {x : Context} (h : ctxLaw x = true) (waiting : List MemRequest) (k : CtxId) :
    ctxLaw (x.powerFail waiting k) = true := by
  rw [ctxLaw_iff] at h ⊢
  simp only [Context.powerFail, ne_eq, Option.map_eq_none_iff]
  grind

theorem Sound.takeNotice (h : Sound cfg b) : Sound cfg (takeNotice b) := by
  have hsettled : Sound cfg (settleWaiting (Machine.discardHeld (fun h => decide (h.state ≠ .issued)) none
      (b.mapStreams fun _ r => r.powerFail))) := by
    refine (h.untouched (untouched_mapStreams _ b)).discardHeld.foldl (fun r h => ?_) _
    split
    · exact h.modStream
    · exact h
  have hctx : ∀ k, (Machine.takeNotice b).ctx k = ((settleWaiting (Machine.discardHeld
      (fun h => decide (h.state ≠ .issued)) none (b.mapStreams fun _ r => r.powerFail))).ctx k).powerFail b.mem.waiting k :=
    fun k => by
      unfold Machine.takeNotice Blocks.ctx
      dsimp only [clearWaiting, keepOverlays, Blocks.modMem, Blocks.modHeld, Blocks.modJournal, Blocks.modRecovery,
        stopWriting]
      rw [Fin.getElem_fin, Vector.getElem_ofFn]
  refine hsettled.byRecords rfl (fun k hk => ?_) fun k => ?_
  · rw [hctx]
    exact ctxLaw_powerFail hk _ _
  · rw [hctx]
    rfl

theorem Sound.lookAtPfail (h : Sound cfg b) {l : Bool} : Sound cfg (lookAtPfail l b) := .ite h.takeNotice h

/-- Blocks with no tracking entry and every context consistent. -/
theorem Sound.empty (hctx : ∀ k, ctxLaw (b.ctx k) = true) (htrack : b.track = []) : Sound cfg b :=
  ⟨hctx, by simp [htrack], by simp [htrack], fun k => by simp [Blocks.trackedCount, Blocks.entriesOf, htrack]⟩

theorem endEpochs_ctx (b : Blocks) (k : CtxId) : (endEpochs b).ctx k = Context.ended (b.ctx k).abortOutcome := by
  simp [endEpochs, Blocks.ctx]

theorem Sound.format : Sound cfg (format cfg b) := by
  have hended (d : Blocks) : Sound cfg (endEpochs (Machine.removeEntries (fun _ => true) d)) := by
    refine .empty (fun k => by rw [endEpochs_ctx]; rfl) ?_
    show (Machine.removeEntries (fun _ => true) d).track = []
    rw [removeEntries_track]
    simp
  exact .ite (hended _).modJournal.wakeAll (hended _).modJournal.wakeAll.formatCopyA

theorem Sound.resetTo (f : FreeChoices) (m : MemoryPort) (mask : BitVec 18) :
    Sound cfg ({ b with free := f }.resetTo m mask) := by
  refine .empty (fun k => ?_) rfl
  have hctx : ({ b with free := f }.resetTo m mask).ctx k = Context.reset := by simp [Blocks.resetTo, Blocks.ctx]
  rw [hctx]
  rfl

/-- Where every context is IDLE no line is tracked. -/
theorem Sound.track_nil (h : Sound cfg b) (hidle : b.allIdle = true) : b.track = [] := by
  by_contra hne
  obtain ⟨e, he⟩ := List.exists_mem_of_ne_nil _ hne
  refine h.not_idle he ?_
  simpa [Blocks.allIdle, List.all_eq_true] using List.all_eq_true.1 hidle e.ctx (mem_allCtxs _)

/-! ## Commands and steps -/

theorem clearable_state {x : Context} (h : clearable x = true) : x.state = .faulted := by
  unfold clearable at h
  split at h
  · simp only [Bool.and_eq_true, decide_eq_true_eq] at h
    exact h.1
  · cases h

theorem Sound.clearFault (h : Sound cfg b) (hmay : clearable (b.ctx k) = true) : Sound cfg (clearFault cfg k b) := by
  have hfaulted := clearable_state hmay
  have hopened (t : Option Nat) : Sound cfg (b.modCtx k fun x =>
      { x with state := .opened, fault := none, idleTimer := t }) := h.modCtx fun hlaw => by
    rw [ctxLaw_iff] at hlaw ⊢
    grind
  have hstarted : Sound cfg (startIdleTimer cfg k (b.modCtx k fun x => { x with state := .opened, fault := none })) := by
    unfold startIdleTimer
    dsimp only
    rw [Blocks.modCtx_modCtx]
    exact hopened _
  exact hstarted.wakeContext

theorem Sound.freeSlot (h : Sound cfg b) {k : SlotNo} : Sound cfg (freeSlot k b) := h.aside rfl rfl

theorem Sound.effect (h : Sound cfg b) (he : Effect cfg b c) : Sound cfg c := by
  cases he with
  | arrival i q => exact h.arrive
  | ended e hk => exact h.freeSlot.handBack
  | timedOut hk => exact h.reachTime.freeSlot.handBack
  | idleExpiry k => exact h.idleExpiry
  | groupExpiry => exact h.groupExpiry
  | conflictExpiry i => exact h.conflictExpiry
  | captureExpiry i => exact h.captureExpiry
  | pfail l => exact h.lookAtPfail
  | commit hopen => exact h.beginCommit (w := (b.ctx _).waiters) (m := true) hopen rfl rfl
  | waits hstate =>
    refine h.modCtx fun hlaw => ?_
    rw [ctxLaw_iff] at hlaw ⊢
    grind
  | rollback m _ _ hstate => exact h.enterRollback (by rcases hstate with hs | hs | hs <;> simp [hs])
  | clearFault _ hmay => exact h.clearFault hmay
  | format _ _ _ => exact .format

/-- A command keeps the context records and the tracking entries in order. -/
theorem sound_follows {s t : State} (hf : Follows s t) (h : Sound s.mgmt.active s.blocks) :
    Sound t.mgmt.active t.blocks := by
  cases hf with
  | aside e n ha hb =>
    rw [ha, hb]
    exact h.aside rfl rfl
  | event _ he ha hb =>
    rw [ha, hb]
    exact (h.effect he).finishEvent
  | applied _ hr _ ha hb =>
    rw [ha, hb]
    have hidle : s.blocks.allIdle = true := by
      by_contra hne
      simp [applyRefused, hne] at hr
    have hnew : Sound s.mgmt.staged s.blocks := .empty h.ctxs (h.track_nil hidle)
    have hgeometry : Sound s.mgmt.staged (regeometry s.mgmt.staged s.blocks) := .ite hnew.modJournal.wakeAll hnew
    exact (Sound.ite hgeometry hnew).evalPause.anchorCheck.finishEvent
  | reset f m mask _ _ hb =>
    rw [hb]
    exact (Sound.resetTo f m mask).startRecovery.lookAtPfail.finishEvent

theorem sound_step {s t : State} (hctx : ctxsLaw s.blocks = true) (htrack : trackLaw s.mgmt.active s.blocks = true)
    (hstep : step s = .next t) : Sound t.mgmt.active t.blocks := by
  obtain ⟨s', hblocks, hmgmt, _, hf⟩ := step_follows hstep
  refine sound_follows hf ?_
  rw [hmgmt, hblocks]
  exact (sound_iff _ _).2 ⟨hctx, htrack⟩

/-- Settles O4: every change of a context's state brings the fields that belong to it; the record of a tracked context is
not IDLE, so the UNDO count rises in no IDLE one. -/
theorem stepKeepsContextLaw : Obligations.StepKeepsContextLaw :=
  fun _ _ hctx htrack hstep => ((sound_iff _ _).1 (sound_step hctx htrack hstep)).1

/-- Settles O5: only a first touch makes an entry, of an untracked line in a context below its quota; an epoch ends with
its entries; the quotas change only while every context is IDLE. -/
theorem stepKeepsTrackingLaw : Obligations.StepKeepsTrackingLaw :=
  fun _ _ hctx htrack hstep => ((sound_iff _ _).1 (sound_step hctx htrack hstep)).2

end Sys2Proof.Tracked


/-! SUPPORT. The queue of commands, the state after reset. -/

namespace Sys2Proof.Start

open Sys2Proof.Machine Sys2Proof.Safety

/-- Settles O1. -/
theorem stepTakesTheFrontCommand : Obligations.StepTakesTheFrontCommand := by
  refine ⟨fun c rest s => rfl, fun s hempty => ?_⟩
  unfold step
  rw [hempty]
  rfl

/-- Every command has a meaning. -/
theorem exec_next (c : Instr) (s : State) : ∃ t, exec c s = .next t := by cases c <;> exact ⟨_, rfl⟩

/-- Settles O2. -/
theorem everyStepGoesOn : Obligations.EveryStepGoesOn := by
  intro s
  unfold GoesOn step
  split
  · exact ⟨_, rfl⟩
  · exact exec_next _ _

/-- Settles O3. -/
theorem resetLeavesTheSpecsValues : Obligations.ResetLeavesTheSpecsValues := by
  unfold Obligations.ResetLeavesTheSpecsValues
  decide

end Sys2Proof.Start


/-! SUPPORT. Arrivals by the queue, and the READs, WRITEs and COMMITs that are answered, stalled or handed on at once
(R6, R10, R12, R28, R138). -/

namespace Sys2Proof.Arrivals

open Sys2Proof.Machine Sys2Proof.Safety Sys2Proof.Laws Sys2Proof.Order

/-! ## Arrivals by the queue (R138) -/

theorem enterSafe_congr {b b' : Blocks} (hj : b'.journal = b.journal) (hm : b'.mem = b.mem) (h : enterSafe b = b) :
    enterSafe b' = b' := by
  unfold enterSafe at h ⊢
  rw [hj, hm]
  split at h
  · rename_i hsafe
    have hstate := congrArg (fun x : Blocks => x.journal.state) h
    simp only [Blocks.modJournal_journal] at hstate
    simp [← hstate] at hsafe
  · rename_i hsafe
    rw [if_neg hsafe]

/-- Where nothing is due, no grant can be made and SAFE is not to be entered, an event is over. -/
theorem finishEvent_over {cfg : Image} {b : Blocks} (h : still cfg b = true) (hf : noFresh b = true)
    (hg : grantOne cfg b = none) (hs : enterSafe b = b) : finishEvent cfg b = b := by
  unfold finishEvent
  rw [settle_still h hf, arbitrate_none hg, hs]

theorem noFresh_modStream {b : Blocks} (hf : noFresh b = true) (i : StreamId) {f : StreamRec → StreamRec}
    (hp : (f (b.stream i)).phase ≠ .fresh) : noFresh (b.modStream i f) = true := by
  rw [noFresh_iff] at hf ⊢
  intro k
  rw [Blocks.modStream_stream]
  split
  · exact hp
  · exact hf k

/-- A change of a stream's record beside its phase and its count makes nothing due. -/
theorem quiet_record {cfg : Image} {b : Blocks} (h : still cfg b = true) (hf : noFresh b = true) (i : StreamId)
    {f : StreamRec → StreamRec} (hp : (f (b.stream i)).phase = (b.stream i).phase)
    (ho : (f (b.stream i)).outstanding = (b.stream i).outstanding) :
    still cfg (b.modStream i f) = true ∧ noFresh (b.modStream i f) = true := by
  refine ⟨still_modStream h i f ?_, ?_⟩
  · have hdue := ((still_iff cfg b).1 h).2.2.2 i
    simpa only [barrierDue, countDue, Blocks.modStream_stream_same, hp, ho] using hdue
  · exact noFresh_modStream hf i (by rw [hp]; exact (noFresh_iff b).1 hf i)

theorem still_modEvents {cfg : Image} {b : Blocks} (h : still cfg b = true) (f : EventUnit → EventUnit) :
    still cfg (b.modEvents f) = true :=
  still_of h (fun _ => rfl) (fun _ => rfl) rfl rfl rfl rfl rfl
    (serveOne_none_congr (b := b) (cfg := cfg) rfl ((still_iff cfg b).1 h).2.1) (fun _ => rfl) (fun _ hl => hl)
    ((still_iff cfg b).1 h).2.2.2

theorem event_up {s : State} (hup : s.pins.resetLow = false) (f : Blocks → Blocks) :
    s.event f = after s (finishEvent s.mgmt.active (f s.blocks)) := by
  unfold State.event
  rw [if_neg (by simp [hup])]
  rfl

theorem exec_arrives {c : Instr} {s : State} {i : StreamId} {q : Request} (h : arrivalOf c = some (i, q))
    (hup : s.pins.resetLow = false) : exec c s = .next (after s (finishEvent s.mgmt.active (arrive i q s.blocks))) := by
  rw [exec_arrival h, event_up hup]

/-- Settles O13: the queue and the notice decide what `arrive` does; where nothing else is due that is the event, but for
the current request of an empty queue. -/
theorem arrivalByTheQueue : Obligations.ArrivalByTheQueue := by
  intro c i q s hc hup hst hf hg hsafe
  have hover {b : Blocks} (h : still s.mgmt.active b = true ∧ noFresh b = true) (hj : b.journal = s.blocks.journal)
      (hm : b.mem = s.blocks.mem) : finishEvent s.mgmt.active b = b :=
    finishEvent_over h.1 h.2 (grantOne_none_congr (by rw [hj]) hm hg) (enterSafe_congr hj hm hsafe)
  rw [exec_arrives hc hup]
  refine ⟨fun hn hne hroom => ?_, fun hn hq => ?_, fun hn => ?_, fun hn hfull => ?_⟩
  · have harrive : arrive i q s.blocks = s.blocks.modStream i fun r => { r with queue := r.queue ++ [q] } := by
      unfold arrive
      rw [if_neg (by simp [hn]), if_neg (by simpa [Config.queueDepth] using hroom)]
      refine modStream_congr _ _ ?_
      have hsome : (s.blocks.stream i).queue.isEmpty = false := by
        cases hq : (s.blocks.stream i).queue with
        | nil => simp [hq] at hne
        | cons _ _ => rfl
      simp [StreamRec.enqueue, hsome]
    rw [harrive, hover (quiet_record hst hf i rfl rfl) rfl rfl]
  · rw [arrive_idle hn hq]
  · have harrive : arrive i q s.blocks = sends i (responseTo q .power none) s.blocks := by
      unfold arrive sends
      rw [if_pos hn]
    rw [harrive, hover (b := sends i _ s.blocks) (quiet_record hst hf i
      (f := fun r => { r with sent := r.sent ++ [responseTo q .power none] }) rfl rfl) rfl rfl]
  · have harrive : arrive i q s.blocks = s.blocks.modEvents fun e =>
        { e with pending := e.pending ||| (1#18 <<< EventFlag.portError.bit), lastPortError := some i } := by
      unfold arrive
      rw [if_neg (by simp [hn]), if_pos hfull]
      rfl
    rw [harrive, hover ⟨still_modEvents hst _, hf⟩ rfl rfl]

/-! ## The current request of an idle stream -/

theorem handleCurrent_read (cfg : Image) (i : StreamId) (tag : Tag) (a : Addr) (b : Blocks) :
    handleCurrent cfg i (current i ⟨tag, .read a⟩ b) = handleRead cfg i (lineOf a) (current i ⟨tag, .read a⟩ b) := by
  simp [handleCurrent]

theorem handleCurrent_write (cfg : Image) (i : StreamId) (tag : Tag) (a : Addr) (m : ByteMask) (d : LineData)
    (b : Blocks) : handleCurrent cfg i (current i ⟨tag, .write a m d⟩ b) =
      handleWrite cfg i (lineOf a) m d (current i ⟨tag, .write a m d⟩ b) := by
  simp [handleCurrent]

theorem handleCurrent_commit (cfg : Image) (i : StreamId) (tag : Tag) (b : Blocks) :
    handleCurrent cfg i (current i ⟨tag, .commit⟩ b) = handleCommit cfg i (current i ⟨tag, .commit⟩ b) := by
  simp [handleCurrent]

theorem classifyRead_current (cfg : Image) (i : StreamId) (q : Request) (b : Blocks) (line : Addr) :
    classifyRead cfg (current i q b) line = classifyRead cfg b line := rfl

theorem classifyWrite_current (cfg : Image) (i k : StreamId) (q : Request) (b : Blocks) (line : Addr) (m : ByteMask) :
    classifyWrite cfg (current i q b) k line m = classifyWrite cfg b k line m := rfl

theorem classifyCommit_current (cfg : Image) (i k : StreamId) (q : Request) (b : Blocks) :
    classifyCommit cfg (current i q b) k = classifyCommit cfg b k := rfl

/-- The event of a request on an idle stream of a part at rest that leaves the ports as they are and nothing due. -/
theorem arrival_over {s : State} {i : StreamId} (hs : atRest s = true) (hi : idleStream (s.blocks.stream i) = true)
    (q : Request) {b : Blocks} (hb : handleCurrent s.mgmt.active i (current i q s.blocks) = b)
    (hst : still s.mgmt.active b = true) (hf : noFresh b = true) (hj : b.journal = s.blocks.journal)
    (hm : b.mem = s.blocks.mem) : s.event (arrive i q) = after s b := by
  obtain ⟨_, hn, _, _, hg⟩ := (atRest_iff s).1 hs
  rw [event_arrive hs hi q hb hst hf (by rw [hj]; exact hn), arbitrate_none (grantOne_none_congr (by rw [hj]) hm hg)]
  rfl

/-! ## READ (R6, R7, R100, R101) -/

section Read

variable {s : State} {i : StreamId} (tag : Tag) {a : Addr} (hs : atRest s = true)
  (hi : idleStream (s.blocks.stream i) = true)
include hs hi

/-- The event of a READ of an idle stream, by its classification. -/
theorem read_refused {st : UpStatus} (h : classifyRead s.mgmt.active s.blocks (lineOf a) = .refused st) :
    exec (.read i tag a) s = .next (after s (sends i (.data tag st none) s.blocks)) := by
  refine congrArg Host.Outcome.next (arrival_answered hs hi ⟨tag, .read a⟩ (st := st) (bytes := none) ?_)
  rw [handleCurrent_read, handleRead, classifyRead_current, h]

theorem read_stalled {cause : StallCause} (h : classifyRead s.mgmt.active s.blocks (lineOf a) = .stalled cause) :
    exec (.read i tag a) s = .next (after s
      (s.blocks.modStream i fun r => { r with queue := [⟨tag, .read a⟩], phase := .stalled cause })) := by
  refine congrArg Host.Outcome.next (arrival_stalled hs hi ⟨tag, .read a⟩ ?_)
  rw [handleCurrent_read, handleRead, classifyRead_current, h]

end Read

/-- A stream's record is changed before a hand-over as after it. -/
theorem modStream_handOver (i : StreamId) (f : StreamRec → StreamRec) (op : MemOp) (cls : MemClass) (w : Owner)
    (b : Blocks) : (handOver op cls w b).modStream i f = handOver op cls w (b.modStream i f) := by
  unfold handOver
  rw [Blocks.modStream_journal]
  split <;> rfl

theorem setPhase_handOver (i : StreamId) (p : Phase) (op : MemOp) (cls : MemClass) (w : Owner) (b : Blocks) :
    setPhase i p (handOver op cls w b) = handOver op cls w (setPhase i p b) := modStream_handOver _ _ _ _ _ _

theorem setPhase_current (i : StreamId) (q : Request) (p : Phase) (b : Blocks) :
    setPhase i p (current i q b) = b.modStream i fun r => { r with queue := [q], phase := p } := by
  unfold setPhase current
  rw [Blocks.modStream_modStream]

/-- Settles O14. -/
theorem passThroughReadIsIssued : Obligations.PassThroughReadIsIssued := by
  intro i tag a w s hs hi hw hkind
  have hpass : classifyRead s.mgmt.active s.blocks (lineOf a) = .passThrough := by
    unfold classifyRead
    rw [hw]
    cases hk : w.kind with
    | journaled => exact absurd hk hkind
    | direct => simp [hk]
    | readOnly => simp [hk]
  obtain ⟨_, hn, hst, hf, _⟩ := (atRest_iff s).1 hs
  have hquiet := quiet_modStream hst hf i (f := fun r => { r with queue := [⟨tag, .read a⟩], phase := .reading }) rfl
  obtain ⟨t, ht, hbecome, hport⟩ := arrival_handsOver hs hi ⟨tag, .read a⟩ (b := s.blocks.modStream i fun r =>
    { r with queue := [⟨tag, .read a⟩], phase := .reading }) (op := .lineRead (lineOf a)) (cls := .passThrough)
    (w := .passRead i false) (by
      rw [handleCurrent_read, handleRead, classifyRead_current, hpass]
      dsimp only
      rw [setPhase_handOver, setPhase_current]) hquiet.1 hquiet.2 hn (by simp)
  exact ⟨t, congrArg Host.Outcome.next ht, hbecome, hport⟩

/-- A READ of a JOURNALED window that does not stall. -/
theorem classifyRead_journaled {cfg : Image} {b : Blocks} {line : Addr} {w : Window} (hw : lookup cfg line = .window w)
    (hkind : w.kind = .journaled) : classifyRead cfg b line =
      if b.journal.state = .recovering then .stalled .recovering
      else if b.lineRestoring line then .stalled .restoring else .journaled := by
  unfold classifyRead
  rw [hw]
  simp only [hkind]

/-- Settles O15. -/
theorem coveredReadIsAnsweredFromHeldBytes : Obligations.CoveredReadIsAnsweredFromHeldBytes := by
  intro i tag a w s hs hi hw hkind hrec hres hcover
  refine congrArg Host.Outcome.next (arrival_answered hs hi ⟨tag, .read a⟩ (st := .okay)
    (bytes := some (s.blocks.held.layOver (lineOf a) 0)) ?_)
  rw [handleCurrent_read, handleRead, classifyRead_current, classifyRead_journaled hw hkind, if_neg hrec,
    if_neg (by simp [hres])]
  dsimp only
  unfold journaledRead
  rw [Blocks.modStream_held, if_pos hcover]

/-- Settles O16. -/
theorem uncoveredReadGoesToMemory : Obligations.UncoveredReadGoesToMemory := by
  intro i tag a w s hs hi hw hkind hrec hres hcover
  obtain ⟨_, hn, hst, hf, _⟩ := (atRest_iff s).1 hs
  have hoverlay : still s.mgmt.active (addOverlay i (lineOf a) s.blocks) = true :=
    still_of hst (fun _ => rfl) (fun _ => rfl) rfl rfl rfl rfl rfl
      (serveOne_none_congr (b := s.blocks) (cfg := s.mgmt.active) rfl ((still_iff _ _).1 hst).2.1) (fun _ => rfl)
      (fun _ hl => hl) ((still_iff _ _).1 hst).2.2.2
  have hquiet := quiet_modStream (b := addOverlay i (lineOf a) s.blocks) hoverlay hf i
    (f := fun r => { r with queue := [⟨tag, .read a⟩], phase := .reading }) rfl
  obtain ⟨t, ht, hbecome, hport⟩ := arrival_handsOver hs hi ⟨tag, .read a⟩
    (b := (addOverlay i (lineOf a) s.blocks).modStream i fun r =>
      { r with queue := [⟨tag, .read a⟩], phase := .reading }) (op := .lineRead (lineOf a)) (cls := .passThrough)
    (w := .passRead i true) (by
      rw [handleCurrent_read, handleRead, classifyRead_current, classifyRead_journaled hw hkind, if_neg hrec,
        if_neg (by simp [hres])]
      dsimp only
      unfold journaledRead
      rw [Blocks.modStream_held, if_neg hcover, setPhase_handOver]
      congr 1
      exact setPhase_current i ⟨tag, .read a⟩ .reading (addOverlay i (lineOf a) s.blocks)) hquiet.1 hquiet.2 hn (by simp)
  exact ⟨t, congrArg Host.Outcome.next ht, hbecome, hport⟩

/-- Settles O17: R6 step by step. -/
theorem readIsRefusedOrStalls : Obligations.ReadIsRefusedOrStalls := by
  intro i tag a s hs hi
  refine ⟨fun hlookup => read_refused tag hs hi ?_, fun w hw hkind => ⟨fun hrec => read_stalled tag hs hi ?_,
    fun hrec hres => read_stalled tag hs hi ?_⟩⟩
  · unfold classifyRead
    rcases hlookup with h | h
    · rw [h]
    · rw [h]
  · rw [classifyRead_journaled hw hkind, if_pos hrec]
  · rw [classifyRead_journaled hw hkind, if_neg hrec, if_pos hres]

/-! ## WRITE (R10, R12) -/

/-- A WRITE of the window table, by the conditions of R10 in their order. -/
theorem classifyWrite_window {cfg : Image} {b : Blocks} {i : StreamId} {line : Addr} {m : ByteMask} {w : Window}
    (hm : m ≠ 0) (hw : lookup cfg line = .window w) : classifyWrite cfg b i line m =
      if w.kind = .readOnly then .refused .readOnly
      else if !w.writers.getLsbD i.val then .refused .notPermitted
      else if w.kind = .direct then .direct
      else classifyJournaled cfg b i line := by
  unfold classifyWrite
  rw [if_neg hm, hw]

/-- A permitted WRITE of a JOURNALED window. -/
theorem classifyWrite_journaled {cfg : Image} {b : Blocks} {i : StreamId} {line : Addr} {m : ByteMask} {w : Window}
    (hm : m ≠ 0) (hw : lookup cfg line = .window w) (hkind : w.kind = .journaled)
    (hwriter : w.writers.getLsbD i.val = true) : classifyWrite cfg b i line m = classifyJournaled cfg b i line := by
  rw [classifyWrite_window hm hw, if_neg (by simp [hkind]), if_neg (by simp [hwriter]), if_neg (by simp [hkind])]

/-- A journaled WRITE in a READY journal. -/
theorem classifyJournaled_ready {cfg : Image} {b : Blocks} {i : StreamId} {line : Addr} {c : CtxId}
    (hbind : cfg.bindings[i] = some c) (hready : b.journal.state = .ready) :
    classifyJournaled cfg b i line = classifyInContext cfg b c line := by
  unfold classifyJournaled
  rw [hbind, hready]

theorem classifyInContext_collects {cfg : Image} {b : Blocks} {c : CtxId} {line : Addr}
    (hstate : (b.ctx c).state = .idle ∨ (b.ctx c).state = .opened) :
    classifyInContext cfg b c line = classifyTracked cfg b c line := by
  unfold classifyInContext
  rcases hstate with h | h <;> rw [h]

/-- A WRITE that reaches the steps after 6f of R12. -/
theorem classifyWrite_reaches {s : State} {i : StreamId} {a : Addr} {m : ByteMask} {c : CtxId}
    (h : reachesContext s i a m c) :
    classifyWrite s.mgmt.active s.blocks i (lineOf a) m = classifyTracked s.mgmt.active s.blocks c (lineOf a) := by
  obtain ⟨hm, ⟨w, hw, hkind, hwriter⟩, hbind, hready, hstate, _⟩ := h
  rw [classifyWrite_journaled hm hw hkind hwriter, classifyJournaled_ready hbind hready, classifyInContext_collects hstate]

theorem classifyTracked_untracked {cfg : Image} {b : Blocks} {c : CtxId} {line : Addr} (h : b.entryOf line = none) :
    classifyTracked cfg b c line = classifyUntracked cfg b c := by
  unfold classifyTracked
  rw [h]

section Write

variable {s : State} {i : StreamId} (tag : Tag) {a : Addr} {m : ByteMask} (d : LineData) (hs : atRest s = true)
  (hi : idleStream (s.blocks.stream i) = true) (hcount : (s.blocks.stream i).outstanding < Config.outstandingLimit)

include hs hi hcount

/-- A WRITE refused with a status that is not reported is one response. -/
theorem write_refused {st : UpStatus} (h : classifyWrite s.mgmt.active s.blocks i (lineOf a) m = .refused st)
    (hst : st ≠ .capacity ∧ st ≠ .conflictTimeout ∧ st ≠ .journalFull) :
    exec (.write i tag a m d) s = .next (after s (sends i (.ack tag st) s.blocks)) := by
  refine congrArg Host.Outcome.next (arrival_answered hs hi ⟨tag, .write a m d⟩ (st := st) (bytes := none) ?_)
  rw [handleCurrent_write, handleWrite, current_stream, if_neg (Nat.ne_of_lt hcount), classifyWrite_current, h]
  obtain ⟨h1, h2, h3⟩ := hst
  cases st with
  | capacity => exact absurd rfl h1
  | conflictTimeout => exact absurd rfl h2
  | journalFull => exact absurd rfl h3
  | _ => rfl

theorem write_stalled {cause : StallCause}
    (h : classifyWrite s.mgmt.active s.blocks i (lineOf a) m = .stalled cause) :
    exec (.write i tag a m d) s = .next (after s
      (s.blocks.modStream i fun r => { r with queue := [⟨tag, .write a m d⟩], phase := .stalled cause })) := by
  refine congrArg Host.Outcome.next (arrival_stalled hs hi ⟨tag, .write a m d⟩ ?_)
  rw [handleCurrent_write, handleWrite, current_stream, if_neg (Nat.ne_of_lt hcount), classifyWrite_current, h]

end Write

/-- Settles O18: R10 and R12 step by step. -/
theorem refusedWriteIsAcknowledgedWithItsStatus : Obligations.RefusedWriteIsAcknowledgedWithItsStatus := by
  intro i tag a m d s hs hi
  refine ⟨fun hlimit => ?_, fun hcount => ⟨fun hm => ?_, fun hm hlookup => ?_, fun w hm hw =>
    ⟨fun hkind => ?_, fun hkind hwriter => ?_, fun hkind hwriter => ⟨fun hbind => ?_, fun c hbind =>
      ⟨fun hj => ?_, fun hj hc => ?_⟩⟩⟩⟩⟩
  · obtain ⟨_, hn, hst, hf, hg⟩ := (atRest_iff s).1 hs
    have hdue : barrierDue (setPhase i .countHold (current i ⟨tag, .write a m d⟩ s.blocks)) i = false
        ∧ countDue (setPhase i .countHold (current i ⟨tag, .write a m d⟩ s.blocks)) i = false := by
      simp [barrierDue, countDue, setPhase, hlimit, Config.outstandingLimit]
    rw [setPhase_current] at hdue
    refine congrArg Host.Outcome.next (arrival_over hs hi ⟨tag, .write a m d⟩ (b := s.blocks.modStream i fun r =>
      { r with queue := [⟨tag, .write a m d⟩], phase := .countHold }) ?_ (still_modStream hst i _ hdue)
      (noFresh_modStream hf i (by simp)) rfl rfl)
    rw [handleCurrent_write, handleWrite, current_stream, if_pos (by exact hlimit), setPhase_current]
  · refine write_refused tag d hs hi hcount ?_ (by simp)
    unfold classifyWrite
    rw [if_pos hm]
  · refine write_refused tag d hs hi hcount ?_ (by simp)
    unfold classifyWrite
    rw [if_neg hm]
    rcases hlookup with h | h
    · rw [h]
    · rw [h]
  · refine write_refused tag d hs hi hcount ?_ (by simp)
    rw [classifyWrite_window hm hw, if_pos hkind]
  · refine write_refused tag d hs hi hcount ?_ (by simp)
    rw [classifyWrite_window hm hw, if_neg hkind, if_pos (by rw [hwriter]; rfl)]
  · refine write_refused tag d hs hi hcount ?_ (by simp)
    rw [classifyWrite_journaled hm hw hkind hwriter, classifyJournaled, hbind]
  · refine write_refused tag d hs hi hcount ?_ (by simp)
    rw [classifyWrite_journaled hm hw hkind hwriter, classifyJournaled, hbind]
    rcases hj with h | h
    · rw [h]
    · rw [h]
  · refine write_refused tag d hs hi hcount ?_ (by simp)
    rw [classifyWrite_journaled hm hw hkind hwriter, classifyJournaled_ready hbind hj, classifyInContext, hc]

/-- Settles O19: step 6i of R12. -/
theorem writeOverQuotaIsRefused : Obligations.WriteOverQuotaIsRefused := by
  intro i tag a m d c s hs hi hreach hnone hquota
  obtain ⟨_, hn, hst, hf, hg⟩ := (atRest_iff s).1 hs
  obtain ⟨_, hphase, _, _⟩ := (idleStream_iff _).1 hi
  have hclass : classifyWrite s.mgmt.active s.blocks i (lineOf a) m = .refused .capacity := by
    rw [classifyWrite_reaches hreach, classifyTracked_untracked hnone, classifyUntracked, if_pos hquota]
  obtain ⟨_, _, _, _, _, hcount⟩ := hreach
  have hquiet := quiet_modStream hst hf i (f := fun r => { r with sent := r.sent ++ [Response.ack tag .capacity] })
    (by simp [hphase, quietPhase])
  refine congrArg Host.Outcome.next (arrival_over hs hi ⟨tag, .write a m d⟩
    (b := reportRefusal i (lineOf a) .capacity (sends i (.ack tag .capacity) s.blocks)) ?_
    (still_modEvents hquiet.1 _) hquiet.2 rfl rfl)
  rw [handleCurrent_write, handleWrite, current_stream, if_neg (Nat.ne_of_lt hcount), classifyWrite_current, hclass]
  dsimp only
  unfold refuseWrite
  rw [answer_current hi]
  rfl

/-- Settles O20. -/
theorem directWriteIsForwarded : Obligations.DirectWriteIsForwarded := by
  intro i tag a m d w s hs hi hcount hm hw hkind hwriter
  obtain ⟨_, hn, hst, hf, _⟩ := (atRest_iff s).1 hs
  obtain ⟨_, hphase, _, _⟩ := (idleStream_iff _).1 hi
  have hclass : classifyWrite s.mgmt.active s.blocks i (lineOf a) m = .direct := by
    rw [classifyWrite_window hm hw, if_neg (by simp [hkind]), if_neg (by simp [hwriter]), if_pos hkind]
  have haccept : ∀ b : Blocks, acceptWrite i (handOver (.lineWrite (lineOf a) m d) .passThrough (.directWrite i) b) =
      handOver (.lineWrite (lineOf a) m d) .passThrough (.directWrite i) (acceptWrite i b) := fun b => by
    unfold acceptWrite answer
    rw [modStream_handOver, modStream_handOver]
  have hquiet := quiet_modStream hst hf i (f := fun r =>
    { r with outstanding := r.outstanding + 1, sent := r.sent ++ [Response.ack tag .okay] }) (by simp [hphase, quietPhase])
  have hsent : acceptWrite i (current i ⟨tag, .write a m d⟩ s.blocks) = s.blocks.modStream i fun r =>
      { r with outstanding := r.outstanding + 1, sent := r.sent ++ [Response.ack tag .okay] } := by
    unfold acceptWrite
    rw [answer_current hi, sends, Blocks.modStream_modStream]
    rfl
  obtain ⟨t, ht, hbecome, hport⟩ := arrival_handsOver hs hi ⟨tag, .write a m d⟩ (b := s.blocks.modStream i fun r =>
      { r with outstanding := r.outstanding + 1, sent := r.sent ++ [Response.ack tag .okay] })
    (op := .lineWrite (lineOf a) m d) (cls := .passThrough) (w := .directWrite i) (by
      rw [handleCurrent_write, handleWrite, current_stream, if_neg (Nat.ne_of_lt hcount), classifyWrite_current, hclass]
      dsimp only
      unfold directWrite
      rw [haccept, hsent]) hquiet.1 hquiet.2 hn (by simp)
  refine ⟨t, congrArg Host.Outcome.next ht, ?_, hport⟩
  rw [sends, Blocks.modStream_modStream]
  exact hbecome

/-- Settles O23: R12 step by step. -/
theorem journaledWriteStalls : Obligations.JournaledWriteStalls := by
  intro i tag a m d c w s hs hi hm hw hkind hwriter hbind hcount
  obtain ⟨hq, hphase, hconflict, hcapture⟩ := (idleStream_iff _).1 hi
  have hplain {cause : StallCause} (h : classifyWrite s.mgmt.active s.blocks i (lineOf a) m = .stalled cause) :
      exec (.write i tag a m d) s = .next (after s (s.blocks.modStream i fun r => { r with
        queue := [⟨tag, .write a m d⟩], phase := .stalled cause, conflict := none, captureStall := none })) := by
    rw [write_stalled tag d hs hi hcount h]
    congr 2
    refine modStream_congr _ _ ?_
    simp [hconflict, hcapture]
  have hrecord {f : StreamRec → StreamRec} (h : handleWrite s.mgmt.active i (lineOf a) m d
      (current i ⟨tag, .write a m d⟩ s.blocks) = s.blocks.modStream i f)
      (hp : quietPhase (f (s.blocks.stream i)).phase = true) :
      exec (.write i tag a m d) s = .next (after s (s.blocks.modStream i f)) :=
    congrArg Host.Outcome.next (arrival_record hs hi ⟨tag, .write a m d⟩ (by rw [handleCurrent_write, h]) hp)
  have hjournaled := classifyWrite_journaled (b := s.blocks) hm hw hkind hwriter
  have hready (hj : s.blocks.journal.state = .ready) : classifyWrite s.mgmt.active s.blocks i (lineOf a) m =
      classifyInContext s.mgmt.active s.blocks c (lineOf a) := by
    rw [hjournaled, classifyJournaled_ready hbind hj]
  refine ⟨fun hj => hplain ?_, fun hj => hplain ?_, fun hj hx => hplain ?_, fun hj hx => ?_⟩
  · rw [hjournaled, classifyJournaled, hbind, hj]
  · rw [hjournaled, classifyJournaled, hbind, hj]
  · rw [hready hj, classifyInContext]
    rcases hx with h | h | h
    · rw [h]
    · rw [h]
    · rw [h]
  · have hcollects := (hready hj).trans (classifyInContext_collects hx)
    refine ⟨fun e he hne => hrecord ?_ rfl, fun e he heq hmerge hfull => hplain ?_, fun hnone hquota =>
      ⟨fun hspace => hrecord ?_ rfl, fun hpause hspace hfull => hplain ?_⟩⟩
    · have hclass : classifyWrite s.mgmt.active s.blocks i (lineOf a) m = .conflict e := by
        rw [hcollects, classifyTracked, he]
        exact if_neg hne
      rw [handleWrite, current_stream, if_neg (Nat.ne_of_lt hcount), classifyWrite_current, hclass]
      dsimp only
      unfold conflictStall current
      rw [Blocks.modStream_modStream]
      refine modStream_congr _ _ ?_
      simp [hconflict]
    · rw [hcollects, classifyTracked, he]
      dsimp only
      rw [if_pos heq, hmerge, hfull]
      rfl
    · have hclass : classifyWrite s.mgmt.active s.blocks i (lineOf a) m = .captureStall := by
        rw [hcollects, classifyTracked_untracked hnone, classifyUntracked, if_neg (Nat.not_le.2 hquota), if_pos]
        simpa using hspace
      rw [handleWrite, current_stream, if_neg (Nat.ne_of_lt hcount), classifyWrite_current, hclass]
      dsimp only
      unfold captureStallAt current
      rw [Blocks.modStream_modStream]
      refine modStream_congr _ _ ?_
      simp [hcapture]
    · rw [hcollects, classifyTracked_untracked hnone, classifyUntracked, if_neg (Nat.not_le.2 hquota), if_neg, if_pos hfull]
      simp [hpause, hspace]

/-! ## COMMIT (R28) -/

/-- Settles O25: R28 step by step. -/
theorem commitIsAnsweredByTheContextsState : Obligations.CommitIsAnsweredByTheContextsState := by
  intro i tag s hs hi
  have hanswered {st : UpStatus} (h : classifyCommit s.mgmt.active s.blocks i = .answered st) :
      exec (.upstreamCommit i tag) s = .next (after s (sends i (.done tag st) s.blocks)) := by
    refine congrArg Host.Outcome.next (arrival_answered hs hi ⟨tag, .commit⟩ (st := st) (bytes := none) ?_)
    rw [handleCurrent_commit, handleCommit, classifyCommit_current, h]
  have hstalls {cause : StallCause} (h : classifyCommit s.mgmt.active s.blocks i = .stalled cause) :
      exec (.upstreamCommit i tag) s = .next (after s (s.blocks.modStream i fun r =>
        { r with queue := [⟨tag, .commit⟩], phase := .stalled cause })) := by
    refine congrArg Host.Outcome.next (arrival_stalled hs hi ⟨tag, .commit⟩ ?_)
    rw [handleCurrent_commit, handleCommit, classifyCommit_current, h]
  have hready {c : CtxId} (hbind : s.mgmt.active.bindings[i] = some c) (hj : s.blocks.journal.state = .ready) :
      classifyCommit s.mgmt.active s.blocks i = commitInContext c (s.blocks.ctx c).state := by
    unfold classifyCommit
    rw [hbind, hj]
  refine ⟨fun hbind => hanswered ?_, fun c hbind => ⟨fun hj => hanswered ?_, fun hj => hstalls ?_, fun hj => hstalls ?_,
    fun hj => ⟨fun hx => hanswered ?_, fun hx => hanswered ?_, fun hx => hanswered ?_⟩⟩⟩
  · rw [classifyCommit, hbind]
  · rw [classifyCommit, hbind]
    rcases hj with h | h
    · rw [h]
    · rw [h]
  · rw [classifyCommit, hbind, hj]
  · rw [classifyCommit, hbind, hj]
  · rw [hready hbind hj, hx]
    rfl
  · rw [hready hbind hj, hx]
    rfl
  · rw [hready hbind hj, hx]
    rfl

end Sys2Proof.Arrivals


/-! SUPPORT. The management commands that report, store, load or are refused (R152, R164 to R172). -/

namespace Sys2Proof.Port

open Sys2Proof.Machine Sys2Proof.Safety Sys2Proof.Laws

/-! ## Bytes -/

theorem leBytes_length (n x : Nat) : (leBytes n x).length = n := by
  induction n generalizing x with
  | zero => rfl
  | succ n ih => simp [leBytes, ih]

/-- Little-endian bytes spell the number they were made of, modulo their range. -/
theorem leNat_leBytes (n x : Nat) : leNat (leBytes n x) = x % 256 ^ n := by
  induction n generalizing x with
  | zero => simp [leBytes, leNat, Nat.mod_one]
  | succ n ih =>
    have hmod : x % 256 ^ (n + 1) = x % 256 + 256 * (x / 256 % 256 ^ n) := by
      rw [Nat.pow_succ', Nat.mod_mul]
    simp [leBytes, leNat, ih, hmod]

/-! ## Operands -/

theorem parseCtx_ctxByte (c : CtxId) : parseCtx [ctxByte c] = .good c := by revert c; decide

theorem parseCtx_large {x : Byte} (h : 8 ≤ x.toNat) : parseCtx [x] = .bad 0 := by
  exact if_neg (by omega)

theorem parseFlags_leBytes (f : BitVec 18) : parseFlags (leBytes 3 f.toNat) = .good f := by
  unfold parseFlags
  rw [if_pos (leBytes_length 3 _), leNat_leBytes, Nat.mod_eq_of_lt (by have := f.isLt; omega)]
  simp

theorem itemOfCode_code (item : Item) : itemOfCode item.code = some item := by
  cases item with
  | window w => revert w; decide
  | bindings => rfl
  | context c => revert c; decide
  | journal => rfl
  | timing => rfl

/-! ## Reports and events (R166, R172) -/

theorem managed_up {s : State} (hup : s.pins.resetLow = false) (t : State) : s.managed t = t := by
  simp [State.managed, hup]

theorem untilNotice_before {s : State} (hn : s.blocks.journal.notice = false) (seq : Byte) (t : State) :
    untilNotice seq s t = t := by
  simp [untilNotice, hn]

theorem untilNotice_after {s : State} (hn : s.blocks.journal.notice = true) (seq : Byte) (t : State) :
    untilNotice seq s t = respond seq .refusedState .empty s := by
  simp [untilNotice, hn]

/-- Settles O27. -/
theorem reportsAndEventCommands : Obligations.ReportsAndEventCommands := by
  intro q f s hup
  refine ⟨?_, ?_, fun c => ?_, ?_, fun hn => ⟨?_, ?_⟩⟩
  · exact congrArg Host.Outcome.next (managed_up hup _)
  · exact congrArg Host.Outcome.next (managed_up hup _)
  · refine congrArg Host.Outcome.next ((managed_up hup _).trans ?_)
    unfold takeReadContext
    rw [parseCtx_ctxByte]
    rfl
  · exact congrArg Host.Outcome.next (managed_up hup _)
  · refine congrArg Host.Outcome.next ((managed_up hup _).trans ?_)
    unfold takeAckEvents
    rw [parseFlags_leBytes]
    exact untilNotice_before hn q _
  · refine congrArg Host.Outcome.next ((managed_up hup _).trans ?_)
    unfold takeSetEventMask
    rw [parseFlags_leBytes]
    exact untilNotice_before hn q _

/-! ## The store (R170, R171) -/

theorem storedImage_eq (m : Management) : m.storedImage = storedOf m := by
  unfold Management.storedImage storedOf
  cases m.current <;> rfl

theorem startStore_eq (m : Management) (now : Nat) :
    m.startStore now = { m with programming := some (programmingOf m now) } := by
  unfold Management.startStore programmingOf storeTarget Management.storeGeneration
  cases m.current <;> rfl

theorem programmed_failed {how : ProgrammingEnd} (h : how ≠ .verified) (m : Management) (p : Programming) :
    m.programmed p how = { m with
      banks := m.banks.set p.target.val { m.banks[p.target] with valid := false }
      programming := none
      outcome := some .failed } := by
  cases how with
  | verified => exact absurd rfl h
  | programmingFault => rfl
  | readBackMismatch => rfl
  | limitElapsed => rfl

/-- Settles O30. -/
theorem storeCommandsWorkOnTheBanks : Obligations.StoreCommandsWorkOnTheBanks := by
  intro q how s hup
  refine ⟨fun hn hnone => ⟨?_, ?_⟩, fun hn hbusy => ⟨?_, ?_⟩, fun hnone => ?_, fun p hp => ?_⟩
  · refine congrArg Host.Outcome.next ((managed_up hup _).trans ((untilNotice_before hn q _).trans ?_))
    rw [if_neg (by simp [hnone]), storedImage_eq]
  · refine congrArg Host.Outcome.next ((managed_up hup _).trans ((untilNotice_before hn q _).trans ?_))
    rw [if_neg (by simp [hnone]), startStore_eq]
  · refine congrArg Host.Outcome.next ((managed_up hup _).trans ((untilNotice_before hn q _).trans ?_))
    rw [if_pos hbusy]
  · refine congrArg Host.Outcome.next ((managed_up hup _).trans ((untilNotice_before hn q _).trans ?_))
    rw [if_pos hbusy]
  · refine congrArg Host.Outcome.next ((managed_up hup _).trans ?_)
    unfold storeEnd
    rw [hnone]
  · refine ⟨storeEnd how s, congrArg Host.Outcome.next (managed_up hup _), ?_⟩
    have hclock : (raise .storeDone (programmingTime p how s.blocks)) = { s.blocks with
        events := { s.blocks.events with
          pending := s.blocks.events.pending ||| (1#18 <<< EventFlag.storeDone.bit) }
        clock := (raise .storeDone (programmingTime p how s.blocks)).clock } := by cases how <;> rfl
    unfold storeEnd
    rw [hp]
    dsimp only
    by_cases hv : how = .verified
    · subst hv
      refine ⟨rfl, fun k hk => ?_, fun _ => ?_, fun hne => absurd rfl hne, hclock⟩
      · have hval : p.target.val ≠ k.val := fun e => hk (Fin.ext e.symm)
        simp [Management.programmed, hval]
      · simp [Management.programmed]
    · rw [programmed_failed hv]
      refine ⟨by simp [hv], fun k hk => ?_, fun he => absurd he hv, fun _ => ?_, hclock⟩
      · have hval : p.target.val ≠ k.val := fun e => hk (Fin.ext e.symm)
        simp [hval]
      · simp

/-! ## Refusals (R152, R164) -/

theorem withArgs_noticed {α : Type} {s : State} (hn : s.blocks.journal.notice = true) (p : Parsed α) (q : Byte)
    (f : α → State) : withArgs p q s (fun x => untilNotice q s (f x)) = respond q .refusedState .empty s
      ∨ ∃ y, withArgs p q s (fun x => untilNotice q s (f x)) = respond q .invalid y s := by
  cases p with
  | good x => exact .inl (untilNotice_after hn q (f x))
  | bad n => exact .inr ⟨_, rfl⟩

theorem withArgs_noticed_good {α : Type} {s : State} (hn : s.blocks.journal.notice = true) {p : Parsed α} {x : α}
    (hp : p = .good x) (q : Byte) (f : α → State) :
    withArgs p q s (fun x => untilNotice q s (f x)) = respond q .refusedState .empty s := by
  rw [hp]
  exact untilNotice_after hn q (f x)

/-! ## Items (R167) -/

theorem leNat_leBytes_bitVec {w : Nat} (n : Nat) (x : BitVec w) (h : w ≤ 8 * n) : leNat (leBytes n x.toNat) = x.toNat := by
  rw [leNat_leBytes, Nat.mod_eq_of_lt]
  have hpow : (256 : Nat) ^ n = 2 ^ (8 * n) := by rw [Nat.pow_mul]
  rw [hpow]
  exact x.isLt.trans_le (Nat.pow_le_pow_right (by decide) h)

/-- The level whose bytes a level has: AUTO where the slots are those of its code. -/
def asRead (l : Level) : Level := levelOfCode (leNat (levelBytes l))

theorem levelBytes_asRead (l : Level) : levelBytes (asRead l) = levelBytes l := by
  cases l with
  | auto => rfl
  | slots n =>
    have hread : asRead (.slots n) = levelOfCode n.toNat :=
      congrArg levelOfCode (leNat_leBytes_bitVec 4 n (by decide))
    rw [hread, levelOfCode]
    split
    · rename_i hn
      show leBytes 4 0xFFFFFFFF = leBytes 4 n.toNat
      rw [hn]
    · simp

/-- An image that has taken one item's value from another. -/
def taking (img src : Image) : Item → Image
  | .window w => { img with windows := img.windows.set w.val src.windows[w] }
  | .bindings => { img with bindings := src.bindings }
  | .context c => { img with ctxs := img.ctxs.set c.val src.ctxs[c] }
  | .journal => { img with journal := { src.journal with
      anchorStride := asRead src.journal.anchorStride
      pauseLevel := asRead src.journal.pauseLevel
      resumeLevel := asRead src.journal.resumeLevel } }
  | .timing => { img with timing := src.timing }

theorem levelBytes_length (l : Level) : (levelBytes l).length = 4 := by cases l <;> exact leBytes_length 4 _

theorem readItem_length (src : Image) (item : Item) : (readItem src item).length = item.length := by
  cases item <;> simp [readItem, Item.length, leBytes_length, levelBytes_length]

theorem kindOfCode_kindCode (k : WindowKind) : kindOfCode (leNat [kindCode k]) = some k := by cases k <;> rfl

theorem bindingOfCode_bindingCode (x : Option CtxId) : bindingOfCode (bindingCode x) = some x := by revert x; decide

theorem writeItem_window (img src : Image) (w : Fin 16) :
    writeItem img (.window w) (readItem src (.window w)) = some (taking img src (.window w)) := by
  rcases hx : src.windows[w] with ⟨valid, base, size, kind, writers⟩
  have hvalid : fieldAt (readItem src (.window w)) 0 1 = leNat [if valid then 1#8 else 0#8] := by
    simp only [readItem, hx]
    rfl
  have hkind : fieldAt (readItem src (.window w)) 1 1 = leNat [kindCode kind] := by
    simp only [readItem, hx]
    rfl
  have hbase : fieldAt (readItem src (.window w)) 2 5 = leNat (leBytes 5 base.toNat) := by
    simp only [readItem, hx]
    rfl
  have hsize : fieldAt (readItem src (.window w)) 7 6 = leNat (leBytes 6 size.toNat) := by
    simp only [readItem, hx]
    rfl
  have hwriters : fieldAt (readItem src (.window w)) 13 2 = leNat (leBytes 2 writers.toNat) := by
    simp only [readItem, hx]
    rfl
  unfold writeItem
  dsimp only
  rw [hvalid, hkind, kindOfCode_kindCode, hbase, hsize, hwriters, leNat_leBytes_bitVec 5 _ (by decide),
    leNat_leBytes_bitVec 6 _ (by decide), leNat_leBytes_bitVec 2 _ (by decide)]
  cases valid <;> simp [taking, hx, leNat]

theorem writeItem_journal (img src : Image) :
    writeItem img .journal (readItem src .journal) = some (taking img src .journal) := by
  rcases hj : src.journal with ⟨base, ring, stride, pause, resume, threshold, timer⟩
  have hitem : readItem src .journal = leBytes 5 base.toNat ++ (leBytes 4 ring.toNat ++ (levelBytes stride ++
      (levelBytes pause ++ (levelBytes resume ++ [threshold, timer])))) := by
    simp only [readItem, hj, List.append_assoc]
  have hbase : fieldAt (readItem src .journal) 0 5 = leNat (leBytes 5 base.toNat) := by rw [hitem]; rfl
  have hring : fieldAt (readItem src .journal) 5 4 = leNat (leBytes 4 ring.toNat) := by rw [hitem]; rfl
  have hstride : levelOfCode (fieldAt (readItem src .journal) 9 4) = asRead stride := by
    rw [hitem]; cases stride <;> rfl
  have hpause : levelOfCode (fieldAt (readItem src .journal) 13 4) = asRead pause := by
    rw [hitem]; cases stride <;> cases pause <;> rfl
  have hresume : levelOfCode (fieldAt (readItem src .journal) 17 4) = asRead resume := by
    rw [hitem]; cases stride <;> cases pause <;> cases resume <;> rfl
  have hthreshold : fieldAt (readItem src .journal) 21 1 = threshold.toNat := by
    rw [hitem]; cases stride <;> cases pause <;> cases resume <;> rfl
  have htimer : fieldAt (readItem src .journal) 22 1 = timer.toNat := by
    rw [hitem]; cases stride <;> cases pause <;> cases resume <;> rfl
  unfold writeItem
  dsimp only
  rw [hbase, hring, hstride, hpause, hresume, hthreshold, htimer, leNat_leBytes_bitVec 5 _ (by decide),
    leNat_leBytes_bitVec 4 _ (by decide)]
  simp [taking, hj]

theorem writeItem_readItem (img src : Image) (item : Item) :
    writeItem img item (readItem src item) = some (taking img src item) := by
  cases item with
  | window w => exact writeItem_window img src w
  | bindings =>
    unfold writeItem
    have hbyte : ∀ i : Fin 16, (readItem src .bindings)[i.val]? = some (bindingCode src.bindings[i]) := fun i => by
      simp [readItem]
    have hall : ((readItem src .bindings).take 16).all (fun x => (bindingOfCode x).isSome) = true := by
      rw [List.all_eq_true]
      intro x hx
      obtain ⟨y, _, rfl⟩ := List.mem_map.1 (List.mem_of_mem_take hx)
      rw [bindingOfCode_bindingCode]
      rfl
    dsimp only
    rw [if_pos hall]
    refine congrArg (fun v => some { img with bindings := v }) ?_
    ext1 i hi
    rw [Vector.getElem_ofFn, hbyte ⟨i, hi⟩]
    simp [bindingOfCode_bindingCode]
  | context c =>
    have hquota : fieldAt (readItem src (.context c)) 0 2 = leNat (leBytes 2 src.ctxs[c].quota.toNat) := rfl
    have hidle : fieldAt (readItem src (.context c)) 2 2 = leNat (leBytes 2 src.ctxs[c].idleInterval.toNat) := rfl
    unfold writeItem
    dsimp only
    rw [hquota, hidle, leNat_leBytes_bitVec 2 _ (by decide), leNat_leBytes_bitVec 2 _ (by decide)]
    simp [taking]
  | journal => exact writeItem_journal img src
  | timing =>
    have hconflict : fieldAt (readItem src .timing) 0 2 = leNat (leBytes 2 src.timing.conflictWait.toNat) := rfl
    have hcapture : fieldAt (readItem src .timing) 2 2 = leNat (leBytes 2 src.timing.captureStall.toNat) := rfl
    have hdown : fieldAt (readItem src .timing) 4 2 = leNat (leBytes 2 src.timing.downstream.toNat) := rfl
    unfold writeItem
    dsimp only
    rw [hconflict, hcapture, hdown, leNat_leBytes_bitVec 2 _ (by decide), leNat_leBytes_bitVec 2 _ (by decide),
      leNat_leBytes_bitVec 2 _ (by decide)]
    simp [taking]

theorem readItem_taking_same (img src : Image) (item : Item) : readItem (taking img src item) item = readItem src item := by
  cases item with
  | window w => simp [readItem, taking]
  | bindings => rfl
  | context c => simp [readItem, taking]
  | journal => simp [readItem, taking, levelBytes_asRead]
  | timing => rfl

theorem readItem_taking_other (img src : Image) {item other : Item} (h : other ≠ item) :
    readItem (taking img src item) other = readItem img other := by
  cases item with
  | window w =>
    cases other with
    | window v =>
      have hne : w.val ≠ v.val := fun e => h (by rw [Fin.ext e])
      simp [readItem, taking, hne]
    | _ => rfl
  | bindings =>
    cases other with
    | bindings => exact absurd rfl h
    | _ => rfl
  | context c =>
    cases other with
    | context k =>
      have hne : c.val ≠ k.val := fun e => h (by rw [Fin.ext e])
      simp [readItem, taking, hne]
    | _ => rfl
  | journal =>
    cases other with
    | journal => exact absurd rfl h
    | _ => rfl
  | timing =>
    cases other with
    | timing => exact absurd rfl h
    | _ => rfl

theorem parseWriteConfig_readItem (img src : Image) (item : Item) :
    parseWriteConfig img (item.code :: readItem src item) = .good (taking img src item) := by
  unfold parseWriteConfig
  dsimp only
  rw [itemOfCode_code]
  dsimp only
  rw [if_pos (readItem_length src item), writeItem_readItem]

/-- Settles O28. -/
theorem configurationItemsAreWrittenAndRead : Obligations.ConfigurationItemsAreWrittenAndRead := by
  intro q item src s hup hn
  have hread {m : Byte} {name : ImageName} (hm : imageOfCode m = some name) :
      exec (.readConfig q [item.code, m]) s =
        .next (respond q .ok (.config (readItem (s.mgmt.imageNamed name) item)) s) := by
    refine congrArg Host.Outcome.next ((managed_up hup _).trans ?_)
    have hparse : parseReadConfig [item.code, m] = .good (item, name) := by
      unfold parseReadConfig
      dsimp only
      rw [itemOfCode_code, hm]
    unfold takeReadConfig
    rw [hparse]
    exact untilNotice_before hn q _
  refine ⟨⟨respond q .ok .empty { s with mgmt := { s.mgmt with staged := taking s.mgmt.staged src item } },
    congrArg Host.Outcome.next ((managed_up hup _).trans ?_), ?_⟩, hread (name := .staged) rfl,
    hread (name := .active) rfl, ?_⟩
  · unfold takeWriteConfig
    rw [parseWriteConfig_readItem]
    exact untilNotice_before hn q _
  · exact ⟨rfl, readItem_taking_same _ _ _, fun other h => readItem_taking_other _ _ h⟩
  · rw [hread (name := .stored) rfl]
    simp only [Management.imageNamed, storedImage_eq]

/-- Settles O31. -/
theorem noticeNarrowsTheCommands : Obligations.NoticeNarrowsTheCommands := by
  intro q args c item src s hup hn
  have hnarrow {α : Type} (p : Parsed α) (f : α → State) {t : State}
      (ht : t = withArgs p q s fun x => untilNotice q s (f x)) :
      Host.Outcome.next (s.managed t) = (.next (respond q .refusedState .empty s) : Host.Outcome State Fault Refusal)
        ∨ ∃ y, Host.Outcome.next (s.managed t) = (.next (respond q .invalid y s) : Host.Outcome State Fault Refusal) := by
    rw [managed_up hup, ht]
    rcases withArgs_noticed hn p q f with h | ⟨y, h⟩
    · exact .inl (congrArg _ h)
    · exact .inr ⟨y, congrArg _ h⟩
  have hrefused {α : Type} {p : Parsed α} {x : α} (hp : p = .good x) (f : α → State) {t : State}
      (ht : t = withArgs p q s fun x => untilNotice q s (f x)) :
      Host.Outcome.next (s.managed t) = (.next (respond q .refusedState .empty s) : Host.Outcome State Fault Refusal) := by
    rw [managed_up hup, ht, withArgs_noticed_good hn hp]
  have hctx := parseCtx_ctxByte c
  simp only [List.forall_mem_cons, List.not_mem_nil, false_implies, implies_true, and_true]
  refine ⟨⟨?_, ?_, ?_, ?_, ?_, ?_, ?_, ?_, ?_, ?_, ?_, ?_⟩, ?_, ?_, ?_, ?_, ?_, ?_, ?_, ?_, ?_, ?_, ?_, ?_⟩
  · exact hnarrow (parseFlags args) _ rfl
  · exact hnarrow (parseFlags args) _ rfl
  · exact hnarrow (parseReadConfig args) _ rfl
  · exact hnarrow (parseWriteConfig s.mgmt.staged args) _ rfl
  · exact hnarrow (parseNone args) _ rfl
  · exact hnarrow (parseNone args) _ rfl
  · exact hnarrow (parseNone args) _ rfl
  · exact hnarrow (parseCtx args) _ rfl
  · exact hnarrow (parseCtx args) _ rfl
  · exact hnarrow (parseCtx args) _ rfl
  · exact hnarrow (parseCtx args) _ rfl
  · exact hnarrow (parseNone args) _ rfl
  · exact hrefused (p := parseFlags [0, 0, 0]) rfl _ rfl
  · exact hrefused (p := parseFlags [0, 0, 0]) rfl _ rfl
  · exact hrefused (p := parseReadConfig [0, 0]) rfl _ rfl
  · exact hrefused (parseWriteConfig_readItem s.mgmt.staged src item) _ rfl
  · exact hrefused (p := parseNone []) rfl _ rfl
  · exact hrefused (p := parseNone []) rfl _ rfl
  · exact hrefused (p := parseNone []) rfl _ rfl
  · exact hrefused hctx _ rfl
  · exact hrefused hctx _ rfl
  · exact hrefused hctx _ rfl
  · exact hrefused hctx _ rfl
  · exact hrefused (p := parseNone []) rfl _ rfl

/-! ## Frames (R164) -/

theorem judgeFrame_short {f : List Byte} (h : f.length < 3) : judgeFrame f = .frameError ((f[1]?).getD 0) := by
  match f, h with
  | [], _ => rfl
  | [_], _ => rfl
  | [_, _], _ => rfl

/-- The length test passes, and the CRC-8 and the bytes it covers are the last byte and the rest. -/
theorem frame_fits {code seq len crc : Byte} {args : List Byte} (hlen : len.toNat ≤ 48) (hargs : args.length = len.toNat) :
    (decide (len.toNat ≤ 48) && decide ((code :: seq :: len :: (args ++ [crc])).length = 4 + len.toNat)) = true
      ∧ (code :: seq :: len :: (args ++ [crc])).dropLast = code :: seq :: len :: args := by
  constructor
  · simp only [List.length_cons, List.length_append, List.length_nil, hargs, Bool.and_eq_true, decide_eq_true_eq]
    omega
  · rw [← List.cons_append, ← List.cons_append, ← List.cons_append, List.dropLast_concat]

theorem judgeFrame_wrongCrc {code seq len crc : Byte} {args : List Byte} (hlen : len.toNat ≤ 48)
    (hargs : args.length = len.toNat) (hcrc : crc ≠ crc8 (code :: seq :: len :: args)) :
    judgeFrame (code :: seq :: len :: (args ++ [crc])) = .frameError seq := by
  obtain ⟨hfits, hdrop⟩ := frame_fits (code := code) (seq := seq) (crc := crc) hlen hargs
  unfold judgeFrame
  dsimp only
  rw [if_pos hfits, hdrop, List.getLast?_concat]
  exact if_neg (by simpa using hcrc)

theorem judgeFrame_unknown {code seq len crc : Byte} {args : List Byte} (hlen : len.toNat ≤ 48)
    (hargs : args.length = len.toNat) (hcrc : crc = crc8 (code :: seq :: len :: args)) (hcode : commandOfCode code = none) :
    judgeFrame (code :: seq :: len :: (args ++ [crc])) = .unknownCommand seq := by
  obtain ⟨hfits, hdrop⟩ := frame_fits (code := code) (seq := seq) (crc := crc) hlen hargs
  unfold judgeFrame
  dsimp only
  rw [if_pos hfits, hdrop, List.getLast?_concat]
  exact (if_pos (by rw [hcrc])).trans (by rw [hcode])

/-- Settles O32. -/
theorem badFramesAndContextsAreAnswered : Obligations.BadFramesAndContextsAreAnswered := by
  intro s hup
  have hframe {f : List Byte} {seq : Byte} (h : judgeFrame f = .frameError seq) :
      exec (.commandFrameRejected f) s = .next (respond seq .frameError .empty s) := by
    refine congrArg Host.Outcome.next ((managed_up hup _).trans ?_)
    unfold takeFrame
    rw [h]
  refine ⟨fun f h => ?_, fun code seq len rest h => ?_, fun code seq len crc args hlen hargs => ⟨fun hcrc => ?_,
    fun hcrc hcode => ?_⟩, fun q x hx => ?_⟩
  · exact hframe (judgeFrame_short h)
  · have hjudge : judgeFrame (code :: seq :: len :: rest) = .frameError seq := by
      unfold judgeFrame
      dsimp only
      rw [if_neg]
      simp only [List.length_cons, Bool.and_eq_true, decide_eq_true_eq]
      omega
    exact hframe hjudge
  · exact hframe (judgeFrame_wrongCrc hlen hargs hcrc)
  · refine congrArg Host.Outcome.next ((managed_up hup _).trans ?_)
    unfold takeFrame
    rw [judgeFrame_unknown hlen hargs hcrc hcode]
  · have hbad {f : CtxId → State} {t : State} (ht : t = withArgs (parseCtx [x]) q s f) :
        Host.Outcome.next (s.managed t) =
          (.next (respond q .invalid (.invalidArgument 0) s) : Host.Outcome State Fault Refusal) := by
      rw [managed_up hup, ht, parseCtx_large hx]
      rfl
    simp only [List.forall_mem_cons, List.not_mem_nil, false_implies, implies_true, and_true]
    exact ⟨hbad rfl, hbad rfl, hbad rfl, hbad rfl, hbad rfl⟩

end Sys2Proof.Port


/-! SUPPORT. RESET_N and the two resets (R149 to R155). -/

namespace Sys2Proof.Resets

open Sys2Proof.Machine Sys2Proof.Safety Sys2Proof.Laws Sys2Proof.Arrivals Sys2Proof.Order

/-! ## While RESET_N is low -/

theorem event_low {s : State} (hlow : s.pins.resetLow = true) (f : Blocks → Blocks) : s.event f = s := if_pos hlow

theorem managed_low {s : State} (hlow : s.pins.resetLow = true) (t : State) : s.managed t = s := if_pos hlow

theorem complete_low {s : State} (hlow : s.pins.resetLow = true) (id : OpId) (k : Completion) : s.complete id k = s := by
  unfold State.complete
  split
  · exact event_low hlow _
  · rfl

theorem timeout_low {s : State} (hlow : s.pins.resetLow = true) (k : SlotNo) : s.timeout k = s := by
  unfold State.timeout
  split
  · exact event_low hlow _
  · rfl

/-- A command but the end of the reset and the level of PFAIL is not taken. -/
theorem exec_low {c : Instr} {s : State} (hlow : s.pins.resetLow = true) (hc : ∀ p, c ≠ .coldReset p)
    (hp : ∀ l, c ≠ .powerFailNotice l) : exec c s = .next s := by
  cases c with
  | read i tag a => exact congrArg Host.Outcome.next (event_low hlow _)
  | write i tag a m d => exact congrArg Host.Outcome.next (event_low hlow _)
  | barrier i tag => exact congrArg Host.Outcome.next (event_low hlow _)
  | upstreamCommit i tag => exact congrArg Host.Outcome.next (event_low hlow _)
  | storeProgrammingEnd how => exact congrArg Host.Outcome.next (managed_low hlow _)
  | commandFrameRejected f => exact congrArg Host.Outcome.next (managed_low hlow _)
  | resetNLow =>
    have hpins : { s.pins with resetLow := true } = s.pins := by rw [← hlow]
    exact congrArg Host.Outcome.next (by rw [hpins])
  | coldReset p => exact absurd rfl (hc p)
  | powerFailNotice l => exact absurd rfl (hp l)
  | idleTimerExpiry c => exact congrArg Host.Outcome.next (event_low hlow _)
  | groupTimerExpiry => exact congrArg Host.Outcome.next (event_low hlow _)
  | conflictWaitExpiry i => exact congrArg Host.Outcome.next (event_low hlow _)
  | captureStallExpiry i => exact congrArg Host.Outcome.next (event_low hlow _)
  | downstreamTimeout k => exact congrArg Host.Outcome.next (timeout_low hlow k)
  | strayCompletion id k => exact congrArg Host.Outcome.next (complete_low hlow id k)
  | passThroughReadDone id k => exact congrArg Host.Outcome.next (complete_low hlow id k)
  | directWriteDone id k => exact congrArg Host.Outcome.next (complete_low hlow id k)
  | captureReadDone id k => exact congrArg Host.Outcome.next (complete_low hlow id k)
  | releaseWriteDone id k => exact congrArg Host.Outcome.next (complete_low hlow id k)
  | detachedWriteDone id k => exact congrArg Host.Outcome.next (complete_low hlow id k)
  | slotBurstDone id k => exact congrArg Host.Outcome.next (complete_low hlow id k)
  | anchorWriteDone id k => exact congrArg Host.Outcome.next (complete_low hlow id k)
  | restoreReadDone id k => exact congrArg Host.Outcome.next (complete_low hlow id k)
  | restoreWriteDone id k => exact congrArg Host.Outcome.next (complete_low hlow id k)
  | recoveryReadDone id k => exact congrArg Host.Outcome.next (complete_low hlow id k)
  | recoveryWriteDone id k => exact congrArg Host.Outcome.next (complete_low hlow id k)
  | _ => exact congrArg Host.Outcome.next (managed_low hlow _)

/-- Settles O39. -/
theorem nothingIsTakenWhileResetIsLow : Obligations.NothingIsTakenWhileResetIsLow := by
  refine ⟨fun s => rfl, fun c s hlow hc hp => exec_low hlow hc hp, fun l s hlow => ?_, fun s hlow => ?_⟩
  · refine congrArg Host.Outcome.next ?_
    exact event_low (s := { s with pins := { s.pins with pfail := l } }) hlow _
  · simp [irqLow, safeOut, hlow]

/-! ## What a reset leaves -/

/-- The blocks of a part that has just been reset, with the responses sent, the mask and the events that are pending. -/
structure Left (sent : StreamId → List Response) (mask pending : BitVec 18) (b : Blocks) : Prop where
  ctx : ∀ c, b.ctx c = Context.reset
  counter : b.epochs.counter = 1
  track : b.track = []
  held : b.held = ⟨[], [], []⟩
  stream : ∀ i, b.stream i = { StreamRec.reset with sent := sent i }
  mask : b.events.mask = mask
  lastRefusal : b.events.lastRefusal = none
  lastPortError : b.events.lastPortError = none
  pending : b.events.pending = pending
  tail : b.journal.tail = ⟨0, 0⟩
  live : b.journal.live = []
  staging : b.journal.staging = []
  state : b.journal.state ≠ .ready

variable {sent : StreamId → List Response} {mask pending : BitVec 18} {b c : Blocks}

theorem left_resetTo (b : Blocks) (m : MemoryPort) (mask : BitVec 18) :
    Left (fun i => (b.stream i).sent ++ [.restart]) mask 0 (b.resetTo m mask) where
  ctx k := by simp [Blocks.resetTo, Blocks.ctx]
  counter := rfl
  track := rfl
  held := rfl
  stream i := by simp [Blocks.resetTo, Blocks.stream, StreamRec.restarted]
  mask := rfl
  lastRefusal := rfl
  lastPortError := rfl
  pending := rfl
  tail := rfl
  live := rfl
  staging := rfl
  state := JournalState.noConfusion

/-- Nothing is due in a part that has just been reset. -/
theorem Left.still (h : Left sent mask pending b) (cfg : Image) : still cfg b = true := by
  have hstate (k : CtxId) : (b.ctx k).state = .idle := by rw [h.ctx]; rfl
  have hrollback (k : CtxId) (p : RollbackPhase) : rollbackIn b k p = none := by simp [rollbackIn, h.ctx, Context.reset]
  refine (still_iff cfg b).2 ⟨fun k => ⟨?_, ?_, ?_, ?_⟩, ?_, ?_, fun i => notDue_of_phase ?_ ?_⟩
  · simp [drainDue, hstate]
  · simp [quiesceDue, hrollback]
  · simp [nextRestore, hrollback]
  · simp [retireDue, hrollback]
  · simp [serveOne, JournalWriter.writing, h.state]
  · simp [h.held]
  · simp [h.stream, StreamRec.reset]
  · simp [h.stream, StreamRec.reset]

theorem Left.noFresh (h : Left sent mask pending b) : noFresh b = true := by
  rw [noFresh_iff]
  simp [h.stream, StreamRec.reset]

/-- A change of the Memory Port, the recovery engine and the free choices alone. -/
theorem Left.byPort (h : Left sent mask pending b) (m : MemoryPort) (r : RecoveryEngine) (f : FreeChoices) :
    Left sent mask pending { b with mem := m, recovery := r, free := f } := { h with }

theorem Left.handOver (h : Left sent mask pending b) {op : MemOp} {cls : MemClass} {w : Owner} :
    Left sent mask pending (handOver op cls w b) := by
  obtain ⟨m, hm, _⟩ := handOver_frame op cls w b
  rw [hm]
  exact h.byPort m b.recovery b.free

theorem Left.recoveryRead (h : Left sent mask pending b) {line : Addr} {what : RecoveryRead} {step : RecoveryStep} :
    Left sent mask pending (recoveryRead line what step b) :=
  Left.handOver (b := b.modRecovery fun r => { r with step := step }) (h.byPort b.mem { b.recovery with step := step } b.free)

theorem Left.byRecords (h : Left sent mask pending b) (hepochs : c.epochs = b.epochs) (htrack : c.track = b.track)
    (hheld : c.held = b.held) (hevents : c.events = b.events) (hj : c.journal = b.journal)
    (hstream : ∀ i, c.stream i = b.stream i) : Left sent mask pending c where
  ctx k := by rw [Blocks.ctx, hepochs]; exact h.ctx k
  counter := by rw [hepochs]; exact h.counter
  track := htrack.trans h.track
  held := hheld.trans h.held
  stream i := (hstream i).trans (h.stream i)
  mask := by rw [hevents]; exact h.mask
  lastRefusal := by rw [hevents]; exact h.lastRefusal
  lastPortError := by rw [hevents]; exact h.lastPortError
  pending := by rw [hevents]; exact h.pending
  tail := by rw [hj]; exact h.tail
  live := by rw [hj]; exact h.live
  staging := by rw [hj]; exact h.staging
  state := by rw [hj]; exact h.state

theorem Left.mapStreams (h : Left sent mask pending b) {f : StreamId → StreamRec → StreamRec}
    (hf : ∀ i x, f i { StreamRec.reset with sent := x } = { StreamRec.reset with sent := x }) :
    Left sent mask pending (b.mapStreams f) :=
  h.byRecords (Blocks.mapStreams_epochs _ _) (Blocks.mapStreams_track _ _) (Blocks.mapStreams_held _ _)
    (Blocks.mapStreams_events _ _) (Blocks.mapStreams_journal _ _)
    fun i => by rw [Blocks.mapStreams_stream, h.stream, hf]

theorem Left.startRecovery (h : Left sent mask pending b) (cfg : Image) :
    Left sent mask (if cfg.ringN = 0 then pending ||| (1#18 <<< EventFlag.recoveryDone.bit) else pending)
      (startRecovery cfg b) := by
  unfold Machine.startRecovery
  split
  · have hraised : Left sent mask (pending ||| (1#18 <<< EventFlag.recoveryDone.bit)) (raise .recoveryDone b) :=
      { h with pending := congrArg (· ||| _) h.pending }
    unfold recoveryUnformatted endRecovery wakeAll wake
    refine Left.mapStreams ?_ fun _ _ => rfl
    exact { hraised with state := JournalState.noConfusion }
  · exact h.recoveryRead.recoveryRead

/-! ### PFAIL as the reset ends -/

theorem Left.modStream (h : Left sent mask pending b) {i : StreamId} {f : StreamRec → StreamRec}
    (hf : ∀ x, f { StreamRec.reset with sent := x } = { StreamRec.reset with sent := x }) :
    Left sent mask pending (b.modStream i f) := by
  refine { h with stream := fun k => ?_ }
  rw [Blocks.modStream_stream]
  split
  · subst k; rw [h.stream, hf]
  · exact h.stream k

theorem Left.settleWaiting (h : Left sent mask pending b) : Left sent mask pending (settleWaiting b) := by
  unfold Machine.settleWaiting
  generalize b.mem.waiting = l
  induction l generalizing b with
  | nil => exact h
  | cons r l ih =>
    refine ih ?_
    dsimp only
    split
    · exact h.modStream fun _ => rfl
    · exact h

theorem Left.discardHeld (h : Left sent mask pending b) {p : HeldEntry → Bool} {reason : Option LossReason} :
    Left sent mask pending (discardHeld p reason b) := by
  have hnone : Machine.discardHeld p reason b = b := by
    unfold Machine.discardHeld
    simp [h.held]
  rwa [hnone]

/-- The blocks at the notice when the requests have been answered, the unissued held entries discarded and the waiting
direct writes settled (R150). -/
def answered (b : Blocks) : Blocks :=
  settleWaiting (discardHeld (fun h => decide (h.state ≠ .issued)) none (b.mapStreams fun _ r => r.powerFail))

/-- The notice when the requests have been answered, before the contexts and the port take it (R150). -/
def noticed (b : Blocks) : Blocks :=
  (((stopWriting (answered b)).modRecovery fun r =>
    { r with noticed := decide ((stopWriting (answered b)).journal.state = .recovering) }).modJournal fun j =>
    { j with notice := true, formatWaits := false })

theorem takeNotice_eq (b : Blocks) : takeNotice b = clearWaiting (keepOverlays { noticed b with
    epochs := { (noticed b).epochs with
      ctxs := Vector.ofFn fun c => ((noticed b).epochs.ctxs[c]).powerFail b.mem.waiting c } }) := by
  unfold takeNotice noticed answered
  rfl

/-- What the notice leaves in the other blocks. -/
theorem takeNotice_blocks (b : Blocks) : (takeNotice b).epochs.counter = (answered b).epochs.counter
    ∧ (takeNotice b).track = (answered b).track ∧ (takeNotice b).req = (answered b).req
    ∧ (takeNotice b).events = (answered b).events
    ∧ (takeNotice b).held = { (answered b).held with
      overlays := (answered b).held.overlays.filter (readOutstanding (answered b).mem) }
    ∧ (takeNotice b).journal =
      { (stopWriting (answered b)).journal with notice := true, formatWaits := false }
    ∧ (takeNotice b).mem.slots = (answered b).mem.slots ∧ (takeNotice b).mem.issue = (answered b).mem.issue
    ∧ (takeNotice b).mem.waiting = []
    ∧ (takeNotice b).recovery =
      { (answered b).recovery with noticed := decide ((answered b).journal.state = .recovering) } := by
  rw [takeNotice_eq]
  dsimp only [clearWaiting, keepOverlays, noticed, stopWriting, Blocks.modMem, Blocks.modHeld, Blocks.modJournal,
    Blocks.modRecovery]
  exact ⟨rfl, rfl, rfl, rfl, rfl, rfl, rfl, rfl, rfl, rfl⟩

theorem takeNotice_ctx (b : Blocks) (k : CtxId) :
    (takeNotice b).ctx k = ((answered b).ctx k).powerFail b.mem.waiting k := by
  have hofFn : (takeNotice b).epochs.ctxs =
      Vector.ofFn fun c => ((answered b).epochs.ctxs[c]).powerFail b.mem.waiting c := by
    rw [takeNotice_eq]
    rfl
  unfold Blocks.ctx
  rw [hofFn]
  exact Vector.getElem_ofFn _

theorem Left.takeNotice (h : Left sent mask pending b) : Left sent mask pending (takeNotice b) := by
  have hx : Left sent mask pending (answered b) := ((h.mapStreams (f := fun _ r => r.powerFail)
    fun _ x => by simp [StreamRec.powerFail, StreamRec.reset]).discardHeld).settleWaiting
  obtain ⟨hcounter, htrack, hreq, hevents, hheld, hj, _⟩ := takeNotice_blocks b
  have hstream (i : StreamId) : (Machine.takeNotice b).stream i = (answered b).stream i := by
    simp only [Blocks.stream, hreq]
  refine ⟨fun k => ?_, hcounter.trans hx.counter, htrack.trans hx.track, ?_, fun i => (hstream i).trans (hx.stream i),
    ?_, ?_, ?_, ?_, ?_, ?_, ?_, ?_⟩
  · rw [takeNotice_ctx, hx.ctx]
    rfl
  · rw [hheld, hx.held]
    rfl
  · rw [hevents, hx.mask]
  · rw [hevents, hx.lastRefusal]
  · rw [hevents, hx.lastPortError]
  · rw [hevents, hx.pending]
  · rw [hj]
    exact hx.tail
  · rw [hj]
    exact hx.live
  · rw [hj]
    simp [stopWriting, hx.staging]
  · rw [hj]
    exact hx.state

theorem Left.arbitrate (h : Left sent mask pending b) (cfg : Image) : Left sent mask pending (Machine.arbitrate cfg 32 b) := by
  have hgrants := arbitrate_frame cfg 32 b
  refine ⟨fun k => ?_, ?_, hgrants.track.trans h.track, ?_, fun i => ?_, ?_, ?_, ?_, ?_, ?_, ?_, ?_, ?_⟩
  · rw [Blocks.ctx, hgrants.epochs]
    exact h.ctx k
  · rw [hgrants.epochs]
    exact h.counter
  · have hentries : (Machine.arbitrate cfg 32 b).held.entries = [] :=
      List.map_eq_nil_iff.1 (by rw [hgrants.entries, h.held]; rfl)
    have hdetached := hgrants.detached
    have hoverlays := hgrants.overlays
    rw [h.held] at hdetached hoverlays
    rcases hq : (Machine.arbitrate cfg 32 b).held with ⟨entries, detached, overlays⟩
    rw [hq] at hentries hdetached hoverlays
    subst hentries hdetached hoverlays
    rfl
  · rw [Blocks.stream, hgrants.req]
    exact h.stream i
  · rw [hgrants.events, h.mask]
  · rw [hgrants.events, h.lastRefusal]
  · rw [hgrants.events, h.lastPortError]
  · rw [hgrants.events, h.pending]
  · rw [hgrants.journal, h.tail]
  · rw [hgrants.journal, h.live]
  · rw [hgrants.journal, h.staging]
  · rw [hgrants.journal]
    exact h.state

theorem Left.enterSafe (h : Left sent mask pending b) : Left sent mask pending (enterSafe b) := by
  unfold Machine.enterSafe
  split
  · exact { h with state := JournalState.noConfusion }
  · exact h

theorem startRecovery_state {b : Blocks} (hj : b.journal = .atReset) (cfg : Image) :
    (startRecovery cfg b).journal.notice = false
      ∧ (startRecovery cfg b).journal.state = if cfg.ringN = 0 then .unformatted else .recovering := by
  unfold startRecovery
  split
  · exact ⟨congrArg JournalWriter.notice hj, rfl⟩
  · simp only [recoveryRead, handOver_journal, Blocks.modRecovery_journal, hj]
    exact ⟨rfl, rfl⟩

theorem startRecovery_inPort {b : Blocks} (hj : b.journal = .atReset) {cfg : Image} (hring : cfg.ringN ≠ 0) :
    inPort (startRecovery cfg b).mem (.lineRead (anchorLine cfg .a)) (.recoveryRead (.anchor .a)) = true
      ∧ inPort (startRecovery cfg b).mem (.lineRead (anchorLine cfg .b)) (.recoveryRead (.anchor .b)) = true := by
  have hn : b.journal.notice = false := congrArg JournalWriter.notice hj
  unfold startRecovery
  rw [if_neg hring]
  unfold recoveryRead
  refine ⟨?_, handOver_inPort (by simpa using hn) _ _ _⟩
  have hfirst := handOver_inPort (b := b.modRecovery fun r => { r with step := .anchors }) hn
    (.lineRead (anchorLine cfg .a)) .restore (.recoveryRead (.anchor .a))
  rw [handOver_live (by simpa using hn)]
  rw [inPort_iff] at hfirst ⊢
  rcases hfirst with ⟨r, hr, h⟩ | h
  · exact .inl ⟨r, List.mem_append_left _ hr, h⟩
  · exact .inr h

/-- The end of a reset: the blocks are as the reset left them, and the notice is taken, or recovery begins. -/
theorem leaveReset_left (h : Left sent mask 0 b) (hj : b.journal = .atReset) (cfg : Image) (pfail : Bool) :
    Left sent mask (if cfg.ringN = 0 then 1#18 <<< EventFlag.recoveryDone.bit else 0) (leaveReset cfg pfail b)
      ∧ (leaveReset cfg pfail b).journal.notice = pfail
      ∧ (pfail = false → leaveReset cfg pfail b = Machine.arbitrate cfg 32 (startRecovery cfg b)) := by
  have hstart : Left sent mask (if cfg.ringN = 0 then 1#18 <<< EventFlag.recoveryDone.bit else 0) (startRecovery cfg b) := by
    simpa using h.startRecovery cfg
  obtain ⟨hn, hstate⟩ := startRecovery_state hj cfg
  unfold leaveReset
  cases pfail with
  | false =>
    have hlook : lookAtPfail false (startRecovery cfg b) = startRecovery cfg b := rfl
    rw [hlook, finishEvent_still (hstart.still cfg) hstart.noFresh hn]
    exact ⟨hstart.arbitrate cfg, by rw [(arbitrate_frame cfg 32 _).journal, hn], fun _ => rfl⟩
  | true =>
    have hlook : lookAtPfail true (startRecovery cfg b) = takeNotice (startRecovery cfg b) := by
      refine if_pos ?_
      rw [hn, hstate]
      split <;> rfl
    have hnotice := hstart.takeNotice
    rw [hlook]
    unfold finishEvent
    rw [settle_still (hnotice.still cfg) hnotice.noFresh]
    refine ⟨(hnotice.arbitrate cfg).enterSafe, ?_, fun hf => by cases hf⟩
    have hgranted : (Machine.arbitrate cfg 32 (takeNotice (startRecovery cfg b))).journal.notice = true := by
      rw [(arbitrate_frame cfg 32 _).journal]
      rfl
    unfold Machine.enterSafe
    split
    · exact hgranted
    · exact hgranted

theorem ringN_zero (cfg : Image) : cfg.ringN = 0 ↔ cfg.journal.ringSize = 0 := by
  unfold Image.ringN
  rw [← BitVec.toNat_inj]
  rfl

theorem resetLeaves_leaveReset {s t : State} {b : Blocks} {mask : BitVec 18}
    (h : Left (fun i => (s.blocks.stream i).sent ++ [.restart]) mask 0 b) (hj : b.journal = .atReset)
    (ht : leaveReset t.mgmt.active s.pins.pfail b = t.blocks) : resetLeaves s t mask := by
  obtain ⟨hleft, hn, hlive⟩ := leaveReset_left h hj t.mgmt.active s.pins.pfail
  rw [ht] at hleft hn hlive
  have hring := ringN_zero t.mgmt.active
  refine ⟨hleft.ctx, hleft.counter, hleft.track, hleft.held, hleft.stream, hleft.mask, hleft.lastRefusal,
    hleft.lastPortError, ?_, hleft.tail, hleft.live, hleft.staging, hn, fun hp => ?_, fun hsize hp => ?_⟩
  · simpa only [hring] using hleft.pending
  · rw [hlive hp, (arbitrate_frame _ 32 _).journal, (startRecovery_state hj _).2]
    simp only [hring]
  · obtain ⟨ha, hb⟩ := startRecovery_inPort hj (cfg := t.mgmt.active) (by rwa [Ne, hring])
    rw [hlive hp]
    exact ⟨arbitrate_inPort _ 32 (fun _ => Owner.noConfusion) ha, arbitrate_inPort _ 32 (fun _ => Owner.noConfusion) hb⟩

/-! ### The operation slots -/

/-- Starting recovery and looking at PFAIL leave the operation slots. -/
theorem startRecovery_mem (cfg : Image) (b : Blocks) :
    (startRecovery cfg b).mem.slots = b.mem.slots ∧ (startRecovery cfg b).mem.issue = b.mem.issue
      ∧ (cfg.ringN = 0 → (startRecovery cfg b).mem = b.mem) := by
  have hmem : (recoveryUnformatted .noArea b).mem = b.mem := by
    unfold recoveryUnformatted endRecovery wakeAll wake
    rw [Blocks.mapStreams_mem]
    rfl
  unfold startRecovery
  split
  · rw [hmem]
    exact ⟨rfl, rfl, fun _ => rfl⟩
  · rename_i hring
    have hu := Frames.Untouched.after (Frames.untouched_handOver (.lineRead (anchorLine cfg .b)) .restore (.recoveryRead (.anchor .b))
      ((recoveryRead (anchorLine cfg .a) (.anchor .a) .anchors b).modRecovery fun r => { r with step := .anchors }))
      (Frames.Untouched.after (b := recoveryRead (anchorLine cfg .a) (.anchor .a) .anchors b) ⟨rfl, rfl, rfl, rfl⟩
        (Frames.untouched_handOver (.lineRead (anchorLine cfg .a)) .restore (.recoveryRead (.anchor .a))
          (b.modRecovery fun r => { r with step := .anchors })))
    exact ⟨hu.slots, hu.issue, fun h => absurd h hring⟩

theorem untouched_settleWaiting (b : Blocks) : Frames.Untouched b (settleWaiting b) := by
  unfold settleWaiting
  refine Frames.untouched_foldl (fun b r => ?_) _ b
  split
  · exact Frames.untouched_modStream _ _ b
  · exact .refl b

theorem untouched_answered (b : Blocks) : Frames.Untouched b (answered b) :=
  (untouched_settleWaiting _).after ((Frames.untouched_discardHeld _ _ _).after (Frames.untouched_mapStreams _ b))

theorem takeNotice_mem (b : Blocks) : (takeNotice b).mem.slots = b.mem.slots ∧ (takeNotice b).mem.issue = b.mem.issue
    ∧ (takeNotice b).mem.waiting = [] := by
  obtain ⟨_, _, _, _, _, _, hslots, hissue, hwaiting, _⟩ := takeNotice_blocks b
  have hu := untouched_answered b
  exact ⟨hslots.trans hu.slots, hissue.trans hu.issue, hwaiting⟩

theorem leaveReset_mem (h : Left sent mask 0 b) (cfg : Image) (pfail : Bool) :
    (∀ (k : SlotNo) (o : Outstanding), b.mem.slots[k] = some o → (leaveReset cfg pfail b).mem.slots[k] = some o)
      ∧ (cfg.ringN = 0 → b.mem.waiting = [] → (leaveReset cfg pfail b).mem.slots = b.mem.slots
        ∧ (leaveReset cfg pfail b).mem.issue = b.mem.issue) := by
  have hstart : Left sent mask (if cfg.ringN = 0 then 1#18 <<< EventFlag.recoveryDone.bit else 0) (startRecovery cfg b) := by
    simpa using h.startRecovery cfg
  obtain ⟨hslots, hissue, hmem⟩ := startRecovery_mem cfg b
  obtain ⟨x, hx, hxslots, hxissue, hxwaiting⟩ : ∃ x, leaveReset cfg pfail b = enterSafe (Machine.arbitrate cfg 32 x)
      ∧ x.mem.slots = b.mem.slots ∧ x.mem.issue = b.mem.issue ∧ (cfg.ringN = 0 → b.mem.waiting = [] → x.mem.waiting = []) := by
    unfold leaveReset lookAtPfail
    split
    · obtain ⟨nslots, nissue, nwaiting⟩ := takeNotice_mem (startRecovery cfg b)
      refine ⟨takeNotice (startRecovery cfg b), ?_, nslots.trans hslots, nissue.trans hissue, fun _ _ => nwaiting⟩
      rw [finishEvent, settle_still (hstart.takeNotice.still cfg) hstart.takeNotice.noFresh]
    · refine ⟨startRecovery cfg b, ?_, hslots, hissue, fun hring hw => by rw [hmem hring, hw]⟩
      rw [finishEvent, settle_still (hstart.still cfg) hstart.noFresh]
  have hsafe := Frames.untouched_enterSafe (Machine.arbitrate cfg 32 x)
  rw [hx]
  constructor
  · intro k o hk
    rw [hsafe.slots]
    exact arbitrate_slot cfg 32 (by rwa [hxslots])
  · intro hring hw
    have hnone : grantOne cfg x = none := grantOne_none.2 (.inr (.inl (pick_empty (hxwaiting hring hw))))
    rw [hsafe.slots, hsafe.issue, arbitrate_none hnone]
    exact ⟨hxslots, hxissue⟩

theorem warmReset_eq (cfg : Image) (pfail : Bool) (b : Blocks) :
    b.warmReset cfg pfail = leaveReset cfg pfail (b.resetTo b.mem.warmReset b.events.mask) := rfl

theorem coldReset_eq (cfg : Image) (powerUp pfail : Bool) (b : Blocks) :
    b.coldReset cfg powerUp pfail = leaveReset cfg pfail (b.resetTo (b.mem.coldReset powerUp) 0) := rfl

/-- Settles O37. -/
theorem warmResetKeepsConfigurationAndStartsRecovery : Obligations.WarmResetKeepsConfigurationAndStartsRecovery := by
  intro q s hup
  have hleft := left_resetTo s.blocks s.blocks.mem.warmReset s.blocks.events.mask
  have hexec : exec (.warmReset q []) s =
      .next (respond q .ok .empty { s with blocks := s.blocks.warmReset s.mgmt.active s.pins.pfail }) :=
    congrArg Host.Outcome.next (Port.managed_up hup _)
  have hmem := (leaveReset_mem hleft s.mgmt.active s.pins.pfail).1
  rw [warmReset_eq] at hexec
  generalize hx : leaveReset s.mgmt.active s.pins.pfail _ = x at hexec hmem
  refine ⟨_, hexec, rfl, rfl, resetLeaves_leaveReset hleft rfl hx, fun k o hk => hmem k _ ?_⟩
  show s.blocks.mem.warmReset.slots[k] = _
  rw [warmReset_slot, hk]
  rfl

/-! ### The Management Port after a cold reset (R171, R174) -/

theorem judgeBanks_none {banks : Vector Bank 2} (h : judgeBanks banks = none) (k : Fin 2) : banks[k].valid = false := by
  unfold judgeBanks at h
  dsimp only at h
  split at h
  · rename_i h0 h1
    match k with
    | 0 => exact h0
    | 1 => exact h1
  · cases h
  · cases h
  · split at h <;> cases h

theorem state_coldReset {s : State} {invalid : Bool} {f : FreeChoices}
    (h : drawAbandon s.mgmt s.blocks = (invalid, { s.blocks with free := f })) (p : Bool) : s.coldReset p =
      { s with
        mgmt := s.mgmt.coldReset invalid
        blocks := { s.blocks with free := f }.coldReset (s.mgmt.coldReset invalid).active p s.pins.pfail
        pins := { s.pins with resetLow := false } } := by
  unfold State.coldReset
  rw [h]

/-- Settles O38. -/
theorem coldResetLoadsTheStoredImage : Obligations.ColdResetLoadsTheStoredImage := by
  intro p s
  obtain ⟨invalid, f, hdraw⟩ : ∃ invalid f, drawAbandon s.mgmt s.blocks = (invalid, { s.blocks with free := f }) :=
    ⟨(drawAbandon s.mgmt s.blocks).1, _, Prod.ext rfl (Commands.drawAbandon_blocks _ _)⟩
  have hexec : exec (.coldReset p) s = .next (s.coldReset p) := rfl
  have hleft := left_resetTo { s.blocks with free := f } (s.blocks.mem.coldReset p) 0
  have hmem := (leaveReset_mem hleft (s.mgmt.coldReset invalid).active s.pins.pfail).2
  rw [state_coldReset hdraw, coldReset_eq] at hexec
  generalize hx : leaveReset (s.mgmt.coldReset invalid).active s.pins.pfail _ = x at hexec hmem
  refine ⟨_, hexec, rfl, rfl, rfl, rfl, rfl, ?_, ?_, fun hnone => ?_, resetLeaves_leaveReset hleft rfl hx, fun hring k => ?_⟩
  · have hvalid (k : Fin 2) := Images.judgeBanks_valid (banks := abandoned s.mgmt invalid) (k := k)
    have hnone := judgeBanks_none (banks := abandoned s.mgmt invalid)
    simp only [Management.coldReset]
    generalize judgeBanks (abandoned s.mgmt invalid) = current at hvalid hnone ⊢
    cases current with
    | some k => exact hvalid k rfl
    | none => exact hnone rfl
  · exact Port.storedImage_eq _
  · simp [Management.coldReset, abandoned, hnone]
  · obtain ⟨hslots, hissue⟩ := hmem ((ringN_zero _).2 hring) rfl
    dsimp only
    rw [hslots, hissue]
    exact ⟨coldReset_slot _ p k, by cases p <;> simp [Blocks.resetTo, MemoryPort.coldReset]⟩

end Sys2Proof.Resets


/-! SUPPORT. Expiries of deadlines and CLEAR_FAULT (R37, R54, R81). -/

namespace Sys2Proof.Expiries

open Sys2Proof.Machine Sys2Proof.Safety Sys2Proof.Laws Sys2Proof.Arrivals Sys2Proof.Order

/-! ## Events of a part at rest -/

/-- At rest, an effect that leaves the notice and the Memory Port as they are, and nothing due, is the whole event. -/
theorem finishEvent_atRest {s : State} (hs : atRest s = true) {b : Blocks} (hst : still s.mgmt.active b = true)
    (hf : noFresh b = true) (hn : b.journal.notice = s.blocks.journal.notice) (hm : b.mem = s.blocks.mem) :
    finishEvent s.mgmt.active b = b := by
  obtain ⟨_, hlive, _, _, hg⟩ := (atRest_iff s).1 hs
  exact finishEvent_rest hst hf (hn.trans hlive) (grantOne_none_congr hn hm hg)

/-- At rest, an effect that changes nothing is no event. -/
theorem event_atRest {s : State} (hs : atRest s = true) {f : Blocks → Blocks} (hf : f s.blocks = s.blocks) : s.event f = s := by
  obtain ⟨hup, _, hst, hfr, _⟩ := (atRest_iff s).1 hs
  rw [event_up hup, hf, finishEvent_atRest hs hst hfr rfl rfl]
  rfl

theorem still_clock {cfg : Image} {b : Blocks} (h : still cfg b = true) (n : Nat) : still cfg { b with clock := n } = true :=
  still_of h (fun _ => rfl) (fun _ => rfl) rfl rfl rfl rfl rfl
    (serveOne_none_congr (b := b) (cfg := cfg) rfl ((still_iff cfg b).1 h).2.1) (fun _ => rfl) (fun _ hl => hl)
    ((still_iff cfg b).1 h).2.2.2

/-! ## Deadlines (R54, R81) -/

/-- A stream's record after its current request has been answered, with the requests behind it. -/
def goneOn (rest : List Request) (x : Response) (r : StreamRec) : StreamRec :=
  { r with
    queue := rest, phase := if rest.isEmpty then .idle else .fresh, conflict := none, captureStall := none,
    sent := r.sent ++ [x] }

theorem answer_front {b : Blocks} {i : StreamId} {q : Request} {rest : List Request} (hq : (b.stream i).queue = q :: rest)
    (st : UpStatus) (bytes : Option LineData) :
    answer i st bytes b = b.modStream i (goneOn rest (responseTo q st bytes)) := by
  refine modStream_congr b i ?_
  simp only [StreamRec.answered, hq, goneOn]

section Deadlines

variable {i : StreamId} {tag : Tag} {a : Addr} {m : ByteMask} {d : LineData} {s : State}

/-- The blocks when a stalled WRITE has been refused at its deadline. -/
def refusedAt (i : StreamId) (tag : Tag) (rest : List Request) (st : UpStatus) (line : Addr) (reason : RefusalReason)
    (at' : Nat) (b : Blocks) : Blocks :=
  ({ b with clock := max b.clock at' }.modStream i (goneOn rest (Response.ack tag st))).modEvents fun e => { e with
    pending := e.pending ||| (1#18 <<< EventFlag.writeRefused.bit), lastRefusal := some ⟨i, line, reason⟩ }

theorem finishEvent_refusedAt (hs : atRest s = true) (st : UpStatus) (line : Addr) (reason : RefusalReason) (at' : Nat) :
    finishEvent s.mgmt.active (refusedAt i tag [] st line reason at' s.blocks) =
      refusedAt i tag [] st line reason at' s.blocks := by
  obtain ⟨_, _, hst, hfr, _⟩ := (atRest_iff s).1 hs
  refine finishEvent_atRest hs (still_modEvents (still_modStream (still_clock hst _) i _ ?_) _) ?_ rfl rfl
  · exact notDue_of_phase (by simp [goneOn]) (by simp [goneOn])
  · exact noFresh_modStream (b := { s.blocks with clock := max s.blocks.clock at' }) hfr i (by simp [goneOn])

theorem conflictExpiry_refuses {w : ConflictWait} {rest : List Request} (hp : (s.blocks.stream i).phase = .stalled .conflict)
    (hw : (s.blocks.stream i).conflict = some w) (hq : (s.blocks.stream i).queue = ⟨tag, .write a m d⟩ :: rest) :
    conflictExpiry i s.blocks = refusedAt i tag rest .conflictTimeout w.line .conflictTimeout w.deadline s.blocks := by
  unfold conflictExpiry
  simp only [hp, hw, refuseWrite]
  rw [answer_front (b := s.blocks.reachTime w.deadline) hq]
  rfl

theorem captureExpiry_refuses {at' : Nat} {rest : List Request} (hp : (s.blocks.stream i).phase = .stalled .capture)
    (hw : (s.blocks.stream i).captureStall = some at') (hq : (s.blocks.stream i).queue = ⟨tag, .write a m d⟩ :: rest) :
    captureExpiry i s.blocks = refusedAt i tag rest .journalFull (lineOf a) .journalFull at' s.blocks := by
  have hline : (s.blocks.stream i).currentLine = some (lineOf a) := by simp only [StreamRec.currentLine, hq]
  unfold captureExpiry
  simp only [hp, hw, hline, refuseWrite]
  rw [answer_front (b := s.blocks.reachTime at') hq]
  rfl

theorem conflictExpiry_without (h : (s.blocks.stream i).phase ≠ .stalled .conflict ∨ (s.blocks.stream i).conflict = none) :
    conflictExpiry i s.blocks = s.blocks := by
  unfold conflictExpiry
  dsimp only
  split
  · rename_i hp hw
    rcases h with h | h
    · exact absurd hp h
    · rw [h] at hw; cases hw
  · rfl

theorem captureExpiry_without (h : (s.blocks.stream i).phase ≠ .stalled .capture ∨ (s.blocks.stream i).captureStall = none) :
    captureExpiry i s.blocks = s.blocks := by
  unfold captureExpiry
  dsimp only
  split
  · rename_i hp hw _
    rcases h with h | h
    · exact absurd hp h
    · rw [h] at hw; cases hw
  · rfl

end Deadlines

/-- Settles O43. -/
theorem deadlinesRefuseTheStalledWrite : Obligations.DeadlinesRefuseTheStalledWrite := by
  intro i tag a m d s hs
  obtain ⟨hup, _⟩ := (atRest_iff s).1 hs
  have hevent {c : Instr} {f : Blocks → Blocks} (hc : exec c s = .next (s.event f)) {rest : List Request} {st : UpStatus}
      {line : Addr} {reason : RefusalReason} {at' : Nat} (hf : f s.blocks = refusedAt i tag rest st line reason at' s.blocks) :
      exec c s = .next (after s (finishEvent s.mgmt.active (refusedAt i tag rest st line reason at' s.blocks)))
      ∧ (rest = [] → exec c s = .next (after s (refusedAt i tag [] st line reason at' s.blocks))) := by
    rw [hc, event_up hup, hf]
    refine ⟨rfl, ?_⟩
    rintro rfl
    rw [finishEvent_refusedAt hs]
  refine ⟨fun h => ?_, fun w rest hp hw hq => ?_, fun h => ?_, fun at' rest hp hw hq => ?_⟩
  · exact congrArg Host.Outcome.next (event_atRest hs (conflictExpiry_without h))
  · exact hevent rfl (conflictExpiry_refuses hp hw hq)
  · exact congrArg Host.Outcome.next (event_atRest hs (captureExpiry_without h))
  · exact hevent rfl (captureExpiry_refuses hp hw hq)

/-! ## CLEAR_FAULT (R37) -/

theorem clearable_iff (x : Context) : clearable x = true ↔ x.state = .faulted
    ∧ ∃ r, x.fault = some r ∧ (r.kind = .captureReadFailed ∨ r.kind = .releaseWriteFailed) := by
  unfold clearable
  cases x.fault with
  | none => simp
  | some r => simp

theorem noStall_wake {b : Blocks} (h : noStall b = true) (p : StreamId → StreamRec → StallCause → Bool) :
    ∀ i, (wake p b).stream i = b.stream i := by
  intro i
  unfold wake
  rw [Blocks.mapStreams_stream]
  split
  · rename_i c hc
    exact absurd hc ((noStall_iff b).1 h i c)
  · rfl

/-- With no stalled request, nothing is classified again. -/
theorem wake_noStall {b : Blocks} (h : noStall b = true) (p : StreamId → StreamRec → StallCause → Bool) : wake p b = b := by
  have hstreams : (wake p b).req.streams = b.req.streams := by
    ext1 i hi
    exact noStall_wake h p ⟨i, hi⟩
  have hreq : (wake p b).req = b.req := by
    cases hb : b.req
    cases hw : (wake p b).req
    rw [hb, hw] at hstreams
    exact congrArg RequestPort.mk hstreams
  calc wake p b = { b with req := (wake p b).req } := rfl
    _ = b := by rw [hreq]

/-- A context that neither drains nor rolls back has nothing due, and the others keep what they have. -/
theorem still_modCtx {cfg : Image} {b : Blocks} (h : still cfg b = true) {c : CtxId} {f : Context → Context}
    (hdrain : (f (b.ctx c)).state ≠ .draining) (hroll : (f (b.ctx c)).state ≠ .rollback) :
    still cfg (b.modCtx c f) = true := by
  obtain ⟨hctx, hserve, hrelease, hstream⟩ := (still_iff cfg b).1 h
  refine (still_iff cfg _).2 ⟨fun k => ?_, serveOne_none_congr (b := b) (cfg := cfg) rfl hserve, hrelease, hstream⟩
  by_cases hk : k = c
  · subst hk
    have hnone (p : RollbackPhase) : rollbackIn (b.modCtx k f) k p = none := by
      unfold rollbackIn
      rw [Blocks.modCtx_ctx_same]
      split
      · exact if_neg fun hr => hroll hr.1
      · rfl
    refine ⟨?_, ?_, ?_, ?_⟩
    · simp [drainDue, hdrain]
    · simp [quiesceDue, hnone]
    · simp [nextRestore, hnone]
    · simp [retireDue, hnone]
  · obtain ⟨hdrainDue, hquiesce, hnext, hretire⟩ := hctx k
    have hsame : (b.modCtx c f).ctx k = b.ctx k := by rw [Blocks.modCtx_ctx, if_neg hk]
    have hin (p : RollbackPhase) : rollbackIn (b.modCtx c f) k p = rollbackIn b k p := by simp only [rollbackIn, hsame]
    refine ⟨?_, ?_, ?_, ?_⟩
    · rw [← hdrainDue]
      unfold drainDue
      rw [hsame]
      rfl
    · rw [← hquiesce]
      unfold quiesceDue
      rw [hin]
      rfl
    · rw [← hnext]
      unfold nextRestore
      rw [hin]
      rfl
    · rw [← hretire]
      unfold retireDue
      rw [hin]
      rfl

/-- CLEAR_FAULT makes one change of the context's record, when nothing is stalled. -/
theorem clearFault_eq {s : State} (h : noStall s.blocks = true) (c : CtxId) : clearFault s.mgmt.active c s.blocks =
    s.blocks.modCtx c fun y => { y with state := .opened, fault := none, idleTimer := timerAfterAcceptance s c } := by
  have htimer : startIdleTimer s.mgmt.active c (s.blocks.modCtx c fun x => { x with state := .opened, fault := none }) =
      s.blocks.modCtx c fun y => { y with state := .opened, fault := none, idleTimer := timerAfterAcceptance s c } := by
    unfold startIdleTimer timerAfterAcceptance
    dsimp only
    rw [Blocks.modCtx_modCtx]
    refine modCtx_congr _ _ ?_
    simp only [← BitVec.toNat_inj]
    rfl
  unfold clearFault wakeContext
  rw [htimer]
  refine wake_noStall ?_ _
  rw [noStall_iff] at h ⊢
  simpa using h

/-- Settles O35. -/
theorem clearFaultReturnsTheContextToOpen : Obligations.ClearFaultReturnsTheContextToOpen := by
  intro q c s hcalm
  obtain ⟨hs, hstall⟩ := (calm_iff s).1 hcalm
  obtain ⟨hup, hn, hst, hfr, _⟩ := (atRest_iff s).1 hs
  have htake : exec (.clearFault q [ctxByte c]) s = .next
      (if clearable (s.blocks.ctx c) ∧ s.blocks.journal.state = .ready then
        startWork q .ok s (clearFault s.mgmt.active c) else respond q .refusedState .empty s) := by
    refine congrArg Host.Outcome.next ((Port.managed_up hup _).trans ?_)
    unfold takeClearFault
    rw [Port.parseCtx_ctxByte]
    exact Port.untilNotice_before hn q _
  have hmay := clearable_iff (s.blocks.ctx c)
  refine ⟨fun may => ?_, fun may => ?_⟩
  · obtain ⟨hready, hfaulted⟩ := may
    rw [htake, if_pos ⟨hmay.2 hfaulted, hready⟩, startWork, clearFault_eq hstall,
      finishEvent_atRest hs (still_modCtx hst (by simp) (by simp)) hfr rfl rfl]
    rfl
  · rw [htake, if_neg fun h => may ⟨h.2, hmay.1 h.1⟩]

end Sys2Proof.Expiries


/-! SUPPORT. What goes on in an event, part by part: contexts, the staging buffer, releases, waiting requests, and the
ends of operations of a part at rest. -/

namespace Sys2Proof.Rounds

open Sys2Proof.Machine Sys2Proof.Safety Sys2Proof.Laws Sys2Proof.Arrivals Sys2Proof.Expiries

variable {cfg : Image} {b b' : Blocks}

/-! ## Rounds of an event -/

theorem settle_progressed (hp : progress cfg b = b') (hf : noFresh b' = true) (n : Nat) : settle cfg (n + 1) b = b' := by
  simp [settle, hp, handleNext, freshStreams_none hf, chooseFrom]

theorem settle_handles {i : StreamId} (hp : progress cfg b = b') (hf : ∀ k, (b'.stream k).phase = .fresh ↔ k = i) (n : Nat) :
    settle cfg (n + 1) b = settle cfg n (handleCurrent cfg i b') := by
  simp [settle, hp, handleNext, freshStreams_one hf, chooseFrom, choose]

theorem finishEvent_settled (hs : settle cfg 2048 b = b') (hn : b'.journal.notice = false) :
    finishEvent cfg b = arbitrate cfg 32 b' := by
  unfold finishEvent settleBound
  rw [hs]
  exact enterSafe_live (by rw [(arbitrate_frame cfg 32 b').journal]; exact hn)

/-- An event in which no request is handled. -/
theorem finishEvent_progressed (hp : progress cfg b = b') (hf : noFresh b' = true) (hn : b'.journal.notice = false) :
    finishEvent cfg b = arbitrate cfg 32 b' := finishEvent_settled (settle_progressed hp hf 2047) hn

/-- An event in which one request is handled. -/
theorem finishEvent_handles {i : StreamId} {b'' : Blocks} (hp : progress cfg b = b')
    (hf : ∀ k, (b'.stream k).phase = .fresh ↔ k = i) (hp' : progress cfg (handleCurrent cfg i b') = b'')
    (hf' : noFresh b'' = true) (hn : b''.journal.notice = false) : finishEvent cfg b = arbitrate cfg 32 b'' :=
  finishEvent_settled ((settle_handles hp hf 2047).trans (settle_progressed hp' hf' 2046)) hn

/-! ## The parts of the progress -/

/-- No context has anything due and the staging buffer serves nothing. -/
structure Held (cfg : Image) (b : Blocks) : Prop where
  context : ∀ c, drainDue b c = false ∧ quiesceDue b c = false ∧ nextRestore b c = none ∧ retireDue b c = false
  buffer : serveOne cfg b = none

theorem held_of_still (h : still cfg b = true) : Held cfg b :=
  ⟨((still_iff cfg b).1 h).1, ((still_iff cfg b).1 h).2.1⟩

theorem Held.contextStep (h : Held cfg b) (c : CtxId) : contextStep cfg b c = b := by
  obtain ⟨hdrain, hquiesce, hnext, hretire⟩ := h.context c
  unfold Machine.contextStep
  split
  · simp [hdrain]
  · simp [rollbackStep, hquiesce, fillSlots, hnext, hretire]
  · rfl

theorem Held.modStream (h : Held cfg b) (i : StreamId) (f : StreamRec → StreamRec) : Held cfg (b.modStream i f) :=
  ⟨h.context, serveOne_none_congr (b := b) rfl h.buffer⟩

theorem serveBuffer_none (h : serveOne cfg b = none) (n : Nat) : serveBuffer cfg n b = b := by
  cases n with
  | zero => rfl
  | succ n => simp only [serveBuffer, h]

/-- The progress of a part in which contexts and buffer stand is that of the releases and the waiting requests. -/
theorem progress_held (h : Held cfg b) : progress cfg b = handOnCounts (answerBarriers (requestReleases b)) := by
  unfold progress
  rw [foldl_fixed _ _ _ fun c _ => h.contextStep c]
  dsimp only
  rw [serveBuffer_none h.buffer]

theorem requestReleases_none (h : ∀ e ∈ b.held.entries, releaseDue b e = false) : requestReleases b = b := by
  have hnil : b.held.entries.filter (releaseDue b) = [] := List.filter_eq_nil_iff.2 fun e he => by simp [h e he]
  simp [requestReleases, hnil]

/-- Asking for releases changes nothing but the requests that wait at the Memory Port. -/
theorem requestReleases_frame (b : Blocks) : ∃ m, requestReleases b = { b with mem := m } ∧ m.slots = b.mem.slots := by
  unfold requestReleases
  generalize b.held.entries.filter (releaseDue b) = l
  induction l generalizing b with
  | nil => exact ⟨b.mem, rfl, rfl⟩
  | cons e l ih =>
    obtain ⟨m, hm, hslots⟩ := handOver_frame (.lineWrite e.line e.mask e.data) .release (.release e.line) b
    obtain ⟨m', hm', hslots'⟩ := ih (handOver (.lineWrite e.line e.mask e.data) .release (.release e.line) b)
    refine ⟨m', hm'.trans (by rw [hm]), hslots'.trans (by rw [hm]; exact hslots)⟩

theorem answerBarriers_none (h : ∀ i, barrierDue b i = false) : answerBarriers b = b := by
  have hnil : allStreams.filter (barrierDue b) = [] := List.filter_eq_nil_iff.2 fun i _ => by simp [h i]
  simp [answerBarriers, hnil]

theorem handOnCounts_none (h : ∀ i, countDue b i = false) : handOnCounts b = b := by
  have hnil : allStreams.filter (countDue b) = [] := List.filter_eq_nil_iff.2 fun i _ => by simp [h i]
  simp [handOnCounts, hnil]

theorem filter_allStreams_one {p : StreamId → Bool} {i : StreamId} (h : ∀ k, p k = decide (k = i)) :
    allStreams.filter p = [i] := by
  rw [funext h]
  clear h
  revert i
  decide

theorem answerBarriers_one {i : StreamId} (h : ∀ k, barrierDue b k = decide (k = i)) : answerBarriers b = answerBarrier i b := by
  unfold answerBarriers
  rw [filter_allStreams_one h]
  rfl

theorem handOnCounts_one {i : StreamId} (h : ∀ k, countDue b k = decide (k = i)) : handOnCounts b = setPhase i .fresh b := by
  unfold handOnCounts
  rw [filter_allStreams_one h]
  rfl

/-- The progress of a part in which at most releases are due. -/
theorem progress_releases (h : Held cfg b) (hi : ∀ i, barrierDue b i = false ∧ countDue b i = false) :
    progress cfg b = requestReleases b := by
  obtain ⟨m, hm, _⟩ := requestReleases_frame b
  rw [progress_held h, hm, answerBarriers_none (b := { b with mem := m }) fun i => (hi i).1,
    handOnCounts_none (b := { b with mem := m }) fun i => (hi i).2]

theorem onlyGrants_mem (m : MemoryPort) : OnlyGrants b { b with mem := m } :=
  ⟨rfl, rfl, rfl, rfl, rfl, rfl, rfl, rfl, rfl, rfl, rfl⟩

theorem onlyGrants_freeSlot (k : SlotNo) (b : Blocks) : OnlyGrants b (freeSlot k b) := onlyGrants_mem _

/-- The event of a part in which at most releases are due. -/
theorem finishEvent_releases (h : Held cfg b) (hi : ∀ i, barrierDue b i = false ∧ countDue b i = false)
    (hf : noFresh b = true) (hn : b.journal.notice = false) : OnlyGrants b (finishEvent cfg b) := by
  obtain ⟨m, hm, _⟩ := requestReleases_frame b
  have hp := progress_releases h hi
  rw [hm] at hp
  rw [finishEvent_progressed hp hf hn]
  exact onlyGrants_trans (onlyGrants_mem m) (arbitrate_frame cfg 32 _)

/-! ## Ends of operations -/

/-- A command is the end of the operation o in the slot of an identifier, as e, at a time. -/
def EndsAs (s : State) (id : OpId) (o : Outstanding) (cmd : Instr) (e : OpEnd) (now : Nat) : Prop :=
  exec cmd s = .next (after s (finishEvent s.mgmt.active
    (handBack s.mgmt.active o e (freeSlot id.slot { s.blocks with clock := now }))))

section Ends

variable {s : State} {id : OpId} {o : Outstanding} {cmd : Instr} {k : Completion}

theorem completion_ends (hup : s.pins.resetLow = false) (hm : s.blocks.mem.matching id = some o)
    (hc : completionOf cmd = some (id, k)) : EndsAs s id o cmd (endOf o.op k) s.blocks.clock := by
  unfold EndsAs
  rw [Completions.exec_of_completionOf hc, RestoreReads.complete_event hup hm]

theorem timeout_ends (hup : s.pins.resetLow = false) (hm : s.blocks.mem.matching id = some o) :
    EndsAs s id o (.downstreamTimeout id.slot) (.failed .timeout) (max s.blocks.clock o.deadline) := by
  unfold EndsAs
  refine congrArg Host.Outcome.next ?_
  rw [RestoreReads.timeout_event hup hm]
  rfl

/-- At rest, the slot of an operation that restores nothing is freed without anything becoming due. -/
theorem still_freed (hs : atRest s = true) (hm : s.blocks.mem.matching id = some o) (ho : ∀ c, o.owner.restoreOf c = false)
    (now : Nat) : still s.mgmt.active (freeSlot id.slot { s.blocks with clock := now }) = true := by
  obtain ⟨_, _, hst, _⟩ := (atRest_iff s).1 hs
  refine RestoreReads.still_freeSlot (b := { s.blocks with clock := now }) (o := o) (still_clock hst now)
    (RestoreReads.matching_slot hm).2 fun c hc => ?_
  rw [ho c] at hc
  cases hc

end Ends

/-! ## Pass-through reads (R7, R100) -/

/-- The blocks when a pass-through read has been answered: its overlay record goes with it (R7, R100). -/
def readEnded (i : StreamId) (j : Bool) (rest : List Request) (x : Response) (now : Nat) (b : Blocks) : Blocks :=
  ({ b with clock := now }.modStream i (goneOn rest x)).modHeld fun h =>
    if j then { h with overlays := h.overlays.filter fun v => decide (v.stream ≠ i) } else h

theorem still_overlays (h : still cfg b = true) (f : List Overlay → List Overlay) :
    still cfg (b.modHeld fun q => { q with overlays := f q.overlays }) = true :=
  still_of h (fun _ => rfl) (fun _ => rfl) rfl rfl rfl rfl rfl
    (serveOne_none_congr (b := b) (cfg := cfg) rfl ((still_iff cfg b).1 h).2.1) (fun _ => rfl) (fun _ hl => hl)
    ((still_iff cfg b).1 h).2.2.2

theorem still_readEnded {i : StreamId} {x : Response} {now : Nat} (h : still cfg b = true) (j : Bool) :
    still cfg (readEnded i j [] x now b) = true := by
  have hst : still cfg ({ b with clock := now }.modStream i (goneOn [] x)) = true :=
    still_modStream (still_clock h now) i _ (notDue_of_phase (by simp [goneOn]) (by simp [goneOn]))
  cases j with
  | true => exact still_overlays hst _
  | false => exact hst

theorem passReadEnd_data {i : StreamId} (hp : (b.stream i).phase = .reading) (j : Bool) (d : LineData) (line : Addr) :
    passReadEnd i j (.data d) line b =
      if j then dropOverlay i (answer i .okay (some (if j then b.held.journaledData i line d else d)) b)
      else answer i .okay (some (if j then b.held.journaledData i line d else d)) b := by
  simp only [passReadEnd, hp, if_true]

theorem passReadEnd_failed {i : StreamId} (hp : (b.stream i).phase = .reading) (j : Bool) (st : DownStatus) (line : Addr) :
    passReadEnd i j (.failed st) line b =
      if j then dropOverlay i (answer i .memory none b) else answer i .memory none b := by
  simp only [passReadEnd, hp, if_true]

/-- Settles O45. -/
theorem passThroughReadEndsWithItsAnswer : Obligations.PassThroughReadEndsWithItsAnswer := by
  intro i j tag a l d id o s hs hm hop how hphase rest hq
  obtain ⟨hup, hn, hst, hfr, _⟩ := (atRest_iff s).1 hs
  dsimp only
  have hends {cmd : Instr} {now : Nat} {e : OpEnd} {st : UpStatus} {bytes : Option LineData}
      (hcmd : EndsAs s id o cmd e now)
      (he : passReadEnd i j e l (freeSlot id.slot { s.blocks with clock := now }) =
        if j then dropOverlay i (answer i st bytes (freeSlot id.slot { s.blocks with clock := now }))
        else answer i st bytes (freeSlot id.slot { s.blocks with clock := now })) :
      exec cmd s = .next (after s (finishEvent s.mgmt.active
          (freeSlot id.slot (readEnded i j rest (.data tag st bytes) now s.blocks))))
        ∧ (rest = [] → ∃ t, exec cmd s = .next t ∧ blocksBecome s (readEnded i j rest (.data tag st bytes) now s.blocks) t) := by
    have hanswer := answer_front (b := freeSlot id.slot { s.blocks with clock := now }) (i := i) hq st bytes
    have hback : handBack s.mgmt.active o e (freeSlot id.slot { s.blocks with clock := now }) =
        freeSlot id.slot (readEnded i j rest (.data tag st bytes) now s.blocks) := by
      have hline : o.op.lineRead? = l := by rw [hop]; rfl
      unfold handBack
      rw [how]
      dsimp only
      rw [hline, he, hanswer]
      cases j <;> rfl
    unfold EndsAs at hcmd
    rw [hback] at hcmd
    refine ⟨hcmd, ?_⟩
    rintro rfl
    have hfree : still s.mgmt.active (freeSlot id.slot (readEnded i j [] (.data tag st bytes) now s.blocks)) = true :=
      RestoreReads.still_freeSlot (still_readEnded hst j) (o := o) (RestoreReads.matching_slot hm).2
        (by simp [how, Owner.restoreOf])
    have hfresh : noFresh (readEnded i j [] (.data tag st bytes) now s.blocks) = true :=
      noFresh_modStream (b := { s.blocks with clock := now }) hfr i (by simp [goneOn])
    rw [finishEvent_still hfree hfresh hn] at hcmd
    exact ⟨_, hcmd, rfl, rfl, rfl, onlyGrants_trans (onlyGrants_mem _) (arbitrate_frame _ 32 _)⟩
  have hdata := completion_ends hup hm (cmd := .passThroughReadDone id (.data d)) rfl
  have herror := completion_ends hup hm (cmd := .passThroughReadDone id .error) rfl
  rw [hop] at hdata herror
  exact ⟨hends hdata (passReadEnd_data (b := freeSlot id.slot { s.blocks with clock := _ }) hphase j d l), hends herror (passReadEnd_failed (b := freeSlot id.slot { s.blocks with clock := _ }) hphase j .error l),
    hends (timeout_ends hup hm) (passReadEnd_failed (b := freeSlot id.slot { s.blocks with clock := _ }) hphase j .timeout l)⟩

end Sys2Proof.Rounds


/-! SUPPORT. The ends of direct and detached writes (R94, R99, R142 to R144). -/

namespace Sys2Proof.Rounds

open Sys2Proof.Machine Sys2Proof.Safety Sys2Proof.Laws Sys2Proof.Arrivals Sys2Proof.Expiries

variable {cfg : Image} {b b' : Blocks}

/-! ## Direct writes (R142 to R144) -/

/-- The loss reason that the end of a direct write gives (R143). -/
def lossOf : OpEnd → Option LossReason
  | .persisted => none
  | _ => some .memory

theorem directWriteEnd_eq (i : StreamId) (e : OpEnd) (b : Blocks) : directWriteEnd i e b = settleWrites (lossOf e) i 1 b := by
  cases e <;> rfl

/-- The blocks when a write of stream i has been settled (R143). -/
def settledAt (i : StreamId) (now : Nat) (reason : Option LossReason) (b : Blocks) : Blocks :=
  { b with clock := now }.modStream i fun r => { r with outstanding := r.outstanding - 1, loss := r.loss.or reason }

theorem settled_stream (slot : SlotNo) (i k : StreamId) (now : Nat) (reason : Option LossReason) (b : Blocks) :
    (freeSlot slot (settledAt i now reason b)).stream k =
      if k = i then
        { b.stream i with outstanding := (b.stream i).outstanding - 1, loss := (b.stream i).loss.or reason }
      else b.stream k := by
  rw [RestoreReads.freeSlot_stream, settledAt, Blocks.modStream_stream]
  rfl

theorem settled_journal (slot : SlotNo) (i : StreamId) (now : Nat) (reason : Option LossReason) (b : Blocks) :
    (freeSlot slot (settledAt i now reason b)).journal = b.journal := by
  rw [RestoreReads.freeSlot_journal, settledAt, Blocks.modStream_journal]

theorem settled_phase (slot : SlotNo) (i k : StreamId) (now : Nat) (reason : Option LossReason) (b : Blocks) :
    ((freeSlot slot (settledAt i now reason b)).stream k).phase = (b.stream k).phase := by
  rw [settled_stream]
  split
  · rename_i h
    rw [h]
  · rfl

theorem settled_other {slot : SlotNo} {i k : StreamId} (h : k ≠ i) (now : Nat) (reason : Option LossReason) (b : Blocks) :
    barrierDue (freeSlot slot (settledAt i now reason b)) k = barrierDue b k
      ∧ countDue (freeSlot slot (settledAt i now reason b)) k = countDue b k := by
  have hrec := settled_stream slot i k now reason b
  rw [if_neg h] at hrec
  exact ⟨by simp only [barrierDue, hrec], by simp only [countDue, hrec]⟩

theorem acceptWrite_handOver (i : StreamId) (op : MemOp) (cls : MemClass) (w : Owner) (b : Blocks) :
    acceptWrite i (handOver op cls w b) = handOver op cls w (acceptWrite i b) := by
  unfold acceptWrite answer
  rw [modStream_handOver, modStream_handOver]

section DirectWrite

variable {s : State} {i : StreamId} {id : OpId} {o : Outstanding} {cmd : Instr} {e : OpEnd} {now : Nat}

/-- The end of a direct write settles it in the event that frees its slot. -/
theorem directWrite_settles (how : o.owner = .directWrite i) (h : EndsAs s id o cmd e now) : exec cmd s = .next (after s
    (finishEvent s.mgmt.active (freeSlot id.slot (settledAt i now (lossOf e) s.blocks)))) := by
  unfold EndsAs handBack at h
  rw [how] at h
  exact h.trans (by dsimp only; rw [directWriteEnd_eq]; rfl)

variable (hs : atRest s = true) (hm : s.blocks.mem.matching id = some o) (how : o.owner = .directWrite i)
include hs hm how

theorem held_settled (reason : Option LossReason) :
    Held s.mgmt.active (freeSlot id.slot (settledAt i now reason s.blocks)) := by
  have hst := still_freed hs hm (by simp [how, Owner.restoreOf]) now
  exact (held_of_still hst).modStream i fun r => { r with outstanding := r.outstanding - 1, loss := r.loss.or reason }

theorem releases_settled (reason : Option LossReason) :
    requestReleases (freeSlot id.slot (settledAt i now reason s.blocks)) =
      freeSlot id.slot (settledAt i now reason s.blocks) :=
  requestReleases_none ((still_iff _ _).1 (still_freed hs hm (by simp [how, Owner.restoreOf]) now)).2.2.1

omit hm how in
theorem noFresh_settled (reason : Option LossReason) :
    noFresh (freeSlot id.slot (settledAt i now reason s.blocks)) = true := by
  obtain ⟨_, _, _, hfr, _⟩ := (atRest_iff s).1 hs
  rw [noFresh_iff] at hfr ⊢
  intro k
  rw [settled_phase]
  exact hfr k

theorem settled_quiet (hbarrier : ∀ ls, (s.blocks.stream i).phase = .barrier ls → 2 ≤ (s.blocks.stream i).outstanding)
    (hcount : (s.blocks.stream i).phase ≠ .countHold) (h : EndsAs s id o cmd e now) :
    ∃ t, exec cmd s = .next t ∧ blocksBecome s (settledAt i now (lossOf e) s.blocks) t := by
  obtain ⟨_, hn, hst, _, _⟩ := (atRest_iff s).1 hs
  have hdue (k : StreamId) : barrierDue (freeSlot id.slot (settledAt i now (lossOf e) s.blocks)) k = false
      ∧ countDue (freeSlot id.slot (settledAt i now (lossOf e) s.blocks)) k = false := by
    by_cases hk : k = i
    · subst hk
      have hphase := settled_phase id.slot k k now (lossOf e) s.blocks
      constructor
      · unfold barrierDue
        rw [hphase, settled_stream, if_pos rfl]
        split
        · rename_i ls hls
          have := hbarrier ls hls
          simp only [decide_eq_false_iff_not]
          omega
        · rfl
      · unfold countDue
        rw [hphase]
        split
        · rename_i hc
          exact absurd hc hcount
        · rfl
    · rw [(settled_other hk now (lossOf e) s.blocks).1, (settled_other hk now (lossOf e) s.blocks).2]
      exact ((still_iff _ _).1 hst).2.2.2 k
  have hexec := directWrite_settles how h
  have hheld := held_settled hs hm how (now := now) (lossOf e)
  have hfresh := noFresh_settled (id := id) (i := i) (now := now) hs (lossOf e)
  have hlive : (freeSlot id.slot (settledAt i now (lossOf e) s.blocks)).journal.notice = false := by
    rw [settled_journal, hn]
  have hgrants := onlyGrants_trans (onlyGrants_freeSlot id.slot (settledAt i now (lossOf e) s.blocks))
    (finishEvent_releases hheld hdue hfresh hlive)
  generalize finishEvent s.mgmt.active _ = x at hexec hgrants
  exact ⟨_, hexec, rfl, rfl, rfl, hgrants⟩

/-- The blocks when the waiting BARRIER of stream i has been answered (R144). -/
def barrierAnswered (i : StreamId) (tag : Tag) (now : Nat) (loss : Option LossReason) (b : Blocks) : Blocks :=
  ({ b with clock := now }.modStream i fun r => { r with
      queue := [], phase := .idle, conflict := none, captureStall := none, outstanding := 0, loss := none,
      sent := r.sent ++ [Response.done tag (barrierStatus loss)] }).modJournal fun j =>
    { j with demands := j.demands.filter fun x => decide (x.source ≠ DemandSource.barrier i) }

omit hs hm how in
theorem answerBarrier_settled {tag : Tag} (hq : (s.blocks.stream i).queue = [⟨tag, .barrier⟩])
    (hone : (s.blocks.stream i).outstanding = 1) (reason : Option LossReason) :
    answerBarrier i (freeSlot id.slot (settledAt i now reason s.blocks)) =
      freeSlot id.slot (barrierAnswered i tag now ((s.blocks.stream i).loss.or reason) s.blocks) := by
  have hrec := settled_stream id.slot i i now reason s.blocks
  rw [if_pos rfl] at hrec
  have hfront : ((freeSlot id.slot (settledAt i now reason s.blocks)).stream i).queue = ⟨tag, .barrier⟩ :: [] := by
    rw [hrec]
    exact hq
  have hstreams : ((answer i (barrierStatus ((s.blocks.stream i).loss.or reason)) none
        (freeSlot id.slot (settledAt i now reason s.blocks))).modStream i fun r => { r with loss := none }) =
      freeSlot id.slot ({ s.blocks with clock := now }.modStream i fun r => { r with
        queue := [], phase := .idle, conflict := none, captureStall := none, outstanding := 0, loss := none,
        sent := r.sent ++ [Response.done tag (barrierStatus ((s.blocks.stream i).loss.or reason))] }) := by
    rw [answer_front hfront, Blocks.modStream_modStream]
    have hmem (f : StreamRec → StreamRec) (b : Blocks) : (freeSlot id.slot b).modStream i f = freeSlot id.slot (b.modStream i f) := rfl
    rw [hmem, settledAt, Blocks.modStream_modStream]
    refine congrArg (freeSlot id.slot) (modStream_congr _ i ?_)
    have hone' : ({ s.blocks with clock := now }.stream i).outstanding = 1 := hone
    simp [goneOn, responseTo, hone']
  unfold answerBarrier
  dsimp only
  rw [hrec, hstreams]
  rfl

theorem settled_answersBarrier {tag : Tag} {ls : List Addr} (hphase : (s.blocks.stream i).phase = .barrier ls)
    (hq : (s.blocks.stream i).queue = [⟨tag, .barrier⟩]) (hone : (s.blocks.stream i).outstanding = 1)
    (h : EndsAs s id o cmd e now) : ∃ t, exec cmd s = .next t
      ∧ blocksBecome s (barrierAnswered i tag now ((s.blocks.stream i).loss.or (lossOf e)) s.blocks) t := by
  obtain ⟨_, hn, hst, hfr, _⟩ := (atRest_iff s).1 hs
  have hstream := ((still_iff _ _).1 hst).2.2.2
  have hbarrier (k : StreamId) :
      barrierDue (freeSlot id.slot (settledAt i now (lossOf e) s.blocks)) k = decide (k = i) := by
    by_cases hk : k = i
    · subst hk
      unfold barrierDue
      rw [settled_phase, settled_stream, if_pos rfl, hphase]
      simp [hone]
    · rw [(settled_other hk now (lossOf e) s.blocks).1, decide_eq_false hk]
      exact (hstream k).1
  have hanswer := answerBarrier_settled (id := id) (now := now) hq hone (lossOf e)
  generalize hloss : (s.blocks.stream i).loss.or (lossOf e) = loss at hanswer ⊢
  have hrec (k : StreamId) : (k ≠ i → (freeSlot id.slot (barrierAnswered i tag now loss s.blocks)).stream k = s.blocks.stream k)
      ∧ ((freeSlot id.slot (barrierAnswered i tag now loss s.blocks)).stream i).phase = .idle := by
    simp only [RestoreReads.freeSlot_stream, barrierAnswered, Blocks.modJournal_stream, Blocks.modStream_stream, if_true]
    exact ⟨fun hk => if_neg hk, trivial⟩
  have hcount (k : StreamId) : countDue (freeSlot id.slot (barrierAnswered i tag now loss s.blocks)) k = false := by
    by_cases hk : k = i
    · rw [hk, countDue, (hrec i).2]
    · rw [← (hstream k).2]
      simp only [countDue, (hrec k).1 hk]
  have hprogress : progress s.mgmt.active (freeSlot id.slot (settledAt i now (lossOf e) s.blocks)) =
      freeSlot id.slot (barrierAnswered i tag now loss s.blocks) := by
    rw [progress_held (held_settled hs hm how (lossOf e)), releases_settled hs hm how, answerBarriers_one hbarrier, hanswer,
      handOnCounts_none hcount]
  have hfresh : noFresh (freeSlot id.slot (barrierAnswered i tag now loss s.blocks)) = true := by
    rw [noFresh_iff] at hfr ⊢
    intro k
    by_cases hk : k = i
    · rw [hk, (hrec i).2]
      exact Phase.noConfusion
    · rw [(hrec k).1 hk]
      exact hfr k
  have hexec := directWrite_settles how h
  rw [finishEvent_progressed hprogress hfresh hn] at hexec
  exact ⟨_, hexec, rfl, rfl, rfl, onlyGrants_trans (onlyGrants_mem _) (arbitrate_frame _ 32 _)⟩

/-- The blocks when the WRITE held at a full count has been accepted (R142). -/
def handedOn (i : StreamId) (tag : Tag) (now : Nat) (reason : Option LossReason) (b : Blocks) : Blocks :=
  { b with clock := now }.modStream i fun r => { r with
    queue := [], phase := .idle, conflict := none, captureStall := none, loss := r.loss.or reason,
    sent := r.sent ++ [Response.ack tag .okay] }

omit hs hm how in
theorem handleCurrent_settled {tag : Tag} {a : Addr} {m : ByteMask} {d : LineData} {w : Window}
    (hcount : (s.blocks.stream i).outstanding = 65535) (hq : (s.blocks.stream i).queue = [⟨tag, .write a m d⟩])
    (hmask : m ≠ 0) (hw : lookup s.mgmt.active (lineOf a) = .window w) (hkind : w.kind = .direct)
    (hwriter : w.writers.getLsbD i.val = true) (reason : Option LossReason) :
    handleCurrent s.mgmt.active i (setPhase i .fresh (freeSlot id.slot (settledAt i now reason s.blocks))) =
      handOver (.lineWrite (lineOf a) m d) .passThrough (.directWrite i)
        (freeSlot id.slot (handedOn i tag now reason s.blocks)) := by
  have hrec : (setPhase i .fresh (freeSlot id.slot (settledAt i now reason s.blocks))).stream i =
      { s.blocks.stream i with
        outstanding := (s.blocks.stream i).outstanding - 1, loss := (s.blocks.stream i).loss.or reason, phase := .fresh } := by
    rw [setPhase, Blocks.modStream_stream_same, settled_stream, if_pos rfl]
  have hfront : ((setPhase i .fresh (freeSlot id.slot (settledAt i now reason s.blocks))).stream i).queue =
      ⟨tag, .write a m d⟩ :: [] := by
    rw [hrec]
    exact hq
  have hroom : ((setPhase i .fresh (freeSlot id.slot (settledAt i now reason s.blocks))).stream i).outstanding ≠
      Config.outstandingLimit := by
    rw [hrec]
    simp [hcount, Config.outstandingLimit]
  have hclass (b : Blocks) : classifyWrite s.mgmt.active b i (lineOf a) m = .direct := by
    rw [classifyWrite_window hmask hw, if_neg (by simp [hkind]), if_neg (by simp [hwriter]), if_pos hkind]
  have haccept : acceptWrite i (setPhase i .fresh (freeSlot id.slot (settledAt i now reason s.blocks))) =
      freeSlot id.slot (handedOn i tag now reason s.blocks) := by
    have hmem (f : StreamRec → StreamRec) (b : Blocks) :
        (freeSlot id.slot b).modStream i f = freeSlot id.slot (b.modStream i f) := rfl
    have hcount' : ({ s.blocks with clock := now }.stream i).outstanding = 65535 := hcount
    unfold acceptWrite
    rw [answer_front hfront, setPhase, hmem, hmem, hmem, settledAt, Blocks.modStream_modStream, Blocks.modStream_modStream,
      Blocks.modStream_modStream]
    refine congrArg (freeSlot id.slot) (modStream_congr _ i ?_)
    simp [goneOn, responseTo, hcount']
  unfold handleCurrent
  rw [hfront]
  dsimp only
  rw [handleWrite, if_neg hroom, hclass]
  dsimp only
  rw [directWrite, acceptWrite_handOver, haccept]

theorem settled_handsOn {tag : Tag} {a : Addr} {m : ByteMask} {d : LineData} {w : Window}
    (hphase : (s.blocks.stream i).phase = .countHold) (hcount : (s.blocks.stream i).outstanding = 65535)
    (hq : (s.blocks.stream i).queue = [⟨tag, .write a m d⟩]) (hmask : m ≠ 0)
    (hw : lookup s.mgmt.active (lineOf a) = .window w) (hkind : w.kind = .direct)
    (hwriter : w.writers.getLsbD i.val = true) (h : EndsAs s id o cmd e now) : ∃ t, exec cmd s = .next t
      ∧ blocksBecome s (handedOn i tag now (lossOf e) s.blocks) t
      ∧ inPort t.blocks.mem (.lineWrite (lineOf a) m d) (.directWrite i) = true := by
  obtain ⟨_, hn, hst, hfr, _⟩ := (atRest_iff s).1 hs
  have hstream := ((still_iff _ _).1 hst).2.2.2
  have hcountDue (k : StreamId) : countDue (freeSlot id.slot (settledAt i now (lossOf e) s.blocks)) k = decide (k = i) := by
    by_cases hk : k = i
    · subst hk
      unfold countDue
      rw [settled_phase, settled_stream, if_pos rfl, hphase]
      simp [hcount, Config.outstandingLimit]
    · rw [(settled_other hk now (lossOf e) s.blocks).2, decide_eq_false hk]
      exact (hstream k).2
  have hbarrier (k : StreamId) : barrierDue (freeSlot id.slot (settledAt i now (lossOf e) s.blocks)) k = false := by
    by_cases hk : k = i
    · subst hk
      unfold barrierDue
      rw [settled_phase, hphase]
    · rw [(settled_other hk now (lossOf e) s.blocks).1]
      exact (hstream k).1
  have hprogress : progress s.mgmt.active (freeSlot id.slot (settledAt i now (lossOf e) s.blocks)) =
      setPhase i .fresh (freeSlot id.slot (settledAt i now (lossOf e) s.blocks)) := by
    rw [progress_held (held_settled hs hm how (lossOf e)), releases_settled hs hm how, answerBarriers_none hbarrier,
      handOnCounts_one hcountDue]
  have hone (k : StreamId) :
      ((setPhase i .fresh (freeSlot id.slot (settledAt i now (lossOf e) s.blocks))).stream k).phase = .fresh ↔ k = i := by
    rw [setPhase, Blocks.modStream_stream]
    split
    · rename_i hk
      simp [hk]
    · rename_i hk
      rw [settled_phase]
      simp [hk, (noFresh_iff _).1 hfr k]
  have hstill : still s.mgmt.active (freeSlot id.slot (handedOn i tag now (lossOf e) s.blocks)) = true :=
    still_modStream (still_freed hs hm (by simp [how, Owner.restoreOf]) now) i
      (fun r => { r with
        queue := [], phase := .idle, conflict := none, captureStall := none, loss := r.loss.or (lossOf e),
        sent := r.sent ++ [Response.ack tag .okay] }) (notDue_of_phase (by simp) (by simp))
  have hfresh : noFresh (freeSlot id.slot (handedOn i tag now (lossOf e) s.blocks)) = true := by
    rw [noFresh_iff] at hfr ⊢
    intro k
    rw [RestoreReads.freeSlot_stream, handedOn, Blocks.modStream_stream]
    split
    · exact Phase.noConfusion
    · exact hfr k
  have hlive : (freeSlot id.slot (handedOn i tag now (lossOf e) s.blocks)).journal.notice = false := by
    rw [RestoreReads.freeSlot_journal, handedOn, Blocks.modStream_journal, hn]
  have hexec := directWrite_settles how h
  have hhandled := handleCurrent_settled (id := id) (now := now) hcount hq hmask hw hkind hwriter (lossOf e)
  have hgrants := onlyGrants_freeSlot id.slot (handedOn i tag now (lossOf e) s.blocks)
  generalize freeSlot id.slot (handedOn i tag now (lossOf e) s.blocks) = x at hstill hfresh hlive hhandled hgrants
  obtain ⟨p, hp, _⟩ := handOver_frame (.lineWrite (lineOf a) m d) .passThrough (.directWrite i) x
  have hprogress' : progress s.mgmt.active (handleCurrent s.mgmt.active i
      (setPhase i .fresh (freeSlot id.slot (settledAt i now (lossOf e) s.blocks)))) =
        handOver (.lineWrite (lineOf a) m d) .passThrough (.directWrite i) x := by
    rw [hhandled, progress_still (still_handOver hstill _ _ _)]
  rw [finishEvent_handles hprogress hone hprogress' (by rw [hp]; exact hfresh) (by rw [handOver_journal, hlive])] at hexec
  have hall : OnlyGrants (handedOn i tag now (lossOf e) s.blocks)
      (arbitrate s.mgmt.active 32 (handOver (.lineWrite (lineOf a) m d) .passThrough (.directWrite i) x)) := by
    refine onlyGrants_trans hgrants (onlyGrants_trans ?_ (arbitrate_frame _ 32 _))
    rw [hp]
    exact onlyGrants_mem p
  exact ⟨_, hexec, ⟨rfl, rfl, rfl, hall⟩,
    arbitrate_inPort _ 32 (fun _ => Owner.noConfusion) (handOver_inPort hlive _ _ _)⟩

end DirectWrite

/-- Settles O46. -/
theorem directWriteEndsSettleTheCount : Obligations.DirectWriteEndsSettleTheCount := by
  intro i tag l m d id o s hs hm hop how
  obtain ⟨hup, _⟩ := (atRest_iff s).1 hs
  have hpersisted := completion_ends hup hm (cmd := .directWriteDone id .persisted) rfl
  have herror := completion_ends hup hm (cmd := .directWriteDone id .error) rfl
  have htimeout := timeout_ends hup hm
  rw [hop] at hpersisted herror
  refine ⟨fun hbarrier hcount => ⟨settled_quiet hs hm how hbarrier hcount hpersisted,
      settled_quiet hs hm how hbarrier hcount herror, settled_quiet hs hm how hbarrier hcount htimeout⟩,
    fun ls hphase hq hone => ⟨?_, settled_answersBarrier hs hm how hphase hq hone herror,
      settled_answersBarrier hs hm how hphase hq hone htimeout⟩, ?_, ?_, ?_⟩
  · have hanswered := settled_answersBarrier hs hm how hphase hq hone hpersisted
    have hloss : (s.blocks.stream i).loss.or (lossOf (endOf (.lineWrite l m d) .persisted)) = (s.blocks.stream i).loss :=
      Option.or_none
    rw [hloss] at hanswered
    exact hanswered
  · intro a m' d' w hphase hcount hq hmask hw hkind hwriter
    exact settled_handsOn hs hm how hphase hcount hq hmask hw hkind hwriter hpersisted
  · intro a m' d' w hphase hcount hq hmask hw hkind hwriter
    exact settled_handsOn hs hm how hphase hcount hq hmask hw hkind hwriter herror
  · intro a m' d' w hphase hcount hq hmask hw hkind hwriter
    exact settled_handsOn hs hm how hphase hcount hq hmask hw hkind hwriter htimeout

end Sys2Proof.Rounds


/-! SUPPORT. The end of a detached write (R94, R99), and what settling and discarding held writes leave in a stream. -/

namespace Sys2Proof.Rounds

open Sys2Proof.Machine Sys2Proof.Safety Sys2Proof.Laws Sys2Proof.Arrivals Sys2Proof.Expiries

variable {cfg : Image} {b b' : Blocks}

/-! ## Settled contributors (R94, R97, R143) -/

/-- The writes of a stream among some contributors. -/
def shareOf (i : StreamId) (cs : List (StreamId × Nat)) : List (StreamId × Nat) := cs.filter fun x => decide (x.1 = i)

/-- A stream record after some of its writes have been settled with a loss reason, or without. -/
def afterShare (reason : Option LossReason) (share : List (StreamId × Nat)) (r : StreamRec) : StreamRec :=
  { r with
    outstanding := r.outstanding - (share.map (·.2)).sum
    loss := if share = [] then r.loss else r.loss.or reason }

theorem settleContributors_stream (reason : Option LossReason) (cs : List (StreamId × Nat)) (b : Blocks) (i : StreamId) :
    (settleContributors reason cs b).stream i = afterShare reason (shareOf i cs) (b.stream i) := by
  induction cs generalizing b with
  | nil => simp [settleContributors, shareOf, afterShare]
  | cons x cs ih =>
    have hstep : settleContributors reason (x :: cs) b = settleContributors reason cs (settleWrites reason x.1 x.2 b) := rfl
    rw [hstep, ih, settleWrites, Blocks.modStream_stream]
    by_cases hx : i = x.1
    · have hshare : shareOf i (x :: cs) = x :: shareOf i cs := List.filter_cons_of_pos (by simp [hx])
      rw [if_pos hx, hshare, hx]
      have hor (l : Option LossReason) : (l.or reason).or reason = l.or reason := by cases l <;> cases reason <;> rfl
      simp only [afterShare, List.map_cons, List.sum_cons, reduceCtorEq, if_false, hor, ite_self, Nat.sub_add_eq]
    · have hshare : shareOf i (x :: cs) = shareOf i cs := List.filter_cons_of_neg (by simpa using Ne.symm hx)
      rw [if_neg hx, hshare]

/-- Settling writes changes nothing but the stream records. -/
theorem settleContributors_frame (reason : Option LossReason) (cs : List (StreamId × Nat)) (b : Blocks) :
    ∃ r, settleContributors reason cs b = { b with req := r } := by
  induction cs generalizing b with
  | nil => exact ⟨b.req, rfl⟩
  | cons x cs ih =>
    obtain ⟨r, hr⟩ := ih (settleWrites reason x.1 x.2 b)
    exact ⟨r, hr⟩

theorem afterShare_phase (reason : Option LossReason) (share : List (StreamId × Nat)) (r : StreamRec) :
    (afterShare reason share r).phase = r.phase := rfl

theorem shareOf_notMem {i : StreamId} {cs : List (StreamId × Nat)} (h : i ∉ cs.map (·.1)) : shareOf i cs = [] := by
  refine List.filter_eq_nil_iff.2 fun x hx => ?_
  simp only [decide_eq_true_eq]
  rintro rfl
  exact h (List.mem_map_of_mem hx)

theorem shareOf_nodup {i : StreamId} {n : Nat} {cs : List (StreamId × Nat)} (hnodup : (cs.map (·.1)).Nodup)
    (h : (i, n) ∈ cs) : shareOf i cs = [(i, n)] := by
  induction cs with
  | nil => cases h
  | cons x cs ih =>
    rw [List.map_cons, List.nodup_cons] at hnodup
    rcases List.mem_cons.1 h with rfl | h
    · have hrest : shareOf i cs = [] := shareOf_notMem hnodup.1
      rw [shareOf, List.filter_cons_of_pos (by simp)]
      exact congrArg _ hrest
    · have hne : x.1 ≠ i := by
        rintro rfl
        exact hnodup.1 (List.mem_map_of_mem (f := (·.1)) h)
      rw [shareOf, List.filter_cons_of_neg (by simpa using hne)]
      exact ih hnodup.2 h

theorem afterShare_nil (reason : Option LossReason) (r : StreamRec) : afterShare reason [] r = r := by
  simp [afterShare]

/-! ## What stands still depends on -/

theorem Held.congr (h : Held cfg b) (hepochs : b'.epochs = b.epochs) (htrack : b'.track = b.track)
    (hentries : b'.held.entries = b.held.entries) (hj : b'.journal = b.journal) (hm : b'.mem = b.mem) : Held cfg b' := by
  refine ⟨fun c => ?_, serveOne_none_congr hj h.buffer⟩
  have hctx := h.context c
  simp only [drainDue, quiesceDue, nextRestore, retireDue, rollbackIn, unslotted, Blocks.ctx, Blocks.heldCount,
    Blocks.capturing, Blocks.entriesOf, hepochs, htrack, hentries, hj, hm] at hctx ⊢
  exact hctx

/-- A part in which streams only read or are idle has no BARRIER and no held WRITE due. -/
theorem notDue_of_phases (h : ∀ i, (b.stream i).phase = .idle ∨ (b.stream i).phase = .reading) (i : StreamId) :
    barrierDue b i = false ∧ countDue b i = false := by
  refine notDue_of_phase ?_ ?_ <;> rcases h i with h | h <;> simp [h]

theorem noFresh_of_phases (h : ∀ i, (b.stream i).phase = .idle ∨ (b.stream i).phase = .reading) : noFresh b = true := by
  refine (noFresh_iff b).2 fun i => ?_
  rcases h i with h | h <;> simp [h]

/-! ## Detached writes (R94, R99) -/

section Detached

variable {s : State} {l : Addr} {w : Detached} {id : OpId} {o : Outstanding} {cmd : Instr} {e : OpEnd} {now : Nat}

/-- The overlay records after the end of a detached write. -/
def overlaysAfter (l : Addr) (w : Detached) (e : OpEnd) (v : List Overlay) : List Overlay :=
  if e = .persisted then overlaid l w.mask w.data v else v

/-- What the end of a detached write leaves in the blocks. -/
structure DetachedGone (l : Addr) (w : Detached) (e : OpEnd) (b b' : Blocks) : Prop where
  epochs : b'.epochs = b.epochs
  track : b'.track = b.track
  journal : b'.journal = b.journal
  entries : b'.held.entries = b.held.entries
  detached : b'.held.detached = b.held.detached.filter fun x => decide (x.line ≠ l)
  overlays : b'.held.overlays = overlaysAfter l w e b.held.overlays
  stream : ∀ i, b'.stream i = afterShare (lossOf e) (shareOf i w.contributors) (b.stream i)

theorem detachedEnd_gone (hw : b.held.detached.find? (fun x => decide (x.line = l)) = some w) (e : OpEnd) :
    DetachedGone l w e b (detachedEnd l e b) ∧ (detachedEnd l e b).mem = b.mem := by
  have hstream (i : StreamId) := settleContributors_stream (lossOf e) w.contributors
    (b.modHeld fun h => { h with detached := h.detached.filter fun x => decide (x.line ≠ l) }) i
  obtain ⟨r, hr⟩ := settleContributors_frame (lossOf e) w.contributors
    (b.modHeld fun h => { h with detached := h.detached.filter fun x => decide (x.line ≠ l) })
  have hend : detachedEnd l e b = (settleContributors (lossOf e) w.contributors
      (b.modHeld fun h => { h with detached := h.detached.filter fun x => decide (x.line ≠ l) })).modHeld fun h =>
        { h with overlays := overlaysAfter l w e h.overlays } := by
    unfold detachedEnd
    rw [hw]
    cases e <;> rfl
  rw [hend]
  refine ⟨⟨?_, ?_, ?_, ?_, ?_, ?_, hstream⟩, ?_⟩ <;> rw [hr] <;> rfl

theorem detached_ends (hs : atRest s = true) (hphase : ∀ i, (s.blocks.stream i).phase = .idle ∨ (s.blocks.stream i).phase = .reading)
    (hm : s.blocks.mem.matching id = some o) (how : o.owner = .detached l)
    (hw : s.blocks.held.detached.find? (fun x => decide (x.line = l)) = some w) (h : EndsAs s id o cmd e now) :
    ∃ b, exec cmd s = .next (after s b) ∧ b.epochs = s.blocks.epochs ∧ b.track = s.blocks.track
      ∧ b.journal = s.blocks.journal ∧ b.held.detached = s.blocks.held.detached.filter (fun x => decide (x.line ≠ l))
      ∧ b.held.overlays = overlaysAfter l w e s.blocks.held.overlays
      ∧ ∀ i, b.stream i = afterShare (lossOf e) (shareOf i w.contributors) (s.blocks.stream i) := by
  obtain ⟨_, hn, _⟩ := (atRest_iff s).1 hs
  have hheld := held_of_still (still_freed hs hm (by simp [how, Owner.restoreOf]) now)
  obtain ⟨hgone, hmem⟩ := detachedEnd_gone (b := freeSlot id.slot { s.blocks with clock := now }) hw e
  unfold EndsAs handBack at h
  rw [how] at h
  dsimp only at h
  generalize detachedEnd l e (freeSlot id.slot { s.blocks with clock := now }) = x at h hgone hmem
  have hphase' (i : StreamId) : (x.stream i).phase = .idle ∨ (x.stream i).phase = .reading := by
    rw [hgone.stream]
    exact hphase i
  have hgrants := finishEvent_releases (hheld.congr hgone.epochs hgone.track hgone.entries hgone.journal hmem)
    (notDue_of_phases hphase') (noFresh_of_phases hphase') (by rw [hgone.journal]; exact hn)
  generalize finishEvent s.mgmt.active x = y at h hgrants
  refine ⟨y, h, hgrants.epochs.trans hgone.epochs, hgrants.track.trans hgone.track, hgrants.journal.trans hgone.journal,
    hgrants.detached.trans hgone.detached, hgrants.overlays.trans hgone.overlays, fun i => ?_⟩
  rw [Blocks.stream, hgrants.req]
  exact hgone.stream i

end Detached

theorem writeLine_some {op : MemOp} {l : Addr} (h : op.writeLine = some l) : ∃ m d, op = .lineWrite l m d := by
  cases op with
  | lineWrite l' m d =>
    cases h
    exact ⟨m, d, rfl⟩
  | lineRead _ => cases h
  | slotBurst _ _ => cases h
  | anchorWrite _ _ => cases h

theorem phase_of_idleStream {r : StreamRec} (h : idleStream r = true) : r.phase = .idle := by
  obtain ⟨_, hp, _⟩ := (idleStream_iff r).1 h
  exact hp

theorem alone_iff (s : State) : alone s = true ↔ atRest s = true ∧ ∀ i, idleStream (s.blocks.stream i) = true := by
  simp [alone, List.all_eq_true]

/-- Settles O49. -/
theorem detachedWriteEndsItsRecord : Obligations.DetachedWriteEndsItsRecord := by
  refine ⟨fun l w id o s hreads hm hop how hw => ?_, fun l w id o s halone hm hop how hw hnodup => ?_⟩
  · obtain ⟨hs, _, hphase⟩ := hreads
    obtain ⟨hup, _⟩ := (atRest_iff s).1 hs
    have hphase' (i : StreamId) := (hphase i).imp_left phase_of_idleStream
    have hend {cmd : Instr} {e : OpEnd} (h : EndsAs s id o cmd e s.blocks.clock) : ∃ t, exec cmd s = .next t
        ∧ t.blocks.held.overlays = overlaysAfter l w e s.blocks.held.overlays := by
      obtain ⟨b, hexec, _, _, _, _, hoverlays, _⟩ := detached_ends hs hphase' hm how hw h
      exact ⟨_, hexec, hoverlays⟩
    obtain ⟨m, d, hop⟩ := writeLine_some hop
    have hpersisted := completion_ends hup hm (cmd := .detachedWriteDone id .persisted) rfl
    have herror := completion_ends hup hm (cmd := .detachedWriteDone id .error) rfl
    rw [hop] at hpersisted herror
    exact ⟨hend hpersisted, hend herror⟩
  · obtain ⟨hs, hidle⟩ := (alone_iff s).1 halone
    obtain ⟨hup, _⟩ := (atRest_iff s).1 hs
    have hphase (i : StreamId) : (s.blocks.stream i).phase = .idle ∨ (s.blocks.stream i).phase = .reading :=
      .inl (phase_of_idleStream (hidle i))
    have hend {cmd : Instr} {e : OpEnd} (h : EndsAs s id o cmd e s.blocks.clock) : ∃ t, exec cmd s = .next t ∧ t.mgmt = s.mgmt
        ∧ t.blocks.held.detached = s.blocks.held.detached.filter (fun x => decide (x.line ≠ l))
        ∧ (∀ i n, (i, n) ∈ w.contributors →
          (t.blocks.stream i).outstanding = (s.blocks.stream i).outstanding - n
          ∧ (t.blocks.stream i).loss = (s.blocks.stream i).loss.or (lossOf e))
        ∧ (∀ i, i ∉ w.contributors.map (·.1) → t.blocks.stream i = s.blocks.stream i)
        ∧ t.blocks.epochs = s.blocks.epochs ∧ t.blocks.track = s.blocks.track ∧ t.blocks.journal = s.blocks.journal := by
      obtain ⟨b, hexec, hepochs, htrack, hj, hdetached, _, hstream⟩ := detached_ends hs hphase hm how hw h
      refine ⟨_, hexec, rfl, hdetached, fun i n hin => ?_, fun i hi => ?_, hepochs, htrack, hj⟩
      · have hrec := hstream i
        rw [shareOf_nodup hnodup hin] at hrec
        exact ⟨congrArg StreamRec.outstanding hrec, congrArg StreamRec.loss hrec⟩
      · have hrec := hstream i
        rw [shareOf_notMem hi, afterShare_nil] at hrec
        exact hrec
    obtain ⟨m, d, hop⟩ := writeLine_some hop
    have hpersisted := completion_ends hup hm (cmd := .detachedWriteDone id .persisted) rfl
    have herror := completion_ends hup hm (cmd := .detachedWriteDone id .error) rfl
    rw [hop] at hpersisted herror
    exact ⟨hend hpersisted, hend herror⟩

end Sys2Proof.Rounds


/-! SUPPORT. What decides whether a part goes on: for contexts and buffer, for releases; and that bursts, demands and
hand-overs leave it. -/

namespace Sys2Proof.Rounds

open Sys2Proof.Machine Sys2Proof.Safety Sys2Proof.Laws Sys2Proof.Arrivals Sys2Proof.Expiries

variable {cfg : Image} {a b b' c : Blocks}

/-! ## Contexts and buffer -/

theorem serveOne_none_iff : serveOne cfg b = none ↔ b.journal.writing = false
    ∨ (b.journal.markerQueue ≠ [] ∧ b.journal.freeBuffer < 1)
    ∨ (b.journal.markerQueue = [] ∧ (b.journal.captureQueue = [] ∨ b.journal.freeBuffer < 2)) := by
  unfold serveOne
  dsimp only
  cases hw : b.journal.writing with
  | false => simp
  | true =>
    rw [if_neg (by simp)]
    cases b.journal.markerQueue with
    | cons m rest => simp
    | nil => cases b.journal.captureQueue <;> simp

/-- From one state to another nothing changes on which contexts and buffer depend, but for buffer slots that are taken. -/
structure Stands (b b' : Blocks) : Prop where
  ctxs : ∀ k, (b'.ctx k).state = (b.ctx k).state ∧ (b'.ctx k).rollback = (b.ctx k).rollback
  heldCount : ∀ k, b'.heldCount k = b.heldCount k
  track : b'.track = b.track
  outstanding : ∀ k, b'.mem.restoreOutstanding k = b.mem.restoreOutstanding k
  state : b'.journal.state = b.journal.state
  notice : b'.journal.notice = b.journal.notice
  head : b'.journal.head = b.journal.head
  markerQueue : b'.journal.markerQueue = b.journal.markerQueue
  captureQueue : b'.journal.captureQueue = b.journal.captureQueue
  buffer : b'.journal.freeBuffer ≤ b.journal.freeBuffer

theorem Stands.refl (b : Blocks) : Stands b b :=
  ⟨fun _ => ⟨rfl, rfl⟩, fun _ => rfl, rfl, fun _ => rfl, rfl, rfl, rfl, rfl, rfl, le_rfl⟩

theorem Stands.trans (h : Stands a b) (k : Stands b c) : Stands a c where
  ctxs x := ⟨(k.ctxs x).1.trans (h.ctxs x).1, (k.ctxs x).2.trans (h.ctxs x).2⟩
  heldCount x := (k.heldCount x).trans (h.heldCount x)
  track := k.track.trans h.track
  outstanding x := (k.outstanding x).trans (h.outstanding x)
  state := k.state.trans h.state
  notice := k.notice.trans h.notice
  head := k.head.trans h.head
  markerQueue := k.markerQueue.trans h.markerQueue
  captureQueue := k.captureQueue.trans h.captureQueue
  buffer := k.buffer.trans h.buffer

/-- A context has nothing due. -/
def ctxQuiet (b : Blocks) (k : CtxId) : Prop :=
  drainDue b k = false ∧ quiesceDue b k = false ∧ nextRestore b k = none ∧ retireDue b k = false

theorem Stands.ctxQuiet (h : Stands b b') {k : CtxId} (hk : ctxQuiet b k) : ctxQuiet b' k := by
  obtain ⟨hstate, hrollback⟩ := h.ctxs k
  simp only [Rounds.ctxQuiet, drainDue, quiesceDue, nextRestore, retireDue, rollbackIn, unslotted, Blocks.capturing,
    Blocks.entriesOf, hstate, hrollback, h.heldCount k, h.track, h.outstanding k, h.notice, h.head] at hk ⊢
  exact hk

theorem Held.of (h : Held cfg b) (hs : Stands b b') : Held cfg b' := by
  refine ⟨fun k => hs.ctxQuiet (h.context k), ?_⟩
  have hserve := serveOne_none_iff.1 h.buffer
  have hbuffer := hs.buffer
  rw [serveOne_none_iff]
  simp only [JournalWriter.writing, hs.state, hs.notice, hs.markerQueue, hs.captureQueue] at hserve ⊢
  rcases hserve with hw | ⟨hq, hfree⟩ | ⟨hq, hc⟩
  · exact .inl hw
  · exact .inr (.inl ⟨hq, by omega⟩)
  · refine .inr (.inr ⟨hq, hc.imp_right fun hfree => by omega⟩)

theorem stands_modStream (i : StreamId) (f : StreamRec → StreamRec) (b : Blocks) : Stands b (b.modStream i f) :=
  ⟨fun _ => ⟨rfl, rfl⟩, fun _ => rfl, rfl, fun _ => rfl, rfl, rfl, rfl, rfl, rfl, le_rfl⟩

theorem restoreOutstanding_congr {m n : MemoryPort} (h : m.slots = n.slots) (k : CtxId) :
    m.restoreOutstanding k = n.restoreOutstanding k := by
  simp only [MemoryPort.restoreOutstanding, MemoryPort.ops, h]

theorem stands_handOver (op : MemOp) (cls : MemClass) (o : Owner) (b : Blocks) : Stands b (handOver op cls o b) := by
  obtain ⟨m, hm, hslots⟩ := handOver_frame op cls o b
  rw [hm]
  exact ⟨fun _ => ⟨rfl, rfl⟩, fun _ => rfl, rfl, restoreOutstanding_congr hslots, rfl, rfl, rfl, rfl, rfl, le_rfl⟩

/-- A change of the Journal Writer beside its state, its queues and its head that frees no buffer slot. -/
theorem stands_modJournal {f : JournalWriter → JournalWriter} (hstate : (f b.journal).state = b.journal.state)
    (hnotice : (f b.journal).notice = b.journal.notice) (hhead : (f b.journal).head = b.journal.head)
    (hmarker : (f b.journal).markerQueue = b.journal.markerQueue)
    (hcapture : (f b.journal).captureQueue = b.journal.captureQueue)
    (hbuffer : (f b.journal).freeBuffer ≤ b.journal.freeBuffer) : Stands b (b.modJournal f) :=
  ⟨fun _ => ⟨rfl, rfl⟩, fun _ => rfl, rfl, fun _ => rfl, hstate, hnotice, hhead, hmarker, hcapture, hbuffer⟩

theorem stands_foldl {α : Type} {f : Blocks → α → Blocks} (h : ∀ b x, Stands b (f b x)) (l : List α) (b : Blocks) :
    Stands b (l.foldl f b) := by
  induction l generalizing b with
  | nil => exact .refl b
  | cons x l ih => exact (h b x).trans (ih _)

/-! ### Demands and bursts -/

/-- A demand that is placed joins the others or changes nothing. -/
theorem placeDemand_journal (d : Demand) (b : Blocks) :
    ∃ l, placeDemand d b = b.modJournal (fun j => { j with demands := j.demands ++ l }) ∧ l.length ≤ 1 := by
  by_cases hd : d ∈ b.journal.demands
  · refine ⟨[], ?_, Nat.zero_le _⟩
    unfold placeDemand Blocks.modJournal
    simp [hd]
  · by_cases hs : (b.journal.staging.any fun x => decide (x.pos.seq = d.seq)) = true
    · refine ⟨[d], ?_, le_rfl⟩
      unfold placeDemand Blocks.modJournal
      dsimp only
      rw [if_neg hd, if_pos hs]
    · refine ⟨[], ?_, Nat.zero_le _⟩
      unfold placeDemand Blocks.modJournal
      dsimp only
      rw [if_neg hd, if_neg hs]
      simp

theorem stands_placeDemand (d : Demand) (b : Blocks) : Stands b (placeDemand d b) := by
  obtain ⟨l, hl, _⟩ := placeDemand_journal d b
  rw [hl]
  exact stands_modJournal rfl rfl rfl rfl rfl le_rfl

theorem mem_placeDemand {d : Demand} {b : Blocks} (h : ∃ x ∈ b.journal.staging, x.pos.seq = d.seq) :
    d ∈ (placeDemand d b).journal.demands := by
  unfold placeDemand
  rw [Blocks.modJournal_journal]
  split
  · assumption
  · rw [if_pos (by simpa using h)]
    simp

theorem burstSlots_length (l : List StagedSlot) : (burstSlots l).length ≤ l.length := by
  cases l with
  | nil => exact le_rfl
  | cons x l =>
    have htake : (l.takeWhile fun t => decide (t.pos.idx ≠ 0)).length ≤ l.length := (List.takeWhile_sublist _).length_le
    simp only [burstSlots, List.length_cons, List.length_take]
    omega

/-- A burst takes slots of the buffer into flight; their number stays. -/
theorem issueBurst_length (j : JournalWriter) :
    ((j.staging.filter fun x => x.inFlight) ++ (burstSlots j.unburst).map (fun x => { x with inFlight := true : StagedSlot })
      ++ j.unburst.drop (burstSlots j.unburst).length).length = j.staging.length := by
  have hle := burstSlots_length j.unburst
  have htotal : (j.staging.filter fun s => s.inFlight).length + j.unburst.length = j.staging.length :=
    (List.length_eq_length_filter_add (l := j.staging) fun s => s.inFlight).symm
  simp only [List.length_append, List.length_map, List.length_drop]
  omega

theorem stands_issueBurst (cfg : Image) (b : Blocks) : Stands b (issueBurst cfg b) := by
  unfold issueBurst
  dsimp only
  split
  · exact .refl b
  · refine (stands_modJournal rfl rfl rfl rfl rfl ?_).trans (stands_handOver _ _ _ _)
    unfold JournalWriter.freeBuffer
    dsimp only
    rw [issueBurst_length]

theorem stands_burstCheck (cfg : Image) (b : Blocks) : Stands b (burstCheck cfg b) := by
  unfold burstCheck
  split
  · exact stands_issueBurst cfg b
  · exact .refl b

/-! ## Releases -/

/-- No release is to be asked for: the oldest entry of a line, when it is READY, is held back or its release waits. -/
def NoRelease (b : Blocks) : Prop := ∀ l e, b.held.oldest l = some e → e.state = .ready →
  b.held.hasDetached l = true ∨ (b.mem.waiting.any fun r => decide (r.owner = .release l)) = true ∨ b.journal.notice = true

theorem oldest_line {h : HeldQueue} {l : Addr} {e : HeldEntry} (he : h.oldest l = some e) : e.line = l ∧ e ∈ h.entries :=
  ⟨by simpa using List.find?_some he, List.mem_of_find?_eq_some he⟩

theorem noRelease_iff : NoRelease b ↔ ∀ e ∈ b.held.entries, releaseDue b e = false := by
  constructor
  · intro h e _
    unfold releaseDue
    by_cases hready : e.state = .ready
    · by_cases hold : b.held.oldest e.line = some e
      · rcases h _ _ hold hready with h | h | h <;> simp [h]
      · simp [hold]
    · simp [hready]
  · intro h l e hold hready
    obtain ⟨rfl, he⟩ := oldest_line hold
    have hdue := h e he
    simp only [releaseDue, hready, hold, decide_true, Bool.true_and, Bool.and_eq_false_iff, Bool.not_eq_false'] at hdue
    tauto

theorem noRelease_of_still (h : still cfg b = true) : NoRelease b := noRelease_iff.2 ((still_iff cfg b).1 h).2.2.1

/-- Releases stay not due when each line's oldest entry keeps its state and no waiting release goes. -/
theorem NoRelease.of (h : NoRelease b)
    (hold : ∀ l e, b'.held.oldest l = some e → ∃ e', b.held.oldest l = some e' ∧ (e.state = .ready → e'.state = .ready))
    (hd : ∀ l, b.held.hasDetached l = true → b'.held.hasDetached l = true) (hn : b'.journal.notice = b.journal.notice)
    (hw : ∀ r ∈ b.mem.waiting, r ∈ b'.mem.waiting) : NoRelease b' := by
  intro l e he hready
  obtain ⟨e', he', hstate⟩ := hold l e he
  rcases h l e' he' (hstate hready) with h | h | h
  · exact .inl (hd l h)
  · refine .inr (.inl ?_)
    rw [List.any_eq_true] at h ⊢
    obtain ⟨r, hr, hx⟩ := h
    exact ⟨r, hw r hr, hx⟩
  · exact .inr (.inr (hn.trans h))

/-- What is due, part by part. -/
theorem still_of_parts (h : Held cfg b) (hr : NoRelease b) (hb : ∀ i, barrierDue b i = false ∧ countDue b i = false) :
    still cfg b = true := (still_iff cfg b).2 ⟨h.context, h.buffer, noRelease_iff.1 hr, hb⟩

/-- Streams keep what they wait for. -/
theorem notDue_congr (h : ∀ i, b'.stream i = b.stream i) (hb : ∀ i, barrierDue b i = false ∧ countDue b i = false)
    (i : StreamId) : barrierDue b' i = false ∧ countDue b' i = false := by
  have hi := hb i
  simp only [barrierDue, countDue, h i] at hi ⊢
  exact hi

end Sys2Proof.Rounds


/-! SUPPORT. BARRIER (R144, R145). -/

namespace Sys2Proof.Rounds

open Sys2Proof.Machine Sys2Proof.Safety Sys2Proof.Laws Sys2Proof.Arrivals Sys2Proof.Expiries

variable {cfg : Image} {b : Blocks}

/-! ## What demands and bursts change -/

theorem handOver_waits (op : MemOp) (cls : MemClass) (o : Owner) (b : Blocks) :
    ∃ m, handOver op cls o b = { b with mem := m } ∧ m.slots = b.mem.slots ∧ ∀ r ∈ b.mem.waiting, r ∈ m.waiting := by
  unfold handOver
  split
  · exact ⟨b.mem, rfl, rfl, fun _ h => h⟩
  · exact ⟨_, rfl, rfl, fun _ h => List.mem_append_left _ h⟩

/-- The evaluation of the burst triggers changes the staged slots' flights, the group timer and what waits at the port. -/
theorem burstCheck_frame (cfg : Image) (b : Blocks) : ∃ staging timer m, burstCheck cfg b =
    { b with journal := { b.journal with staging := staging, groupTimer := timer }, mem := m }
      ∧ m.slots = b.mem.slots ∧ ∀ r ∈ b.mem.waiting, r ∈ m.waiting := by
  have hnone : ∃ staging timer m, b = { b with journal := { b.journal with staging := staging, groupTimer := timer }, mem := m }
      ∧ m.slots = b.mem.slots ∧ ∀ r ∈ b.mem.waiting, r ∈ m.waiting := ⟨_, _, _, rfl, rfl, fun _ h => h⟩
  unfold burstCheck issueBurst
  dsimp only
  split
  · split
    · exact hnone
    · obtain ⟨m, hm, hslots, hw⟩ := handOver_waits _ _ _ (b.modJournal _)
      rw [hm]
      exact ⟨_, _, m, rfl, hslots, hw⟩
  · exact hnone

theorem foldl_demands {α : Type} {f : Blocks → α → Blocks}
    (h : ∀ b x, ∃ l, f b x = b.modJournal fun j => { j with demands := j.demands ++ l }) (xs : List α) (b : Blocks) :
    ∃ l, xs.foldl f b = b.modJournal fun j => { j with demands := j.demands ++ l } := by
  induction xs generalizing b with
  | nil => exact ⟨[], by simp [Blocks.modJournal]⟩
  | cons x xs ih =>
    obtain ⟨l, hl⟩ := h b x
    obtain ⟨l', hl'⟩ := ih (f b x)
    refine ⟨l ++ l', ?_⟩
    rw [List.foldl_cons, hl', hl]
    simp [Blocks.modJournal]

theorem barrierDemands_cons (i : StreamId) (l : Addr) (ls : List Addr) (b : Blocks) :
    barrierDemands i (l :: ls) b = barrierDemands i ls (barrierDemands i [l] b) := rfl

theorem barrierDemands_journal (i : StreamId) (ls : List Addr) (b : Blocks) :
    ∃ l, barrierDemands i ls b = b.modJournal fun j => { j with demands := j.demands ++ l } := by
  refine foldl_demands (fun b x => ?_) ls b
  split
  · obtain ⟨l, hl, _⟩ := placeDemand_journal ⟨_, .barrier i⟩ b
    exact ⟨l, hl⟩
  · exact ⟨[], by simp [Blocks.modJournal]⟩

theorem mem_barrierDemands {i : StreamId} {ls : List Addr} {l : Addr} {e : TrackEntry} {p : RingPtr} (hl : l ∈ ls)
    (he : b.entryOf l = some e) (hp : e.pos = some p) (hs : ∃ x ∈ b.journal.staging, x.pos.seq = p.dataSeq) :
    (⟨p.dataSeq, .barrier i⟩ : Demand) ∈ (barrierDemands i ls b).journal.demands := by
  induction ls generalizing b with
  | nil => cases hl
  | cons x xs ih =>
    rw [barrierDemands_cons]
    obtain ⟨d, hd⟩ := barrierDemands_journal i [x] b
    rcases List.mem_cons.1 hl with rfl | hl
    · obtain ⟨d', hd'⟩ := barrierDemands_journal i xs (barrierDemands i [l] b)
      have hfirst : barrierDemands i [l] b = placeDemand ⟨p.dataSeq, .barrier i⟩ b := by
        simp [barrierDemands, he, hp]
      rw [hd']
      refine List.mem_append_left _ ?_
      rw [hfirst]
      exact mem_placeDemand hs
    · refine ih hl ?_ ?_ <;> rw [hd]
      · exact he
      · exact hs

/-! ## BARRIER -/

theorem handleCurrent_barrier (cfg : Image) (i : StreamId) (tag : Tag) (b : Blocks) :
    handleCurrent cfg i (current i ⟨tag, .barrier⟩ b) = handleBarrier cfg i (current i ⟨tag, .barrier⟩ b) := by
  simp [handleCurrent]

theorem handleBarrier_answers {i : StreamId} {tag : Tag} (hi : idleStream (b.stream i) = true)
    (hzero : (b.stream i).outstanding = 0) (hdemands : ∀ d ∈ b.journal.demands, d.source ≠ .barrier i) :
    handleBarrier cfg i (current i ⟨tag, .barrier⟩ b) = b.modStream i fun r => { r with
      loss := none, sent := r.sent ++ [.done tag (barrierStatus r.loss)] } := by
  have hrec : (current i ⟨tag, .barrier⟩ b).stream i = { b.stream i with queue := [⟨tag, .barrier⟩], phase := .fresh } := by
    simp [current]
  have hfilter : b.journal.demands.filter (fun d => decide (d.source ≠ .barrier i)) = b.journal.demands :=
    List.filter_eq_self.2 fun d hd => by simpa using hdemands d hd
  have hjournal (x : Blocks) (hx : x.journal = b.journal) : (x.modJournal fun j =>
      { j with demands := j.demands.filter fun d => decide (d.source ≠ .barrier i) }) = x := by
    unfold Blocks.modJournal
    dsimp only
    rw [hx, hfilter, ← hx]
  unfold handleBarrier
  rw [hrec, if_pos hzero]
  unfold answerBarrier
  rw [hrec]
  dsimp only
  rw [answer_current hi]
  refine (hjournal ((sends i _ b).modStream i _) rfl).trans ?_
  unfold sends
  rw [Blocks.modStream_modStream]
  rfl

/-- A BARRIER waits: its demands are placed and the burst triggers evaluated (R145). -/
theorem handleBarrier_waits {i : StreamId} {tag : Tag} (hout : (b.stream i).outstanding ≠ 0) :
    handleBarrier cfg i (current i ⟨tag, .barrier⟩ b) = burstCheck cfg (barrierDemands i (b.held.waitLinesOf i)
      (b.modStream i fun r => { r with queue := [⟨tag, .barrier⟩], phase := .barrier (b.held.waitLinesOf i) })) := by
  have hcount : ((current i ⟨tag, .barrier⟩ b).stream i).outstanding = (b.stream i).outstanding := by simp [current]
  unfold handleBarrier
  rw [hcount, if_neg hout]
  dsimp only
  rw [setPhase_current]
  rfl

/-- A part in which one stream's BARRIER has begun to wait: what changes, and that nothing is due. -/
theorem handleBarrier_frame {i : StreamId} {tag : Tag} (hout : (b.stream i).outstanding ≠ 0) :
    ∃ l staging timer m, handleBarrier cfg i (current i ⟨tag, .barrier⟩ b) =
      { b.modStream i fun r => { r with queue := [⟨tag, .barrier⟩], phase := .barrier (b.held.waitLinesOf i) } with
        journal := { b.journal with demands := b.journal.demands ++ l, staging := staging, groupTimer := timer }, mem := m }
      ∧ Stands b (handleBarrier cfg i (current i ⟨tag, .barrier⟩ b)) ∧ (∀ r ∈ b.mem.waiting, r ∈ m.waiting)
      ∧ ∀ line ∈ b.held.waitLinesOf i, ∀ e p, b.entryOf line = some e → e.pos = some p →
        (∃ y ∈ b.journal.staging, y.pos.seq = p.dataSeq) → (⟨p.dataSeq, .barrier i⟩ : Demand) ∈ b.journal.demands ++ l := by
  rw [handleBarrier_waits hout]
  generalize hx : b.modStream i (fun r => { r with
    queue := [⟨tag, .barrier⟩], phase := .barrier (b.held.waitLinesOf i) }) = x
  have hjournal : x.journal = b.journal := by rw [← hx, Blocks.modStream_journal]
  have hmem : x.mem = b.mem := by rw [← hx, Blocks.modStream_mem]
  have hentry (line : Addr) : x.entryOf line = b.entryOf line := by rw [← hx, Blocks.modStream_entryOf]
  have hstands : Stands b (burstCheck cfg (barrierDemands i (b.held.waitLinesOf i) x)) := by
    refine Stands.trans ?_ (stands_burstCheck _ _)
    rw [← hx]
    refine (stands_modStream _ _ _).trans (stands_foldl (fun b l => ?_) _ _)
    split
    · exact stands_placeDemand _ _
    · exact .refl b
  obtain ⟨l, hl⟩ := barrierDemands_journal i (b.held.waitLinesOf i) x
  have hmember (line : Addr) (hline : line ∈ b.held.waitLinesOf i) (e : TrackEntry) (p : RingPtr)
      (he : b.entryOf line = some e) (hp : e.pos = some p) (hstaged : ∃ y ∈ b.journal.staging, y.pos.seq = p.dataSeq) :
      (⟨p.dataSeq, .barrier i⟩ : Demand) ∈ b.journal.demands ++ l := by
    have hin := mem_barrierDemands (b := x) (i := i) hline (by rw [hentry, he]) hp (by rw [hjournal]; exact hstaged)
    rw [hl, Blocks.modJournal_journal, hjournal] at hin
    exact hin
  obtain ⟨staging, timer, m, hburst, _, hwaits⟩ := burstCheck_frame cfg (barrierDemands i (b.held.waitLinesOf i) x)
  refine ⟨l, staging, timer, m, ?_, hstands, fun r hr => hwaits r ?_, hmember⟩
  · rw [hburst, hl, ← hjournal]
    rfl
  · rw [hl, Blocks.modJournal_mem, hmem]
    exact hr

/-- Settles O24. -/
theorem barrierIsAnsweredOrWaits : Obligations.BarrierIsAnsweredOrWaits := by
  intro i tag s hs hi
  obtain ⟨hup, hn, hst, hfr, _⟩ := (atRest_iff s).1 hs
  obtain ⟨_, hphase, _, _⟩ := (idleStream_iff _).1 hi
  have hstream := ((still_iff _ _).1 hst).2.2.2
  refine ⟨fun hzero hdemands => ?_, fun hout => ?_⟩
  · have hquiet := quiet_modStream hst hfr i
      (f := fun r => { r with loss := none, sent := r.sent ++ [.done tag (barrierStatus r.loss)] }) (by simp [hphase, quietPhase])
    refine congrArg Host.Outcome.next ((arrival_over hs hi ⟨tag, .barrier⟩
      ((handleCurrent_barrier _ _ _ _).trans (handleBarrier_answers hi hzero hdemands)) hquiet.1 hquiet.2 rfl rfl).trans ?_)
    refine congrArg (after s) (modStream_congr _ _ ?_)
    rcases (s.blocks.stream i).loss with _ | _ | _ <;> rfl
  · obtain ⟨l, staging, timer, m, hframe, hstands, hwaits, hmember⟩ :=
      handleBarrier_frame (cfg := s.mgmt.active) (tag := tag) hout
    have hrec (k : StreamId) : (handleBarrier s.mgmt.active i (current i ⟨tag, .barrier⟩ s.blocks)).stream k = if k = i then
        { s.blocks.stream i with queue := [⟨tag, .barrier⟩], phase := .barrier (s.blocks.held.waitLinesOf i) }
        else s.blocks.stream k := by
      rw [hframe, ← Blocks.modStream_stream s.blocks i k fun r =>
        { r with queue := [⟨tag, .barrier⟩], phase := .barrier (s.blocks.held.waitLinesOf i) }]
      rfl
    have hdue (k : StreamId) : barrierDue (handleBarrier s.mgmt.active i (current i ⟨tag, .barrier⟩ s.blocks)) k = false
        ∧ countDue (handleBarrier s.mgmt.active i (current i ⟨tag, .barrier⟩ s.blocks)) k = false := by
      have hother := hstream k
      simp only [barrierDue, countDue, hrec k] at hother ⊢
      by_cases hk : k = i
      · simp [hk, hout]
      · simpa [hk] using hother
    have hfresh : noFresh (handleBarrier s.mgmt.active i (current i ⟨tag, .barrier⟩ s.blocks)) = true := by
      rw [noFresh_iff] at hfr ⊢
      intro k
      rw [hrec]
      split
      · exact Phase.noConfusion
      · exact hfr k
    have hheld := (held_of_still hst).of hstands
    have hrelease : NoRelease (handleBarrier s.mgmt.active i (current i ⟨tag, .barrier⟩ s.blocks)) := by
      refine (noRelease_of_still hst).of ?_ ?_ hstands.notice ?_ <;> rw [hframe]
      · exact fun _ e he => ⟨e, he, fun h => h⟩
      · exact fun _ h => h
      · exact hwaits
    have hexec := event_arrive hs hi ⟨tag, .barrier⟩ (handleCurrent_barrier _ _ _ _) (still_of_parts hheld hrelease hdue)
      hfresh (hstands.notice.trans hn)
    have hgrants := arbitrate_frame s.mgmt.active 32 (handleBarrier s.mgmt.active i (current i ⟨tag, .barrier⟩ s.blocks))
    rw [hframe] at hexec hgrants
    refine ⟨_, congrArg Host.Outcome.next hexec, rfl, hgrants.req, hgrants.epochs, hgrants.track, ?_, ?_, ?_, ?_⟩
    · dsimp only
      rw [hgrants.journal]
    · dsimp only
      rw [hgrants.journal]
    · intro line hline e p he hp hstaged
      dsimp only
      rw [hgrants.journal]
      exact hmember line hline e p he hp hstaged
    · intro d hd
      dsimp only
      rw [hgrants.journal]
      exact List.mem_append_left _ hd

end Sys2Proof.Rounds


/-! SUPPORT. A WRITE to a line of its own OPEN context (R89 to R93). -/

namespace Sys2Proof.Rounds

open Sys2Proof.Machine Sys2Proof.Safety Sys2Proof.Laws Sys2Proof.Arrivals Sys2Proof.Expiries

variable {cfg : Image} {b b' : Blocks}

/-! ## Releases at the port -/

theorem asIssued_line {e e' : HeldEntry} (h : asIssued e = asIssued e') : e.line = e'.line := by
  have hline := congrArg HeldEntry.line h
  exact hline

theorem asIssued_ctx {e e' : HeldEntry} (h : asIssued e = asIssued e') : e.ctx = e'.ctx := by
  have hctx := congrArg HeldEntry.ctx h
  exact hctx

/-- What a grant leaves of the held entries: each is one of before, with its state or ISSUED. -/
theorem grantOne_entries (h : grantOne cfg b = some b') : ∀ e ∈ b'.held.entries, ∃ e' ∈ b.held.entries,
    asIssued e' = asIssued e ∧ (e.state = e'.state ∨ e.state = .issued) := by
  have hissue (line : Addr) (l : List HeldEntry) : ∀ e ∈ issueOldest line l, ∃ e' ∈ l,
      asIssued e' = asIssued e ∧ (e.state = e'.state ∨ e.state = .issued) := by
    induction l with
    | nil => intro e he; cases he
    | cons x l ih =>
      intro e he
      unfold issueOldest at he
      split at he
      · rcases List.mem_cons.1 he with rfl | he
        · exact ⟨x, List.mem_cons_self, rfl, .inr rfl⟩
        · exact ⟨e, List.mem_cons_of_mem _ he, rfl, .inl rfl⟩
      · rcases List.mem_cons.1 he with rfl | he
        · exact ⟨e, List.mem_cons_self, rfl, .inl rfl⟩
        · obtain ⟨e', he', hline⟩ := ih e he
          exact ⟨e', List.mem_cons_of_mem _ he', hline⟩
  obtain ⟨_, r, k, f, _, _, rfl⟩ := grantOne_spec h
  dsimp only
  unfold heldAtGrant
  split
  · exact hissue _ _
  · exact fun e he => ⟨e, he, rfl, .inl rfl⟩

theorem arbitrate_entries (cfg : Image) (n : Nat) (b : Blocks) : ∀ e ∈ (arbitrate cfg n b).held.entries,
    ∃ e' ∈ b.held.entries, asIssued e' = asIssued e ∧ (e.state = e'.state ∨ e.state = .issued) := by
  induction n generalizing b with
  | zero => exact fun e he => ⟨e, he, rfl, .inl rfl⟩
  | succ n ih =>
    cases h : grantOne cfg b with
    | none =>
      rw [arbitrate_none h]
      exact fun e he => ⟨e, he, rfl, .inl rfl⟩
    | some b' =>
      rw [arbitrate_some h]
      intro e he
      obtain ⟨x, hx, hxline, hxstate⟩ := ih b' e he
      obtain ⟨y, hy, hyline, hystate⟩ := grantOne_entries h x hx
      refine ⟨y, hy, hyline.trans hxline, ?_⟩
      rcases hxstate with hxstate | hxstate
      · rw [hxstate]
        exact hystate
      · exact .inr hxstate

/-- The oldest entry of a line has the same bytes after a grant. -/
theorem grantOne_oldest {l : Addr} {e : HeldEntry} (h : grantOne cfg b = some b') (he : b.held.oldest l = some e) :
    ∃ e', b'.held.oldest l = some e' ∧ e'.mask = e.mask ∧ e'.data = e.data := by
  have hissue (line : Addr) (xs : List HeldEntry) (hx : xs.find? (fun x => decide (x.line = l)) = some e) :
      ∃ e', (issueOldest line xs).find? (fun x => decide (x.line = l)) = some e' ∧ e'.mask = e.mask ∧ e'.data = e.data := by
    induction xs with
    | nil => cases hx
    | cons x xs ih =>
      unfold issueOldest
      by_cases hline : x.line = line
      · rw [if_pos hline]
        by_cases hl : x.line = l
        · rw [List.find?_cons_of_pos (by simpa using hl)] at hx
          cases hx
          exact ⟨_, List.find?_cons_of_pos (by simpa using hl), rfl, rfl⟩
        · rw [List.find?_cons_of_neg (by simpa using hl)] at hx
          exact ⟨e, (List.find?_cons_of_neg (by simpa using hl)).trans hx, rfl, rfl⟩
      · rw [if_neg hline]
        by_cases hl : x.line = l
        · rw [List.find?_cons_of_pos (by simpa using hl)] at hx
          cases hx
          exact ⟨_, List.find?_cons_of_pos (by simpa using hl), rfl, rfl⟩
        · rw [List.find?_cons_of_neg (by simpa using hl)] at hx
          rw [List.find?_cons_of_neg (by simpa using hl)]
          exact ih hx
  obtain ⟨_, r, k, f, _, _, rfl⟩ := grantOne_spec h
  dsimp only
  unfold heldAtGrant
  split
  · exact hissue _ _ he
  · exact ⟨e, he, rfl, rfl⟩

/-- A release at the port stays there through the grants, with the bytes of the line's oldest entry. -/
theorem arbitrate_release (cfg : Image) (n : Nat) {b : Blocks} {l : Addr} {e : HeldEntry} (he : b.held.oldest l = some e)
    (hp : inPort b.mem (.lineWrite l e.mask e.data) (.release l) = true) :
    inPort (arbitrate cfg n b).mem (.lineWrite l e.mask e.data) (.release l) = true := by
  induction n generalizing b e with
  | zero => exact hp
  | succ n ih =>
    cases h : grantOne cfg b with
    | none =>
      rw [arbitrate_none h]
      exact hp
    | some b' =>
      rw [arbitrate_some h]
      obtain ⟨e', he', hmask, hdata⟩ := grantOne_oldest h he
      rw [← hmask, ← hdata] at hp ⊢
      refine ih he' ?_
      rw [inPort_iff] at hp ⊢
      rcases hp with ⟨x, hx, hop, how⟩ | ⟨k, o, hk, ho⟩
      · obtain ⟨_, r, j, f, _, hc, rfl⟩ := grantOne_spec h
        by_cases hr : x = r
        · subst hr
          refine .inr ⟨j, operationOf cfg b x, ?_, ?_, how⟩
          · show (b.mem.granted j x (operationOf cfg b x)).slots[j] = _
            rw [granted_slot, if_pos rfl]
          · show opAtGrant b.held x = _
            rw [opAtGrant, how, hmask, hdata]
            dsimp only
            rw [he]
        · refine .inl ⟨x, ?_, hop, how⟩
          show x ∈ (b.mem.granted j r (operationOf cfg b r)).waiting
          rw [granted_waiting]
          exact (List.mem_erase_of_ne hr).2 hx
      · exact .inr ⟨k, o, grantOne_slot h hk, ho⟩

/-! ## Contexts with nothing due -/

theorem ctxQuiet_of_state {k : CtxId} (hdrain : (b.ctx k).state ≠ .draining) (hroll : (b.ctx k).state ≠ .rollback) :
    ctxQuiet b k := by
  have hnone (p : RollbackPhase) : rollbackIn b k p = none := by
    unfold rollbackIn
    split
    · exact if_neg fun hr => hroll hr.1
    · rfl
  exact ⟨by simp [drainDue, hdrain], by simp [quiesceDue, hnone], by simp [nextRestore, hnone], by simp [retireDue, hnone]⟩

/-! ## A WRITE that is accepted in its OPEN context -/

section Accepted

variable {s : State} {i : StreamId} {tag : Tag} {a : Addr} {m : ByteMask} {d : LineData} {c : CtxId}

/-- The blocks when a write has joined the held entries of an OPEN context (R31, R89, R90). -/
def joined (s : State) (i : StreamId) (tag : Tag) (c : CtxId) (entries : List HeldEntry) : Blocks :=
  ((s.blocks.modHeld fun h => { h with entries := entries }).modCtx c
    fun x => { x with idleTimer := timerAfterAcceptance s c }).modStream i
    fun r => { r with outstanding := r.outstanding + 1, sent := r.sent ++ [Response.ack tag .okay] }

theorem timer_eq (s : State) (c : CtxId) : (if s.mgmt.active.ctxs[c].idleInterval.toNat = 0 then none
    else some (s.blocks.clock + 10 * s.mgmt.active.ctxs[c].idleInterval.toNat)) = timerAfterAcceptance s c := by
  unfold timerAfterAcceptance
  simp only [← BitVec.toNat_inj]
  rfl

theorem acceptWrite_current {b : Blocks} (hi : idleStream (b.stream i) = true) :
    acceptWrite i (current i ⟨tag, .write a m d⟩ b) = b.modStream i fun r =>
      { r with outstanding := r.outstanding + 1, sent := r.sent ++ [Response.ack tag .okay] } := by
  unfold acceptWrite
  rw [answer_current hi, sends, Blocks.modStream_modStream]
  rfl

theorem acceptJournaled_opened (hi : idleStream (s.blocks.stream i) = true) (hopen : (s.blocks.ctx c).state = .opened)
    (f : List HeldEntry → List HeldEntry) :
    acceptJournaled s.mgmt.active i c ((current i ⟨tag, .write a m d⟩ s.blocks).modHeld fun h =>
      { h with entries := f h.entries }) = joined s i tag c (f s.blocks.held.entries) := by
  have hswap (b : Blocks) : acceptWrite i (b.modHeld fun h => { h with entries := f h.entries }) =
      (acceptWrite i b).modHeld fun h => { h with entries := f h.entries } := rfl
  unfold acceptJournaled
  rw [hswap, acceptWrite_current hi]
  dsimp only
  rw [if_pos (by exact hopen)]
  unfold startIdleTimer joined
  dsimp only
  rw [← timer_eq]
  rfl

variable (hs : atRest s = true) (hi : idleStream (s.blocks.stream i) = true) (hopen : (s.blocks.ctx c).state = .opened)
include hs hi hopen

omit hi in
theorem held_joined {entries : List HeldEntry} (hcount : ∀ k, k ≠ c → (entries.filter fun e => e.ctx = k).length =
    s.blocks.heldCount k) : Held s.mgmt.active (joined s i tag c entries) := by
  obtain ⟨_, _, hst, _⟩ := (atRest_iff s).1 hs
  have hheld := held_of_still hst
  refine ⟨fun k => ?_, serveOne_none_congr (b := s.blocks) (cfg := s.mgmt.active) rfl hheld.buffer⟩
  by_cases hk : k = c
  · subst hk
    have hstate : ((joined s i tag k entries).ctx k).state = .opened := by
      rw [joined, Blocks.modStream_ctx, Blocks.modCtx_ctx_same]
      exact hopen
    exact ctxQuiet_of_state (by simp [hstate]) (by simp [hstate])
  · have hctx : (joined s i tag c entries).ctx k = s.blocks.ctx k := by
      rw [joined, Blocks.modStream_ctx, Blocks.modCtx_ctx, if_neg hk]
      rfl
    have hcountk : (joined s i tag c entries).heldCount k = s.blocks.heldCount k := hcount k hk
    have hquiet := hheld.context k
    simp only [drainDue, quiesceDue, nextRestore, retireDue, rollbackIn, hctx, hcountk] at hquiet ⊢
    exact hquiet

omit hs hi hopen in
theorem joined_stream (entries : List HeldEntry) (k : StreamId) : (joined s i tag c entries).stream k =
    if k = i then { s.blocks.stream i with
      outstanding := (s.blocks.stream i).outstanding + 1, sent := (s.blocks.stream i).sent ++ [Response.ack tag .okay] }
    else s.blocks.stream k := by
  rw [joined, Blocks.modStream_stream]
  rfl

omit hopen in
theorem joined_due (entries : List HeldEntry) (k : StreamId) : (barrierDue (joined s i tag c entries) k = false
    ∧ countDue (joined s i tag c entries) k = false) ∧ ((joined s i tag c entries).stream k).phase ≠ .fresh := by
  obtain ⟨_, _, hst, hfr, _⟩ := (atRest_iff s).1 hs
  obtain ⟨_, hphase, _⟩ := (idleStream_iff _).1 hi
  have hrec := joined_stream (s := s) (i := i) (tag := tag) (c := c) entries k
  have hother := ((still_iff _ _).1 hst).2.2.2 k
  have hfresh := (noFresh_iff _).1 hfr k
  simp only [barrierDue, countDue, hrec] at hother ⊢
  by_cases hk : k = i
  · simp [hk, hphase]
  · simpa [hk] using ⟨hother, hfresh⟩

omit hs in
/-- What an accepted WRITE does with its current request, by the classification of R12. -/
theorem handleCurrent_joins (hcount : (s.blocks.stream i).outstanding < Config.outstandingLimit) {f : List HeldEntry → List HeldEntry}
    (h : classifyWrite s.mgmt.active s.blocks i (lineOf a) m = .merge c
        ∧ f = (fun l => l.map (afterMerge i (lineOf a) m d))
      ∨ ∃ st, classifyWrite s.mgmt.active s.blocks i (lineOf a) m = .newEntry c st
        ∧ f = (· ++ [⟨i, [(i, 1)], c, lineOf a, m, d, st, false⟩])) :
    handleCurrent s.mgmt.active i (current i ⟨tag, .write a m d⟩ s.blocks) =
      joined s i tag c (f s.blocks.held.entries) := by
  rw [handleCurrent_write, handleWrite, current_stream, if_neg (Nat.ne_of_lt hcount), classifyWrite_current]
  rw [← acceptJournaled_opened (a := a) (m := m) (d := d) hi hopen f]
  rcases h with ⟨hclass, rfl⟩ | ⟨st, hclass, rfl⟩
  · rw [hclass]
    rfl
  · rw [hclass]
    rfl

omit hs hi hopen in
theorem afterMerge_line (i : StreamId) (line : Addr) (m : ByteMask) (d : LineData) (e : HeldEntry) :
    (afterMerge i line m d e).line = e.line ∧ (afterMerge i line m d e).state = e.state
      ∧ (afterMerge i line m d e).ctx = e.ctx := by
  unfold afterMerge
  split
  · exact ⟨rfl, rfl, rfl⟩
  · exact ⟨rfl, rfl, rfl⟩

omit hi hopen in
/-- A merge makes no release due: it changes no line and no state of an entry (R90, R92). -/
theorem noRelease_merged : NoRelease (joined s i tag c (s.blocks.held.entries.map (afterMerge i (lineOf a) m d))) := by
  obtain ⟨_, _, hst, _⟩ := (atRest_iff s).1 hs
  refine (noRelease_of_still hst).of (fun l e he => ?_) (fun _ h => h) rfl (fun _ h => h)
  have hmap : (s.blocks.held.entries.map (afterMerge i (lineOf a) m d)).find? (fun e => decide (e.line = l)) = some e := he
  rw [List.find?_map, Option.map_eq_some_iff] at hmap
  obtain ⟨x, hx, rfl⟩ := hmap
  refine ⟨x, ?_, fun h => (afterMerge_line i (lineOf a) m d x).2.1 ▸ h⟩
  rw [← hx]
  exact congrArg (List.find? · s.blocks.held.entries) (funext fun y => by
    simp [(afterMerge_line i (lineOf a) m d y).1])

end Accepted

/-- The event of a request of an idle stream after which at most releases are due. -/
theorem arrival_releases {s : State} {i : StreamId} (hs : atRest s = true) (hi : idleStream (s.blocks.stream i) = true)
    (q : Request) {x : Blocks} (hx : handleCurrent s.mgmt.active i (current i q s.blocks) = x) (hheld : Held s.mgmt.active x)
    (hdue : ∀ k, barrierDue x k = false ∧ countDue x k = false) (hf : noFresh x = true) (hn : x.journal.notice = false) :
    s.event (arrive i q) = after s (arbitrate s.mgmt.active 32 (requestReleases x)) := by
  obtain ⟨hup, hlive, hst, hfr, _⟩ := (atRest_iff s).1 hs
  obtain ⟨hq, _⟩ := (idleStream_iff _).1 hi
  have hcurrent : progress s.mgmt.active (current i q s.blocks) = current i q s.blocks :=
    progress_still (still_modStream hst i _ (notDue_of_phase (by simp) (by simp)))
  have hone (k : StreamId) : ((current i q s.blocks).stream k).phase = .fresh ↔ k = i := by
    rw [current, Blocks.modStream_stream]
    split
    · simp_all
    · rename_i hk
      simp [hk, (noFresh_iff _).1 hfr k]
  obtain ⟨m, hm, _⟩ := requestReleases_frame x
  have hprogress : progress s.mgmt.active (handleCurrent s.mgmt.active i (current i q s.blocks)) = requestReleases x := by
    rw [hx, progress_releases hheld hdue]
  rw [event_up hup, arrive_idle hlive hq]
  refine congrArg (after s) (finishEvent_handles hcurrent hone hprogress ?_ ?_)
  · rw [hm]
    exact hf
  · rw [hm]
    exact hn

/-- A release that is due is at the port once releases have been asked for. -/
theorem requestReleases_inPort {b : Blocks} {e : HeldEntry} (he : e ∈ b.held.entries) (hdue : releaseDue b e = true) :
    inPort (requestReleases b).mem (.lineWrite e.line e.mask e.data) (.release e.line) = true := by
  have hn : b.journal.notice = false := by
    simp only [releaseDue, Bool.and_eq_true, Bool.not_eq_true'] at hdue
    exact hdue.2
  have hstep (xs : List HeldEntry) (b : Blocks) (hn : b.journal.notice = false) (h : e ∈ xs
      ∨ ∃ r ∈ b.mem.waiting, r.op = .lineWrite e.line e.mask e.data ∧ r.owner = .release e.line) :
      ∃ r ∈ (xs.foldl (fun b e => handOver (.lineWrite e.line e.mask e.data) .release (.release e.line) b) b).mem.waiting,
        r.op = .lineWrite e.line e.mask e.data ∧ r.owner = .release e.line := by
    induction xs generalizing b with
    | nil => exact h.resolve_left (List.not_mem_nil)
    | cons x xs ih =>
      rw [List.foldl_cons]
      refine ih _ (by rw [handOver_journal, hn]) ?_
      rw [handOver_live hn]
      rcases h with h | ⟨r, hr, h⟩
      · rcases List.mem_cons.1 h with rfl | h
        · exact .inr ⟨⟨.lineWrite e.line e.mask e.data, .release, .release e.line, b.mem.nextOrder⟩, by simp, rfl, rfl⟩
        · exact .inl h
      · exact .inr ⟨r, List.mem_append_left _ hr, h⟩
  obtain ⟨r, hr, h⟩ := hstep _ b hn (.inl (List.mem_filter.2 ⟨he, hdue⟩))
  exact (inPort_iff _ _ _).2 (.inl ⟨r, hr, h⟩)

/-- Settles O21. -/
theorem writeMergesIntoTheUnissuedEntry : Obligations.WriteMergesIntoTheUnissuedEntry := by
  intro i tag a m d c e s hs hi hreach hopen he hec
  obtain ⟨_, hn, hst, hfr, _⟩ := (atRest_iff s).1 hs
  have hclass := classifyWrite_reaches hreach
  obtain ⟨_, _, _, _, _, hcount⟩ := hreach
  have htracked : classifyTracked s.mgmt.active s.blocks c (lineOf a) = if s.blocks.held.mergeable (lineOf a) then .merge c
      else if s.blocks.held.full then .stalled .heldFull
      else .newEntry c (if e.state = .capturing then .waitLog else .ready) := by
    unfold classifyTracked
    rw [he]
    exact if_pos hec
  rw [htracked] at hclass
  dsimp only
  refine ⟨fun hmerge => ?_, fun hmerge hroom => ?_⟩
  · rw [if_pos hmerge] at hclass
    have hhandled := handleCurrent_joins (tag := tag) (d := d) hi hopen hcount (.inl ⟨hclass, rfl⟩)
    have hcounts (k : CtxId) (_ : k ≠ c) : ((s.blocks.held.entries.map (afterMerge i (lineOf a) m d)).filter
        fun e => e.ctx = k).length = s.blocks.heldCount k := by
      rw [List.filter_map, List.length_map]
      exact congrArg (fun p => (s.blocks.held.entries.filter p).length) (funext fun y => by
        simp [(afterMerge_line i (lineOf a) m d y).2.2])
    have hrest := still_of_parts (held_joined (i := i) (tag := tag) hs hopen hcounts) (noRelease_merged hs)
      fun k => (joined_due hs hi _ k).1
    exact congrArg Host.Outcome.next (arrival_over hs hi ⟨tag, .write a m d⟩ hhandled hrest
      ((noFresh_iff _).2 fun k => (joined_due hs hi _ k).2) rfl rfl)
  · rw [if_neg (by simp [hmerge]), if_neg (by simp [hroom])] at hclass
    have hhandled := handleCurrent_joins (tag := tag) (d := d) hi hopen hcount (.inr ⟨_, hclass, rfl⟩)
    generalize hnew : (⟨i, [(i, 1)], c, lineOf a, m, d, if e.state = .capturing then .waitLog else .ready, false⟩ : HeldEntry)
      = new at hhandled ⊢
    have hnewline : new.line = lineOf a := by rw [← hnew]
    have hcounts (k : CtxId) (hk : k ≠ c) : ((s.blocks.held.entries ++ [new]).filter fun e => e.ctx = k).length
        = s.blocks.heldCount k := by
      rw [List.filter_append, ← hnew]
      simp [Ne.symm hk, Blocks.heldCount]
    have hexec := arrival_releases hs hi ⟨tag, .write a m d⟩ hhandled (held_joined hs hopen hcounts)
      (fun k => (joined_due hs hi _ k).1) ((noFresh_iff _).2 fun k => (joined_due hs hi _ k).2) hn
    obtain ⟨p, hp, _⟩ := requestReleases_frame (joined s i tag c (s.blocks.held.entries ++ [new]))
    refine ⟨_, congrArg Host.Outcome.next hexec, ⟨rfl, rfl, rfl, ?_⟩, fun hcap hline hdetached hwaiting => ?_,
      fun hcap => ?_⟩
    · refine onlyGrants_trans ?_ (arbitrate_frame _ _ _)
      rw [hp]
      exact onlyGrants_mem p
    · have hold : (joined s i tag c (s.blocks.held.entries ++ [new])).held.oldest (lineOf a) = some new := by
        show (s.blocks.held.entries ++ [new]).find? _ = some new
        rw [List.find?_append, List.find?_eq_none.2 fun x hx => by simpa using hline x hx]
        simp [hnewline]
      have hdue : releaseDue (joined s i tag c (s.blocks.held.entries ++ [new])) new = true := by
        have hready : new.state = .ready := by rw [← hnew]; exact if_neg hcap
        have hnone : (joined s i tag c (s.blocks.held.entries ++ [new])).held.hasDetached (lineOf a) = false :=
          List.any_eq_false.2 fun w hw => by simpa using hdetached w hw
        have hwait : ((joined s i tag c (s.blocks.held.entries ++ [new])).mem.waiting.any
            fun r => decide (r.owner = .release (lineOf a))) = false :=
          List.any_eq_false.2 fun r hr => by simpa using hwaiting r hr
        have hnotice : (joined s i tag c (s.blocks.held.entries ++ [new])).journal.notice = false := hn
        simp [releaseDue, hready, hnewline, hold, hnone, hwait, hnotice]
      have hport := requestReleases_inPort (List.mem_append_right s.blocks.held.entries List.mem_cons_self) hdue
      rw [hnewline] at hport
      have := arbitrate_release s.mgmt.active 32 (b := requestReleases (joined s i tag c (s.blocks.held.entries ++ [new])))
        (by rw [hp]; exact hold) hport
      rw [← hnew] at this
      rw [← hnew]
      exact this
    · intro x hx hxline
      obtain ⟨y, hy, hsame, hstate⟩ := arbitrate_entries _ _ _ x hx
      have hyline := asIssued_line hsame
      rcases hstate with hstate | hstate
      · rw [hp] at hy
        rcases List.mem_append.1 hy with hy | hy
        · left
          have hissued := List.any_eq_false.1 hmerge y hy
          rw [hstate]
          simpa [hyline.trans hxline] using hissued
        · rw [List.mem_singleton.1 hy, ← hnew] at hstate
          exact .inr (hstate.trans (if_pos hcap))
      · exact .inl hstate

end Sys2Proof.Rounds


/-! SUPPORT. The contexts' part of an event, the service of the staging buffer, and a marker that is asked for
(R70 to R73, R107, R117). -/

namespace Sys2Proof.Rounds

open Sys2Proof.Machine Sys2Proof.Safety Sys2Proof.Laws Sys2Proof.Arrivals Sys2Proof.Expiries

variable {cfg : Image} {a b b' t : Blocks}

/-! ## From what is due to the end of the event -/

/-- What releases that are asked for and grants leave of given blocks. -/
structure Grown (b t : Blocks) : Prop where
  grants : OnlyGrants b t
  port : ∀ op w, (∀ l, w ≠ .release l) → inPort b.mem op w = true → inPort t.mem op w = true
  slots : ∀ (k : SlotNo) o, b.mem.slots[k] = some o → t.mem.slots[k] = some o
  issued : ∀ e ∈ t.held.entries, ∃ e' ∈ b.held.entries, asIssued e' = asIssued e ∧ (e.state = e'.state ∨ e.state = .issued)

theorem Grown.trans (h : Grown a b) (k : Grown b t) : Grown a t :=
  ⟨onlyGrants_trans h.grants k.grants, fun op w hw hp => k.port op w hw (h.port op w hw hp),
    fun x o ho => k.slots x o (h.slots x o ho), fun e he => by
      obtain ⟨x, hx, hxsame, hxstate⟩ := k.issued e he
      obtain ⟨y, hy, hysame, hystate⟩ := h.issued x hx
      refine ⟨y, hy, hysame.trans hxsame, ?_⟩
      rcases hxstate with hxstate | hxstate
      · rw [hxstate]
        exact hystate
      · exact .inr hxstate⟩

theorem grown_arbitrate (cfg : Image) (n : Nat) (b : Blocks) : Grown b (arbitrate cfg n b) :=
  ⟨arbitrate_frame cfg n b, fun _ _ hw hp => arbitrate_inPort cfg n hw hp, fun _ _ ho => arbitrate_slot cfg n ho,
    arbitrate_entries cfg n b⟩

theorem requestReleases_waits (b : Blocks) : ∀ r ∈ b.mem.waiting, r ∈ (requestReleases b).mem.waiting := by
  unfold requestReleases
  generalize b.held.entries.filter (releaseDue b) = l
  induction l generalizing b with
  | nil => exact fun _ h => h
  | cons e l ih =>
    obtain ⟨m, hm, _, hwaits⟩ := handOver_waits (.lineWrite e.line e.mask e.data) .release (.release e.line) b
    intro r hr
    refine ih _ r ?_
    dsimp only
    rw [hm]
    exact hwaits r hr

theorem inPort_mono {m m' : MemoryPort} (hw : ∀ r ∈ m.waiting, r ∈ m'.waiting) (hs : m'.slots = m.slots) {op : MemOp}
    {w : Owner} (h : inPort m op w = true) : inPort m' op w = true := by
  rw [inPort_iff] at h ⊢
  rw [hs]
  exact h.imp_left fun ⟨r, hr, hx⟩ => ⟨r, hw r hr, hx⟩

theorem grown_requestReleases (b : Blocks) : Grown b (requestReleases b) := by
  have hwaits := requestReleases_waits b
  obtain ⟨m, hm, hslots⟩ := requestReleases_frame b
  rw [hm] at hwaits ⊢
  exact ⟨onlyGrants_mem m, fun op w _ hp => inPort_mono hwaits hslots hp, fun k o ho => by
    dsimp only
    rw [hslots]
    exact ho, fun e he => ⟨e, he, rfl, .inl rfl⟩⟩

/-- The event of a part in which contexts go on and the buffer is served, and then at most releases are due. -/
theorem finishEvent_grown {x : Blocks}
    (hx : serveBuffer cfg Config.stagingCapacity (allCtxs.foldl (contextStep cfg) b) = x)
    (hdue : ∀ i, barrierDue x i = false ∧ countDue x i = false) (hf : noFresh x = true) (hn : x.journal.notice = false) :
    Grown x (finishEvent cfg b) := by
  obtain ⟨m, hm, _⟩ := requestReleases_frame x
  have hp : progress cfg b = requestReleases x := by
    unfold progress
    dsimp only
    rw [hx, hm, answerBarriers_none (b := { x with mem := m }) fun i => (hdue i).1,
      handOnCounts_none (b := { x with mem := m }) fun i => (hdue i).2]
  rw [finishEvent_progressed hp (by rw [hm]; exact hf) (by rw [hm]; exact hn)]
  exact (grown_requestReleases x).trans (grown_arbitrate cfg 32 _)

/-! ## The contexts -/

theorem ctxQuiet.contextStep {k : CtxId} (h : ctxQuiet b k) : contextStep cfg b k = b := by
  obtain ⟨hdrain, hquiesce, hnext, hretire⟩ := h
  unfold Machine.contextStep
  split
  · simp [hdrain]
  · simp [rollbackStep, hquiesce, fillSlots, hnext, hretire]
  · rfl

theorem foldl_one {α β : Type} {f : β → α → β} {l : List α} {c : α} {x : β} (hl : l.Nodup) (hc : c ∈ l)
    (hbefore : ∀ k ∈ l, k ≠ c → f x k = x) (hafter : ∀ k ∈ l, k ≠ c → f (f x c) k = f x c) : l.foldl f x = f x c := by
  obtain ⟨before, behind, rfl⟩ := List.append_of_mem hc
  have hnot : c ∉ before ∧ c ∉ behind := by
    have hperm := List.nodup_middle.1 hl
    rw [List.nodup_cons, List.mem_append] at hperm
    tauto
  rw [List.foldl_append, foldl_fixed _ _ _ fun k hk => hbefore k (by simp [hk]) fun e => hnot.1 (e ▸ hk), List.foldl_cons,
    foldl_fixed _ _ _ fun k hk => hafter k (by simp [hk]) fun e => hnot.2 (e ▸ hk)]

/-- Only one context goes on. -/
theorem contexts_one {c : CtxId} (hbefore : ∀ k, k ≠ c → ctxQuiet b k)
    (hafter : ∀ k, k ≠ c → ctxQuiet (contextStep cfg b c) k) : allCtxs.foldl (contextStep cfg) b = contextStep cfg b c :=
  foldl_one (by decide) (mem_allCtxs c) (fun k _ hk => (hbefore k hk).contextStep)
    (fun k _ hk => (hafter k hk).contextStep)

/-- The event of a part in which at most releases are due. -/
theorem finishEvent_held (h : Held cfg b) (hdue : ∀ i, barrierDue b i = false ∧ countDue b i = false)
    (hf : noFresh b = true) (hn : b.journal.notice = false) : Grown b (finishEvent cfg b) := by
  refine finishEvent_grown ?_ hdue hf hn
  rw [foldl_fixed _ _ _ fun c _ => h.contextStep c]
  exact serveBuffer_none h.buffer _

theorem stands_clock (n : Nat) (b : Blocks) : Stands b { b with clock := n } :=
  ⟨fun _ => ⟨rfl, rfl⟩, fun _ => rfl, rfl, fun _ => rfl, rfl, rfl, rfl, rfl, rfl, le_rfl⟩

/-! ## Bursts -/

theorem issueBurst_cons {first : StagedSlot} {rest : List StagedSlot} (h : b.journal.unburst = first :: rest) :
    let taken := first :: (rest.takeWhile fun x => decide (x.pos.idx ≠ 0)).take 15
    let left := b.journal.unburst.drop taken.length
    issueBurst cfg b = handOver (.slotBurst (slotLine cfg first.pos.idx) (taken.map (·.bytes))) .burst .burst
      (b.modJournal fun j => { j with
        staging := (j.staging.filter fun s => s.inFlight) ++ taken.map (fun s => { s with inFlight := true }) ++ left
        groupTimer := if left.isEmpty then .stopped else j.groupTimer }) := by
  unfold issueBurst
  dsimp only
  rw [h]
  rfl

/-- A burst that is due goes into flight: the oldest unburst slots, and the operation stands at the port. -/
theorem burstCheck_due (hd : burstDue cfg b = true) : burstBusy (burstCheck cfg b) = true
    ∧ ∀ first rest, b.journal.unburst = first :: rest → inPort (burstCheck cfg b).mem
      (.slotBurst (slotLine cfg first.pos.idx)
        ((first :: (rest.takeWhile fun x => decide (x.pos.idx ≠ 0)).take 15).map (·.bytes))) .burst = true := by
  unfold burstCheck
  rw [if_pos hd]
  simp only [burstDue, Bool.and_eq_true, Bool.not_eq_true', decide_eq_true_eq] at hd
  obtain ⟨⟨⟨⟨_, hn⟩, _⟩, hne⟩, _⟩ := hd
  cases hu : b.journal.unburst with
  | nil => simp [hu] at hne
  | cons first rest =>
    rw [issueBurst_cons hu]
    refine ⟨?_, fun first' rest' h => ?_⟩
    · unfold burstBusy JournalWriter.burstInFlight
      rw [handOver_journal]
      simp [Blocks.modJournal]
    · cases h
      exact handOver_inPort (by exact hn) _ _ _

/-- A burst in flight stays in flight when the triggers are evaluated. -/
theorem burstCheck_busy (hb : burstBusy b = true) : burstCheck cfg b = b := by
  unfold burstCheck
  rw [if_neg (by simp [burstDue, hb])]

theorem burstCheck_notDue (hd : burstDue cfg b = false) : burstCheck cfg b = b := by
  unfold burstCheck
  rw [if_neg (by simp [hd])]

/-- After the evaluation of the triggers with something to write a burst is in flight. -/
theorem burstCheck_wanted (hw : b.journal.writing = true) (hu : b.journal.unburst ≠ [])
    (hwant : b.journal.burstWanted cfg.journal.groupThreshold.toNat = true) : burstBusy (burstCheck cfg b) = true := by
  cases hb : burstBusy b with
  | true =>
    rw [burstCheck_busy hb]
    exact hb
  | false =>
    simp only [JournalWriter.writing, Bool.and_eq_true, decide_eq_true_eq, Bool.not_eq_true'] at hw
    refine (burstCheck_due ?_).1
    simp [burstDue, hb, hw.1, hw.2, hwant, hu]

/-- Releases and grants leave a burst in flight. -/
theorem Grown.burstBusy (h : Grown b t) (hb : burstBusy b = true) : burstBusy t = true := by
  simp only [Machine.burstBusy, h.grants.journal, Bool.or_eq_true, List.any_eq_true, decide_eq_true_eq] at hb ⊢
  refine hb.imp_right fun ⟨o, ho, how⟩ => ?_
  obtain ⟨k, hk⟩ := mem_ops.1 ho
  exact ⟨o, mem_ops.2 ⟨k, h.slots k o hk⟩, how⟩

/-- What the evaluation of the burst triggers leaves. -/
theorem burstCheck_journal (cfg : Image) (b : Blocks) : ∃ staging timer, (burstCheck cfg b).journal =
    { b.journal with staging := staging, groupTimer := timer } ∧ staging.length = b.journal.staging.length := by
  have hbuffer := stands_burstCheck cfg b
  unfold burstCheck
  split
  · unfold issueBurst
    dsimp only
    split
    · exact ⟨_, _, rfl, rfl⟩
    · rw [handOver_journal]
      exact ⟨_, _, rfl, issueBurst_length b.journal⟩
  · exact ⟨_, _, rfl, rfl⟩

/-! ## The group timer (R72) -/

/-- The blocks when the group timer is due. -/
def groupDue (at' : Nat) (b : Blocks) : Blocks :=
  (b.reachTime at').modJournal fun j => { j with groupTimer := .due }

theorem groupDue_burstDue {at' : Nat} (hstate : b.journal.state = .ready) (hn : b.journal.notice = false)
    (hbusy : burstBusy b = false) (hu : b.journal.unburst ≠ []) : burstDue cfg (groupDue at' b) = true := by
  have hbusy' : burstBusy (groupDue at' b) = false := hbusy
  have hu' : (groupDue at' b).journal.unburst ≠ [] := hu
  have hstate' : (groupDue at' b).journal.state = .ready := hstate
  have hn' : (groupDue at' b).journal.notice = false := hn
  have htimer : (groupDue at' b).journal.groupTimer = .due := rfl
  simp [burstDue, hbusy', hu', hstate', hn', JournalWriter.burstWanted, htimer]

theorem groupDue_idle {at' : Nat} (h : burstBusy b = true ∨ b.journal.unburst = []) :
    burstCheck cfg (groupDue at' b) = groupDue at' b := by
  rcases h with h | h
  · exact burstCheck_busy h
  · refine burstCheck_notDue ?_
    have hu : (groupDue at' b).journal.unburst = [] := h
    simp [burstDue, hu]

/-- Settles O42. -/
theorem groupExpiryIssuesTheBurst : Obligations.GroupExpiryIssuesTheBurst := by
  intro s hs
  obtain ⟨hup, hn, hst, hfr, _⟩ := (atRest_iff s).1 hs
  have hexec : exec .groupTimerExpiry s = .next (s.event (groupExpiry s.mgmt.active)) := rfl
  refine ⟨fun hstopped => ?_, fun at' htimer hready => ?_⟩
  · rw [hexec, event_atRest hs]
    unfold groupExpiry
    split
    · rename_i at' h
      exact absurd h (hstopped at')
    · rfl
  · have hexpiry : groupExpiry s.mgmt.active s.blocks = burstCheck s.mgmt.active (groupDue at' s.blocks) := by
      unfold groupExpiry
      rw [htimer]
      rfl
    have hstands : Stands s.blocks (burstCheck s.mgmt.active (groupDue at' s.blocks)) :=
      ((stands_clock _ s.blocks).trans (stands_modJournal rfl rfl rfl rfl rfl le_rfl)).trans (stands_burstCheck _ _)
    obtain ⟨staging, timer, m, hframe, _⟩ := burstCheck_frame s.mgmt.active (groupDue at' s.blocks)
    have hgrown : Grown (burstCheck s.mgmt.active (groupDue at' s.blocks))
        (finishEvent s.mgmt.active (burstCheck s.mgmt.active (groupDue at' s.blocks))) := by
      refine finishEvent_held ((held_of_still hst).of hstands) ?_ ?_ (hstands.notice.trans hn) <;> rw [hframe]
      · exact ((still_iff _ _).1 hst).2.2.2
      · exact hfr
    rw [event_up hup, hexpiry] at hexec
    generalize finishEvent s.mgmt.active (burstCheck s.mgmt.active (groupDue at' s.blocks)) = x at hexec hgrown
    obtain ⟨hgrants, hport, _⟩ := hgrown
    refine ⟨_, hexec, rfl, ?_, ?_, ?_, ?_, ?_, ?_, fun hidle => ?_, fun first rest hbusy hu => ⟨?_, ?_⟩⟩ <;> dsimp only [after]
    · rw [hgrants.req, hframe]
      rfl
    · rw [hgrants.epochs, hframe]
      rfl
    · rw [hgrants.track, hframe]
      rfl
    · rw [hgrants.journal, hframe]
      rfl
    · rw [hgrants.journal, hframe]
      rfl
    · rw [hgrants.clock, hframe]
      rfl
    · rw [hgrants.journal, groupDue_idle hidle]
      rfl
    · refine hport _ _ (fun l => Owner.noConfusion) ?_
      exact (burstCheck_due (groupDue_burstDue hready hn hbusy (by simp [hu]))).2 first rest hu
    · have hdue := groupDue_burstDue (cfg := s.mgmt.active) (at' := at') hready hn hbusy (by simp [hu])
      have hlen : (first :: (rest.takeWhile fun x => decide (x.pos.idx ≠ 0)).take 15).length ≤ (first :: rest).length :=
        burstSlots_length (first :: rest)
      rw [hgrants.journal, burstCheck, if_pos hdue, issueBurst_cons (b := groupDue at' s.blocks) hu, handOver_journal,
        Blocks.modJournal_journal]
      dsimp only
      have hu' : (groupDue at' s.blocks).journal.unburst = first :: rest := hu
      rw [hu']
      refine if_congr ?_ rfl rfl
      rw [List.isEmpty_iff, List.drop_eq_nil_iff]
      exact ⟨fun h => le_antisymm hlen h, fun h => h.ge⟩

end Sys2Proof.Rounds


/-! SUPPORT. A marker that is asked for is staged, or waits for a buffer slot (R70 to R73, R107, R117). -/

namespace Sys2Proof.Rounds

open Sys2Proof.Machine Sys2Proof.Safety Sys2Proof.Laws Sys2Proof.Arrivals Sys2Proof.Expiries

variable {cfg : Image} {b b' t : Blocks} {k : RecordKind} {c : CtxId} {n : Epoch}

/-- The staged slot of a marker at the tail of a journal (R63, R71). -/
def markerSlot (j : JournalWriter) (k : RecordKind) (c : CtxId) (n : Epoch) : StagedSlot :=
  ⟨buildHeader j.anchor.formatCount k c j.tail.seq n 0 none, j.tail, false, .marker k c n⟩

/-- A journal that has one more slot staged at its tail, and is otherwise the same but for bursts and the timer. -/
structure MarkerStaged (cfg : Image) (j j' : JournalWriter) (x : StagedSlot) : Prop where
  writing : j'.writing = j.writing
  tail : j'.tail = j.tail.advance cfg.ringN 1
  reserved : j'.reserved = j.reserved - 1
  markerQueue : j'.markerQueue = j.markerQueue
  captureQueue : j'.captureQueue = j.captureQueue
  promises : j'.promises = j.promises
  length : j'.staging.length = j.staging.length + 1
  member : ∃ y ∈ j'.staging, { y with inFlight := false } = x

theorem stageMarker_eq (he : (b.ctx c).epoch.getD 0 = n) : stageMarker cfg k c b =
    burstCheck cfg (stage cfg [markerSlot b.journal k c n] n c b) := by
  unfold stageMarker
  rw [he]
  rfl

theorem stage_busy : burstBusy (stage cfg [markerSlot b.journal k c n] n c b) = burstBusy b := by
  unfold burstBusy JournalWriter.burstInFlight stage
  simp [Blocks.modJournal, markerSlot]

theorem stage_unburst : (stage cfg [markerSlot b.journal k c n] n c b).journal.unburst =
    b.journal.unburst ++ [markerSlot b.journal k c n] := by
  simp [JournalWriter.unburst, stage, Blocks.modJournal, markerSlot]

theorem burstSlots_prefix (l : List StagedSlot) : burstSlots l <+: l := by
  cases l with
  | nil => exact List.prefix_rfl
  | cons x l => exact List.cons_prefix_cons.2 ⟨rfl, (List.take_prefix _ _).trans (List.takeWhile_prefix _)⟩

/-- A staged slot stays staged when the triggers are evaluated; a burst may take it into flight. -/
theorem burstCheck_staging (cfg : Image) (b : Blocks) {x : StagedSlot} (hx : x ∈ b.journal.staging) :
    ∃ y ∈ (burstCheck cfg b).journal.staging, { y with inFlight := false } = { x with inFlight := false } := by
  unfold burstCheck
  split
  · unfold issueBurst
    dsimp only
    split
    · exact ⟨x, hx, rfl⟩
    · rw [handOver_journal, Blocks.modJournal_journal]
      dsimp only
      by_cases hflight : x.inFlight = true
      · exact ⟨x, by simp [hx, hflight], rfl⟩
      · have hunburst : x ∈ b.journal.unburst := List.mem_filter.2 ⟨hx, by simpa using hflight⟩
        obtain ⟨left, hleft⟩ := burstSlots_prefix b.journal.unburst
        have hdrop : b.journal.unburst.drop (burstSlots b.journal.unburst).length = left := by
          have hcut := congrArg (List.drop (burstSlots b.journal.unburst).length) hleft
          rwa [List.drop_left, eq_comm] at hcut
        rw [← hleft, List.mem_append] at hunburst
        rcases hunburst with h | h
        · exact ⟨{ x with inFlight := true }, by
            simp only [List.mem_append, List.mem_map]
            exact .inl (.inr ⟨x, h, rfl⟩), rfl⟩
        · exact ⟨x, by
            rw [List.mem_append, hdrop]
            exact .inr h, rfl⟩
  · exact ⟨x, hx, rfl⟩

/-- A marker is staged in its reserved slot, with a burst in flight (R71, R72). -/
theorem stageMarker_staged (hw : b.journal.writing = true) (he : (b.ctx c).epoch.getD 0 = n) :
    MarkerStaged cfg b.journal (stageMarker cfg k c b).journal (markerSlot b.journal k c n)
      ∧ burstBusy (stageMarker cfg k c b) = true
      ∧ (burstBusy b = false → ∀ first rest, b.journal.unburst ++ [markerSlot b.journal k c n] = first :: rest →
        inPort (stageMarker cfg k c b).mem (.slotBurst (slotLine cfg first.pos.idx)
          ((first :: (rest.takeWhile fun x => decide (x.pos.idx ≠ 0)).take 15).map (·.bytes))) .burst = true) := by
  have hw' : (stage cfg [markerSlot b.journal k c n] n c b).journal.writing = true := hw
  have hunburst := stage_unburst (cfg := cfg) (b := b) (k := k) (c := c) (n := n)
  have hwant : (stage cfg [markerSlot b.journal k c n] n c b).journal.burstWanted cfg.journal.groupThreshold.toNat = true := by
    unfold JournalWriter.burstWanted
    rw [hunburst]
    simp [markerSlot, SlotUse.isMarker]
  have hbusy := stage_busy (cfg := cfg) (b := b) (k := k) (c := c) (n := n)
  rw [stageMarker_eq he]
  refine ⟨?_, burstCheck_wanted hw' (by simp [hunburst]) hwant, fun hidle first rest h => ?_⟩
  · have hmember := burstCheck_staging cfg (stage cfg [markerSlot b.journal k c n] n c b) (x := markerSlot b.journal k c n)
      (by simp [stage, Blocks.modJournal])
    obtain ⟨staging, timer, hj, hlen⟩ := burstCheck_journal cfg (stage cfg [markerSlot b.journal k c n] n c b)
    rw [hj] at hmember ⊢
    refine ⟨rfl, rfl, rfl, rfl, rfl, rfl, hlen.trans ?_, hmember⟩
    simp [stage, Blocks.modJournal]
  · refine (burstCheck_due ?_).2 first rest (hunburst.trans h)
    simp only [JournalWriter.writing, Bool.and_eq_true, decide_eq_true_eq, Bool.not_eq_true'] at hw'
    simp [burstDue, hw'.1, hw'.2, hbusy, hidle, hunburst, hwant]

/-! ## The service of the buffer -/

/-- From one state to another one more marker waits, and the buffer is the same but for a burst. -/
structure Asked (cfg : Image) (b b' : Blocks) (k : RecordKind) (c : CtxId) (n : Epoch) : Prop where
  writing : b'.journal.writing = true
  queue : b'.journal.markerQueue = b.journal.markerQueue ++ [⟨k, c⟩]
  captureQueue : b.journal.captureQueue = [] → b'.journal.captureQueue = []
  promises : b'.journal.promises = b.journal.promises
  tail : b'.journal.tail = b.journal.tail
  reserved : b'.journal.reserved = b.journal.reserved
  formatCount : b'.journal.anchor.formatCount = b.journal.anchor.formatCount
  length : b'.journal.staging.length = b.journal.staging.length
  epoch : (b'.ctx c).epoch = some n
  burst : burstBusy b = false → burstDue cfg b = false → b'.journal.staging = b.journal.staging ∧ burstBusy b' = false

theorem Asked.staged (h : Asked cfg b b' k c n) : (b'.ctx c).epoch.getD 0 = n := by
  rw [h.epoch]
  rfl

/-- The service of a buffer in which one marker has been asked for: it waits, or it is staged at once. -/
theorem serveBuffer_asked (hw : b.journal.writing = true) (hserve : serveOne cfg b = none) (h : Asked cfg b b' k c n) :
    serveBuffer cfg Config.stagingCapacity b' =
      if b.journal.markerQueue = [] ∧ 1 ≤ b.journal.freeBuffer then
        stageMarker cfg k c (b'.modJournal fun j => { j with markerQueue := [] })
      else b' := by
  have hfree : b'.journal.freeBuffer = b.journal.freeBuffer := by
    simp only [JournalWriter.freeBuffer, h.length, h.promises]
  have hnone := serveOne_none_iff.1 hserve
  split
  · rename_i hcond
    obtain ⟨hempty, hroom⟩ := hcond
    have hqueue : b'.journal.markerQueue = [⟨k, c⟩] := by rw [h.queue, hempty]; rfl
    have hone : serveOne cfg b' = some (stageMarker cfg k c (b'.modJournal fun j => { j with markerQueue := [] })) := by
      unfold serveOne
      dsimp only
      rw [if_neg (by simp [h.writing]), hqueue]
      exact if_pos (hfree.symm ▸ hroom)
    obtain ⟨hstaged, _⟩ := stageMarker_staged (cfg := cfg) (k := k)
      (b := b'.modJournal fun j => { j with markerQueue := [] }) (c := c) h.writing h.staged
    have hfree' : (stageMarker cfg k c (b'.modJournal fun j => { j with markerQueue := [] })).journal.freeBuffer
        ≤ b.journal.freeBuffer := by
      rw [← hfree]
      unfold JournalWriter.freeBuffer
      rw [hstaged.length, hstaged.promises]
      simp only [Blocks.modJournal_journal]
      omega
    have hrest : serveOne cfg (stageMarker cfg k c (b'.modJournal fun j => { j with markerQueue := [] })) = none := by
      rw [serveOne_none_iff, hstaged.markerQueue, hstaged.captureQueue]
      simp only [hw, hempty, ne_eq, not_true_eq_false, false_and, true_and, false_or, Bool.true_eq_false] at hnone
      refine .inr (.inr ⟨rfl, ?_⟩)
      refine hnone.imp (fun hq => h.captureQueue hq) fun hlt => by omega
    show serveBuffer cfg (15 + 1) b' = _
    rw [serveBuffer, hone]
    exact serveBuffer_none hrest 15
  · rename_i hcond
    refine serveBuffer_none (serveOne_none_iff.2 (.inr (.inl ⟨by simp [h.queue], ?_⟩))) _
    rw [hfree]
    by_contra hroom
    have hempty : b.journal.markerQueue ≠ [] := fun hempty => hcond ⟨hempty, by omega⟩
    simp [hw, hempty] at hnone
    omega

theorem freeBuffer_iff (j : JournalWriter) {n : Nat} (hn : 0 < n) : n ≤ j.freeBuffer ↔ bufferHas n j := by
  unfold JournalWriter.freeBuffer bufferHas Config.stagingCapacity
  omega

/-- A marker that has been asked for is staged when the buffer is served, or it waits. -/
theorem markerAsked_of {s : State} (hw : b.journal.writing = true) (hserve : serveOne cfg b = none)
    (h : Asked cfg b b' k c n) (ht : Grown (serveBuffer cfg Config.stagingCapacity b') s.blocks) :
    markerAsked cfg b k c n s := by
  rw [serveBuffer_asked hw hserve h] at ht
  have hroom := freeBuffer_iff b.journal (n := 1) Nat.one_pos
  refine ⟨fun hwait => ?_, fun hempty hhas => ?_⟩
  · rw [if_neg (by rw [hroom]; tauto)] at ht
    rw [ht.grants.journal, h.queue]
    simp
  · rw [if_pos ⟨hempty, hroom.2 hhas⟩] at ht
    obtain ⟨hstaged, hbusy, hburst⟩ := stageMarker_staged (cfg := cfg) (k := k)
      (b := b'.modJournal fun j => { j with markerQueue := [] }) (c := c) h.writing h.staged
    have hslot : markerSlot (b'.modJournal fun j => { j with markerQueue := [] }).journal k c n =
        markerSlot b.journal k c n := by
      simp only [markerSlot, Blocks.modJournal_journal, h.formatCount, h.tail]
    rw [hslot] at hstaged hburst
    refine ⟨?_, ?_, ?_, ht.burstBusy hbusy, fun hidle hdue first rest hslots => ?_⟩
    · rw [ht.grants.journal, hstaged.tail, Blocks.modJournal_journal, h.tail]
    · rw [ht.grants.journal, hstaged.reserved, Blocks.modJournal_journal, h.reserved]
    · rw [ht.grants.journal]
      exact hstaged.member
    · obtain ⟨hstaging, hidle'⟩ := h.burst hidle hdue
      refine ht.port _ _ (fun l => Owner.noConfusion) (hburst hidle' first rest ?_)
      rw [← hslots]
      simp only [JournalWriter.unburst, Blocks.modJournal_journal, hstaging]
      rfl

end Sys2Proof.Rounds


/-! SUPPORT. A commit begins: DRAINING with its demands, or MARKING with its marker (R104 to R107). -/

namespace Sys2Proof.Rounds

open Sys2Proof.Machine Sys2Proof.Safety Sys2Proof.Laws Sys2Proof.Arrivals Sys2Proof.Expiries

variable {cfg : Image} {b b' t : Blocks} {c k : CtxId} {n : Epoch}

/-! ## Streams that stand by -/

/-- No stream's request is stalled or due to go on: each stream is idle, or waits for a commit or for data. -/
def StandBy (b : Blocks) : Prop :=
  ∀ i, (b.stream i).phase = .idle ∨ (b.stream i).phase = .commitWaiter ∨ (b.stream i).phase = .reading

theorem StandBy.congr (h : StandBy b) (hs : ∀ i, (b'.stream i).phase = (b.stream i).phase) : StandBy b' := fun i => by
  rw [hs i]
  exact h i

theorem StandBy.noStall (h : StandBy b) : noStall b = true := by
  rw [noStall_iff]
  intro i cause
  rcases h i with h | h | h <;> simp [h]

theorem StandBy.noFresh (h : StandBy b) : noFresh b = true := by
  rw [noFresh_iff]
  intro i
  rcases h i with h | h | h <;> simp [h]

theorem StandBy.notDue (h : StandBy b) (i : StreamId) : barrierDue b i = false ∧ countDue b i = false := by
  rcases h i with h | h | h <;> simp [barrierDue, countDue, h]

theorem standBy_idle (h : ∀ i, idleStream (b.stream i) = true) : StandBy b := fun i => .inl (phase_of_idleStream (h i))

/-! ## Contexts that are left alone -/

theorem ctxQuiet_congr (h : ctxQuiet b k) (hctx : b'.ctx k = b.ctx k) (hcount : b'.heldCount k = b.heldCount k)
    (htrack : b'.track = b.track) (hout : b'.mem.restoreOutstanding k = b.mem.restoreOutstanding k)
    (hnotice : b'.journal.notice = b.journal.notice) (hhead : b'.journal.head = b.journal.head) : ctxQuiet b' k := by
  simp only [ctxQuiet, drainDue, quiesceDue, nextRestore, retireDue, rollbackIn, unslotted, Blocks.capturing,
    Blocks.entriesOf, hctx, hcount, htrack, hout, hnotice, hhead] at h ⊢
  exact h

/-! ## The service of the buffer -/

theorem stageMarker_frame (cfg : Image) (k : RecordKind) (c : CtxId) (b : Blocks) : ∃ j m,
    stageMarker cfg k c b = { b with journal := j, mem := m } ∧ j.notice = b.journal.notice ∧ m.slots = b.mem.slots := by
  unfold stageMarker
  dsimp only
  obtain ⟨_, _, m, hm, hslots, _⟩ := burstCheck_frame cfg (stage cfg [⟨buildHeader b.journal.anchor.formatCount k c
    b.journal.tail.seq ((b.ctx c).epoch.getD 0) 0 none, b.journal.tail, false,
    .marker k c ((b.ctx c).epoch.getD 0)⟩] ((b.ctx c).epoch.getD 0) c b)
  exact ⟨_, m, hm, rfl, hslots⟩

theorem serveOne_frame (h : serveOne cfg b = some b') : ∃ j m, b' = { b with journal := j, mem := m }
    ∧ j.notice = b.journal.notice ∧ m.slots = b.mem.slots := by
  unfold serveOne at h
  dsimp only at h
  split at h
  · cases h
  · split at h
    · rename_i x rest _
      split at h
      · cases h
        obtain ⟨j, m, hm, hnotice, hslots⟩ := stageMarker_frame cfg x.kind x.ctx
          (b.modJournal fun j => { j with markerQueue := rest })
        exact ⟨j, m, hm, hnotice, hslots⟩
      · cases h
    · split at h
      · rename_i id rest _
        split at h
        · cases h
          obtain ⟨m, hm, hslots⟩ := handOver_frame (.lineRead (captureLine b id)) .capture (.capture id)
            (b.modJournal fun j => { j with captureQueue := rest, promises := j.promises ++ [id] })
          exact ⟨_, m, hm, rfl, hslots⟩
        · cases h
      · cases h

/-- The service of the buffer changes the journal and what waits at the port. -/
theorem serveBuffer_frame (cfg : Image) (n : Nat) (b : Blocks) : ∃ j m, serveBuffer cfg n b = { b with journal := j, mem := m }
    ∧ j.notice = b.journal.notice ∧ m.slots = b.mem.slots := by
  induction n generalizing b with
  | zero => exact ⟨_, _, rfl, rfl, rfl⟩
  | succ n ih =>
    cases h : serveOne cfg b with
    | none =>
      rw [serveBuffer_none h]
      exact ⟨_, _, rfl, rfl, rfl⟩
    | some b' =>
      rw [serveBuffer, h]
      obtain ⟨j, m, rfl, hnotice, hslots⟩ := serveOne_frame h
      obtain ⟨j', m', hm', hnotice', hslots'⟩ := ih { b with journal := j, mem := m }
      exact ⟨j', m', hm', hnotice'.trans hnotice, hslots'.trans hslots⟩

/-! ## The demands of a drain (R105) -/

theorem mem_foldl_demands {α : Type} {f : Blocks → α → Blocks} {d : Demand}
    (h : ∀ b x, ∃ l, f b x = b.modJournal fun j => { j with demands := j.demands ++ l }) {xs : List α} {x : α} (hx : x ∈ xs)
    {b : Blocks} (hd : ∀ b' : Blocks, b'.journal.staging = b.journal.staging → d ∈ (f b' x).journal.demands) :
    d ∈ (xs.foldl f b).journal.demands := by
  induction xs generalizing b with
  | nil => cases hx
  | cons y ys ih =>
    rw [List.foldl_cons]
    obtain ⟨l, hl⟩ := h b y
    rcases List.mem_cons.1 hx with rfl | hx
    · obtain ⟨l', hl'⟩ := foldl_demands h ys (f b x)
      rw [hl', Blocks.modJournal_journal]
      exact List.mem_append_left _ (hd b rfl)
    · exact ih hx fun b' hb' => hd b' (hb'.trans (by rw [hl]; rfl))

theorem drainDemand_journal (source : DemandSource) (b : Blocks) (e : TrackEntry) : ∃ l, (match e.pos with
    | some p => placeDemand ⟨p.dataSeq, source⟩ b
    | none => b) = b.modJournal fun j => { j with demands := j.demands ++ l } := by
  split
  · obtain ⟨l, hl, _⟩ := placeDemand_journal ⟨_, source⟩ b
    exact ⟨l, hl⟩
  · exact ⟨[], by simp [Blocks.modJournal]⟩

theorem drainDemands_journal (c : CtxId) (source : DemandSource) (b : Blocks) :
    ∃ l, drainDemands c source b = b.modJournal fun j => { j with demands := j.demands ++ l } :=
  foldl_demands (drainDemand_journal source) _ b

theorem stands_drainDemands (c : CtxId) (source : DemandSource) (b : Blocks) : Stands b (drainDemands c source b) := by
  obtain ⟨l, hl⟩ := drainDemands_journal c source b
  rw [hl]
  exact stands_modJournal rfl rfl rfl rfl rfl le_rfl

theorem drainDemands_none {source : DemandSource} (h : b.capturing c = false) : drainDemands c source b = b := by
  have hnil : (b.entriesOf c).filter (fun e => decide (e.state = .capturing)) = [] := by
    rw [List.filter_eq_nil_iff]
    intro e he
    obtain ⟨he, hec⟩ := List.mem_filter.1 he
    have hnone := List.any_eq_false.1 h e he
    simpa [of_decide_eq_true hec] using hnone
  unfold drainDemands
  rw [hnil]
  rfl

/-- A demand stands on each staged record of the context, and the record's burst is in flight once the triggers are
evaluated. -/
theorem drainDemands_places {source : DemandSource} {e : TrackEntry} {p : RingPtr} (hw : b.journal.writing = true)
    (he : e ∈ b.track) (hec : e.ctx = c) (hstate : e.state = .capturing) (hp : e.pos = some p)
    (hs : ∃ x ∈ b.journal.staging, x.pos.seq = p.dataSeq) :
    (⟨p.dataSeq, source⟩ : Demand) ∈ (burstCheck cfg (drainDemands c source b)).journal.demands
      ∧ burstBusy (burstCheck cfg (drainDemands c source b)) = true := by
  have hmem : (⟨p.dataSeq, source⟩ : Demand) ∈ (drainDemands c source b).journal.demands := by
    refine mem_foldl_demands (drainDemand_journal source) (x := e) ?_ fun b' hb' => ?_
    · exact List.mem_filter.2 ⟨List.mem_filter.2 ⟨he, by simpa using hec⟩, by simpa using hstate⟩
    · rw [hp]
      exact mem_placeDemand (by rw [hb']; exact hs)
  obtain ⟨l, hl⟩ := drainDemands_journal c source b
  refine ⟨?_, ?_⟩
  · obtain ⟨staging, timer, hj, _⟩ := burstCheck_journal cfg (drainDemands c source b)
    rw [hj]
    exact hmem
  · obtain ⟨x, hx, hseq⟩ := hs
    have hx' : x ∈ (drainDemands c source b).journal.staging := by rw [hl]; exact hx
    by_cases hflight : x.inFlight = true
    · have hbusy : burstBusy (drainDemands c source b) = true := by
        unfold burstBusy JournalWriter.burstInFlight
        rw [Bool.or_eq_true, List.any_eq_true]
        exact .inl ⟨x, hx', hflight⟩
      rw [burstCheck_busy hbusy]
      exact hbusy
    · have hunburst : x ∈ (drainDemands c source b).journal.unburst := List.mem_filter.2 ⟨hx', by simpa using hflight⟩
      refine burstCheck_wanted (by rw [hl]; exact hw) (List.ne_nil_of_mem hunburst) ?_
      unfold JournalWriter.burstWanted
      rw [Bool.or_eq_true, List.any_eq_true]
      refine .inr ⟨x, hunburst, ?_⟩
      rw [List.any_eq_true]
      exact ⟨_, hmem, by simpa using hseq.symm⟩

end Sys2Proof.Rounds


/-! SUPPORT. Commits that begin by a COMMIT, a management command or the idle timer (R31, R32, R104 to R107). -/

namespace Sys2Proof.Rounds

open Sys2Proof.Machine Sys2Proof.Safety Sys2Proof.Laws Sys2Proof.Arrivals Sys2Proof.Expiries

variable {cfg : Image} {b b' t : Blocks} {c k : CtxId} {n : Epoch}

/-- The event of a request of an idle stream after which contexts go on and the buffer is served. -/
theorem arrival_grown {s : State} {i : StreamId} (hs : atRest s = true) (hi : idleStream (s.blocks.stream i) = true)
    (q : Request) {x : Blocks} (hx : serveBuffer s.mgmt.active Config.stagingCapacity
      (allCtxs.foldl (contextStep s.mgmt.active) (handleCurrent s.mgmt.active i (current i q s.blocks))) = x)
    (hdue : ∀ i, barrierDue x i = false ∧ countDue x i = false) (hf : noFresh x = true) (hn : x.journal.notice = false) :
    ∃ y, s.event (arrive i q) = after s y ∧ Grown x y := by
  obtain ⟨hup, hlive, hst, hfr, _⟩ := (atRest_iff s).1 hs
  obtain ⟨hq, _⟩ := (idleStream_iff _).1 hi
  obtain ⟨m, hm, _⟩ := requestReleases_frame x
  have hcurrent : progress s.mgmt.active (current i q s.blocks) = current i q s.blocks :=
    progress_still (still_modStream hst i _ (notDue_of_phase (by simp) (by simp)))
  have hone (k : StreamId) : ((current i q s.blocks).stream k).phase = .fresh ↔ k = i := by
    rw [current, Blocks.modStream_stream]
    split
    · simp_all
    · rename_i hk
      simp [hk, (noFresh_iff _).1 hfr k]
  have hp : progress s.mgmt.active (handleCurrent s.mgmt.active i (current i q s.blocks)) = requestReleases x := by
    unfold progress
    dsimp only
    rw [hx, hm, answerBarriers_none (b := { x with mem := m }) fun i => (hdue i).1,
      handOnCounts_none (b := { x with mem := m }) fun i => (hdue i).2]
  have hfinish := finishEvent_handles hcurrent hone hp (by rw [hm]; exact hf) (by rw [hm]; exact hn)
  refine ⟨_, ?_, (grown_requestReleases x).trans (grown_arbitrate s.mgmt.active 32 _)⟩
  rw [event_up hup, arrive_idle hlive hq]
  exact congrArg (after s) hfinish

theorem Stands.serveOne (h : Stands b b') (hserve : serveOne cfg b = none) : serveOne cfg b' = none := by
  have hb := h.buffer
  rw [serveOne_none_iff] at hserve ⊢
  simp only [JournalWriter.writing, h.state, h.notice, h.markerQueue, h.captureQueue] at hserve ⊢
  rcases hserve with hw | ⟨hq, hfree⟩ | ⟨hq, hc⟩
  · exact .inl hw
  · exact .inr (.inl ⟨hq, by omega⟩)
  · exact .inr (.inr ⟨hq, hc.imp_right fun hfree => by omega⟩)

/-! ## The beginning of a commit -/

/-- The blocks with context c in a state of its commit (R104, R106). -/
def committing (st : CtxState) (c : CtxId) (b : Blocks) : Blocks :=
  b.modCtx c fun x => { x with state := st, idleTimer := none }

theorem beginCommit_eq (h : StandBy b) : beginCommit cfg c b =
    burstCheck cfg (drainDemands c (.drain c) (committing .draining c b)) := by
  unfold beginCommit wakeContext
  dsimp only
  rw [wake_noStall]
  · rfl
  · exact (h.congr (b' := b.modCtx c _) fun _ => rfl).noStall

theorem beginCommit_frame (h : StandBy b) : ∃ l staging timer m, beginCommit cfg c b =
    { committing .draining c b with
      journal := { b.journal with demands := b.journal.demands ++ l, staging := staging, groupTimer := timer }, mem := m }
    ∧ m.slots = b.mem.slots := by
  obtain ⟨l, hl⟩ := drainDemands_journal c (.drain c) (committing .draining c b)
  obtain ⟨staging, timer, m, hm, hslots, _⟩ := burstCheck_frame cfg (drainDemands c (.drain c) (committing .draining c b))
  rw [beginCommit_eq h, hm, hl]
  refine ⟨l, staging, timer, m, rfl, hslots.trans ?_⟩
  rw [hl]
  rfl

theorem committing_ctx (st : CtxState) (c k : CtxId) (b : Blocks) : (committing st c b).ctx k =
    if k = c then { b.ctx c with state := st, idleTimer := none } else b.ctx k := Blocks.modCtx_ctx _ _ _ _

theorem enterMarking_eq (h : StandBy b) : enterMarking cfg c b =
    requestMarker .commit c (b.modCtx c fun x => { x with state := .marking }) := by
  unfold enterMarking wakeContext
  rw [wake_noStall]
  exact (h.congr (b' := b.modCtx c _) fun _ => rfl).noStall

/-- The blocks with context c MARKING (R106). -/
def marking (c : CtxId) (b : Blocks) : Blocks := b.modCtx c fun x => { x with state := .marking }

theorem marking_ctx (c k : CtxId) (b : Blocks) : (marking c b).ctx k =
    if k = c then { b.ctx c with state := .marking } else b.ctx k := Blocks.modCtx_ctx _ _ _ _

/-- A context whose drain is over goes to MARKING, and its marker is asked for, when the contexts go on (R106, R107). -/
theorem marking_leads (hstand : StandBy b) (hn : b.journal.notice = false) (hctx : ∀ k, k ≠ c → ctxQuiet b k)
    (hserve : serveOne cfg b = none) (hdue : drainDue b c = true) :
    ∃ x j m, serveBuffer cfg Config.stagingCapacity (allCtxs.foldl (contextStep cfg) b) = x
      ∧ x = { marking c b with journal := j, mem := m } ∧ j.notice = false
      ∧ ∀ (n : Epoch) (t : State), b.journal.state = .ready → (b.ctx c).epoch = some n → Grown x t.blocks →
        markerAsked cfg b .commit c n t := by
  have hstate : (b.ctx c).state = .draining := by
    simp only [drainDue, Bool.and_eq_true, decide_eq_true_eq] at hdue
    exact hdue.1.1
  have hstep : contextStep cfg b c = enterMarking cfg c b := by
    unfold contextStep
    rw [hstate]
    exact if_pos hdue
  have hframe : ∃ q, enterMarking cfg c b = (marking c b).modJournal
      (fun j => { j with markerQueue := j.markerQueue ++ q }) := by
    rw [enterMarking_eq hstand]
    unfold requestMarker
    split
    · exact ⟨_, rfl⟩
    · exact ⟨[], by
        simp only [Blocks.modJournal, List.append_nil]
        rfl⟩
  have hafter : ∀ k, k ≠ c → ctxQuiet (contextStep cfg b c) k := by
    intro k hk
    obtain ⟨q, hq⟩ := hframe
    rw [hstep, hq]
    exact ctxQuiet_congr (hctx k hk) ((marking_ctx c k b).trans (if_neg hk)) rfl rfl rfl rfl rfl
  obtain ⟨j, m, hserved, hnotice, _⟩ := serveBuffer_frame cfg Config.stagingCapacity (enterMarking cfg c b)
  refine ⟨_, j, m, rfl, ?_, ?_, fun n t hready he hgrown => ?_⟩
  · rw [contexts_one hctx hafter, hstep, hserved]
    obtain ⟨q, hq⟩ := hframe
    rw [hq]
    rfl
  · obtain ⟨q, hq⟩ := hframe
    rw [hnotice, hq]
    exact hn
  · rw [contexts_one hctx hafter, hstep, enterMarking_eq hstand] at hgrown
    have hw : b.journal.writing = true := by simp [JournalWriter.writing, hready, hn]
    refine markerAsked_of hw hserve (b' := requestMarker .commit c (marking c b)) ?_ hgrown
    have hasked : requestMarker .commit c (marking c b) =
        (marking c b).modJournal
          fun j => { j with markerQueue := j.markerQueue ++ [⟨.commit, c⟩] } := if_pos hw
    rw [hasked]
    refine ⟨hw, rfl, id, rfl, rfl, rfl, rfl, rfl, ?_, fun hidle _ => ⟨rfl, hidle⟩⟩
    exact (congrArg Context.epoch ((marking_ctx c c b).trans (if_pos rfl))).trans he

/-- What is asked of a marker is the same before and after an evaluation of the burst triggers. -/
theorem markerAsked_congr {k : RecordKind} {s : State} (hqueue : b'.journal.markerQueue = b.journal.markerQueue)
    (hstaging : b'.journal.staging.length = b.journal.staging.length) (hpromises : b'.journal.promises = b.journal.promises)
    (htail : b'.journal.tail = b.journal.tail) (hreserved : b'.journal.reserved = b.journal.reserved)
    (hformat : b'.journal.anchor.formatCount = b.journal.anchor.formatCount)
    (hburst : burstBusy b = false → burstDue cfg b = false →
      b'.journal.staging = b.journal.staging ∧ burstBusy b' = false ∧ burstDue cfg b' = false)
    (h : markerAsked cfg b' k c n s) : markerAsked cfg b k c n s := by
  obtain ⟨hwaits, hstaged⟩ := h
  simp only [bufferHas, hqueue, hstaging, hpromises, htail, hreserved, hformat] at hwaits hstaged
  refine ⟨hwaits, fun hempty hhas => ?_⟩
  obtain ⟨htail', hreserved', hmember, hbusy, hstands⟩ := hstaged hempty hhas
  refine ⟨htail', hreserved', hmember, hbusy, fun hidle hdue => ?_⟩
  obtain ⟨hsame, hidle', hdue'⟩ := hburst hidle hdue
  have := hstands hidle' hdue'
  simpa only [JournalWriter.unburst, hsame] using this

theorem marking_committing (c : CtxId) (b : Blocks) : marking c (committing .draining c b) = committing .marking c b := by
  unfold marking committing
  rw [Blocks.modCtx_modCtx]

theorem stands_beginCommit (h : StandBy b) : Stands (committing .draining c b) (beginCommit cfg c b) := by
  rw [beginCommit_eq h]
  exact (stands_drainDemands _ _ _).trans (stands_burstCheck _ _)

theorem quiet_beginCommit (h : StandBy b) (hk : k ≠ c) (hq : ctxQuiet b k) : ctxQuiet (beginCommit cfg c b) k :=
  (stands_beginCommit h).ctxQuiet
    (ctxQuiet_congr hq ((committing_ctx .draining c k b).trans (if_neg hk)) rfl rfl rfl rfl rfl)

theorem beginCommit_state (h : StandBy b) : ((beginCommit cfg c b).ctx c).state = .draining :=
  ((stands_beginCommit h).ctxs c).1.trans (congrArg Context.state ((committing_ctx .draining c c b).trans (if_pos rfl)))

theorem beginCommit_drainDue (h : StandBy b) : drainDue (beginCommit cfg c b) c = !mustDrain b c := by
  have hcount : (beginCommit cfg c b).heldCount c = b.heldCount c := (stands_beginCommit h).heldCount c
  have hcapturing : (beginCommit cfg c b).capturing c = b.capturing c := by
    unfold Blocks.capturing
    rw [(stands_beginCommit h).track]
    rfl
  simp [drainDue, mustDrain, beginCommit_state h, hcount, hcapturing]

theorem standBy_beginCommit (h : StandBy b) : StandBy (beginCommit cfg c b) := by
  obtain ⟨l, staging, timer, m, hframe, _⟩ := beginCommit_frame (cfg := cfg) (c := c) h
  rw [hframe]
  exact h.congr fun _ => rfl

/-- What the beginning of a commit leads to when the contexts go on and the buffer is served. -/
theorem beginCommit_leads {s : State} (hstand : StandBy s.blocks) (hn : s.blocks.journal.notice = false)
    (hctx : ∀ k, k ≠ c → ctxQuiet s.blocks k) (hserve : serveOne s.mgmt.active s.blocks = none) :
    ∃ x j m, serveBuffer s.mgmt.active Config.stagingCapacity
        (allCtxs.foldl (contextStep s.mgmt.active) (beginCommit s.mgmt.active c s.blocks)) = x
      ∧ x = { committing (if mustDrain s.blocks c then .draining else .marking) c s.blocks with journal := j, mem := m }
      ∧ j.notice = false ∧ ∀ t : State, s.blocks.journal.state = .ready → Grown x t.blocks → commitBegun s c t := by
  obtain ⟨l, staging, timer, m, hframe, hslots⟩ := beginCommit_frame (cfg := s.mgmt.active) (c := c) hstand
  have hstands := stands_beginCommit (cfg := s.mgmt.active) (c := c) hstand
  have hother (k : CtxId) (hk : k ≠ c) : ctxQuiet (beginCommit s.mgmt.active c s.blocks) k :=
    quiet_beginCommit hstand hk (hctx k hk)
  have hserve' : serveOne s.mgmt.active (beginCommit s.mgmt.active c s.blocks) = none :=
    hstands.serveOne (serveOne_none_congr (b := s.blocks) rfl hserve)
  have hstate := beginCommit_state (cfg := s.mgmt.active) (c := c) hstand
  have hdue := beginCommit_drainDue (cfg := s.mgmt.active) (c := c) hstand
  have hstandBegun := standBy_beginCommit (cfg := s.mgmt.active) (c := c) hstand
  cases hmust : mustDrain s.blocks c with
  | true =>
    have hstep : contextStep s.mgmt.active (beginCommit s.mgmt.active c s.blocks) c = beginCommit s.mgmt.active c s.blocks := by
      unfold contextStep
      rw [hstate]
      exact if_neg (by simp [hdue, hmust])
    refine ⟨beginCommit s.mgmt.active c s.blocks, (beginCommit s.mgmt.active c s.blocks).journal, m, ?_, ?_, ?_, fun t hready hgrown =>
      ⟨fun _ e he hec hcap p hp hs => ?_, fun h => absurd h (by simp [hmust])⟩⟩
    · rw [contexts_one hother (by rw [hstep]; exact hother), hstep, serveBuffer_none hserve']
    · rw [hframe]
      rfl
    · exact hstands.notice.trans hn
    · have hplaces := drainDemands_places (cfg := s.mgmt.active) (c := c) (source := .drain c)
        (b := committing .draining c s.blocks) (by simp [JournalWriter.writing, committing, hready, hn]) he hec hcap hp hs
      rw [← beginCommit_eq hstand] at hplaces
      rw [hgrown.grants.journal]
      exact ⟨hplaces.1, hgrown.burstBusy hplaces.2⟩
  | false =>
    have hcapturing : (committing .draining c s.blocks).capturing c = false := by
      simp only [mustDrain, Bool.or_eq_false_iff] at hmust
      exact hmust.2
    obtain ⟨x, j, m', hx, hxframe, hnotice, hasked⟩ := marking_leads hstandBegun (hstands.notice.trans hn) hother hserve'
      (hdue.trans (by simp [hmust]))
    refine ⟨x, j, m', hx, ?_, hnotice, fun t hready hgrown => ⟨fun h => absurd h (by simp [hmust]), fun _ n he => ?_⟩⟩
    · rw [hxframe, hframe, if_neg (by simp), ← marking_committing]
      rfl
    · have hctxc : ((beginCommit s.mgmt.active c s.blocks).ctx c).epoch = some n := by
        rw [hframe]
        exact (congrArg Context.epoch ((committing_ctx .draining c c s.blocks).trans (if_pos rfl))).trans he
      refine markerAsked_congr (b' := beginCommit s.mgmt.active c s.blocks) hstands.markerQueue ?_ ?_ ?_ ?_ ?_
        (fun hidle hdue => ?_) (hasked n t (hstands.state.trans hready) hctxc hgrown)
      · rw [beginCommit_eq hstand, drainDemands_none hcapturing]
        obtain ⟨staging, timer, hj, hlen⟩ := burstCheck_journal s.mgmt.active (committing .draining c s.blocks)
        rw [hj]
        exact hlen
      · rw [hframe]
      · rw [hframe]
      · rw [hframe]
      · rw [hframe]
      · have hsame : beginCommit s.mgmt.active c s.blocks = committing .draining c s.blocks := by
          rw [beginCommit_eq hstand, drainDemands_none hcapturing]
          exact burstCheck_notDue hdue
        rw [hsame]
        exact ⟨rfl, hidle, hdue⟩

end Sys2Proof.Rounds


/-! SUPPORT. The commits of a COMMIT, of the management port and of the idle timer (R28, R29, R32). -/

namespace Sys2Proof.Rounds

open Sys2Proof.Machine Sys2Proof.Safety Sys2Proof.Laws Sys2Proof.Arrivals Sys2Proof.Expiries

variable {cfg : Image} {b b' x t : Blocks} {c k : CtxId} {n : Epoch}

theorem Grown.ctx (h : Grown b t) (k : CtxId) : t.ctx k = b.ctx k := congrArg (fun e : EpochController => e.ctxs[k]) h.grants.epochs

theorem Grown.stream (h : Grown b t) (i : StreamId) : t.stream i = b.stream i :=
  congrArg (fun r : RequestPort => r.streams[i]) h.grants.req

theorem stands_modCtx {f : Context → Context} (hstate : (f (b.ctx c)).state = (b.ctx c).state)
    (hroll : (f (b.ctx c)).rollback = (b.ctx c).rollback) : Stands b (b.modCtx c f) := by
  refine ⟨fun k => ?_, fun _ => rfl, rfl, fun _ => rfl, rfl, rfl, rfl, rfl, rfl, le_rfl⟩
  rw [Blocks.modCtx_ctx]
  split
  · rename_i hk
    subst hk
    exact ⟨hstate, hroll⟩
  · exact ⟨rfl, rfl⟩

/-- A change of a context's record that leaves its state and its rollback is followed by nothing. -/
theorem still_modCtx_same (h : still cfg b = true) {f : Context → Context} (hstate : (f (b.ctx c)).state = (b.ctx c).state)
    (hroll : (f (b.ctx c)).rollback = (b.ctx c).rollback) : still cfg (b.modCtx c f) = true :=
  still_of_parts ((held_of_still h).of (stands_modCtx hstate hroll))
    ((noRelease_of_still h).of (fun _ e he => ⟨e, he, fun hr => hr⟩) (fun _ hd => hd) rfl fun _ hr => hr)
    ((still_iff cfg b).1 h).2.2.2

/-! ## What a commit has begun is known by the ring, the entries and the epoch -/

theorem commitBegun_of {s t : State} (hj : b.journal = s.blocks.journal) (htrack : b.track = s.blocks.track)
    (hheld : b.held = s.blocks.held) (hmem : b.mem = s.blocks.mem) (he : (b.ctx c).epoch = (s.blocks.ctx c).epoch)
    (h : commitBegun (after s b) c t) : commitBegun s c t := by
  have hmust : mustDrain b c = mustDrain s.blocks c := by
    unfold mustDrain Blocks.heldCount Blocks.capturing
    rw [hheld, htrack]
  have hbusy : burstBusy b = burstBusy s.blocks := by
    unfold burstBusy
    rw [hj, hmem]
  have hdue : burstDue s.mgmt.active b = burstDue s.mgmt.active s.blocks := by
    unfold burstDue
    rw [hbusy, hj]
  obtain ⟨hdrains, hmarks⟩ := h
  refine ⟨fun hm e hmem => ?_, fun hm n hn => ?_⟩
  · have := hdrains (hmust.trans hm) e (htrack ▸ hmem)
    rw [show (after s b).blocks.journal = s.blocks.journal from hj] at this
    exact this
  · refine markerAsked_congr (b' := b) (by rw [hj]) (by rw [hj]) (by rw [hj]) (by rw [hj]) (by rw [hj]) (by rw [hj])
      (fun hidle hnot => ⟨by rw [hj], hbusy.trans hidle, hdue.trans hnot⟩) (hmarks (hmust.trans hm) n (he.trans hn))

/-! ## An upstream COMMIT -/

/-- The blocks when stream i has joined the commit waiters of context c with its COMMIT (R30). -/
def joinedWaiters (i : StreamId) (tag : Tag) (c : CtxId) (b : Blocks) : Blocks :=
  (b.modCtx c fun x => { x with waiters := x.waiters ++ [i] }).modStream i fun r =>
    { r with queue := [⟨tag, .commit⟩], phase := .commitWaiter }

theorem joinWaiters_current (i : StreamId) (tag : Tag) (c : CtxId) (b : Blocks) :
    joinWaiters i c (current i ⟨tag, .commit⟩ b) = joinedWaiters i tag c b := by
  unfold joinWaiters setPhase joinedWaiters current
  have hswap (f : Context → Context) (g : StreamRec → StreamRec) : (b.modStream i g).modCtx c f = (b.modCtx c f).modStream i g := rfl
  rw [hswap, Blocks.modStream_modStream]

theorem joinedWaiters_ctx (i : StreamId) (tag : Tag) (c k : CtxId) (b : Blocks) : (joinedWaiters i tag c b).ctx k =
    if k = c then { b.ctx c with waiters := (b.ctx c).waiters ++ [i] } else b.ctx k := by
  rw [joinedWaiters, Blocks.modStream_ctx, Blocks.modCtx_ctx]

theorem joinedWaiters_phase (i : StreamId) (tag : Tag) (c : CtxId) (b : Blocks) (k : StreamId) :
    ((joinedWaiters i tag c b).stream k).phase = if k = i then .commitWaiter else (b.stream k).phase := by
  rw [joinedWaiters, Blocks.modStream_stream]
  split
  · rfl
  · rfl

theorem classifyCommit_ready {i : StreamId} {s : State} (hbind : s.mgmt.active.bindings[i] = some c)
    (hready : s.blocks.journal.state = .ready) :
    classifyCommit s.mgmt.active s.blocks i = commitInContext c (s.blocks.ctx c).state := by
  unfold classifyCommit
  rw [hbind, hready]

/-- Settles O26. -/
theorem commitBeginsOrJoins : Obligations.CommitBeginsOrJoins := by
  intro i tag c s halone hbind hready
  obtain ⟨hs, hidle⟩ := (alone_iff s).1 halone
  obtain ⟨_, hn, hst, hfr, _⟩ := (atRest_iff s).1 hs
  have hheld := held_of_still hst
  have hclass := classifyCommit_ready hbind hready
  refine ⟨fun hopen => ?_, fun hstate => ?_⟩
  · have hhandled : handleCurrent s.mgmt.active i (current i ⟨tag, .commit⟩ s.blocks) =
        beginCommit s.mgmt.active c (joinedWaiters i tag c s.blocks) := by
      rw [handleCurrent_commit, handleCommit, classifyCommit_current, hclass, hopen, ← joinWaiters_current]
      rfl
    have hstand : StandBy (joinedWaiters i tag c s.blocks) := fun k => by
      rw [joinedWaiters_phase]
      split
      · exact .inr (.inl rfl)
      · exact standBy_idle hidle k
    obtain ⟨x, j, m, hx, hframe, hnotice, hbegun⟩ := beginCommit_leads (c := c) (s := after s (joinedWaiters i tag c s.blocks))
      hstand hn (fun k hk => ctxQuiet_congr (hheld.context k)
        ((joinedWaiters_ctx i tag c k s.blocks).trans (if_neg hk)) rfl rfl rfl rfl rfl)
      (serveOne_none_congr (b := s.blocks) rfl hheld.buffer)
    have hstandx : StandBy x := by
      rw [hframe]
      exact hstand.congr fun _ => rfl
    obtain ⟨y, hy, hgrown⟩ := arrival_grown hs (hidle i) ⟨tag, .commit⟩ (x := x) (by rw [hhandled]; exact hx) hstandx.notDue
      hstandx.noFresh (by rw [hframe]; exact hnotice)
    have hctx (k : CtxId) : y.ctx k = if k = c then { s.blocks.ctx c with
        state := if mustDrain s.blocks c then .draining else .marking
        idleTimer := none
        waiters := (s.blocks.ctx c).waiters ++ [i] } else s.blocks.ctx k := by
      rw [hgrown.ctx, hframe]
      refine (committing_ctx _ c k (joinedWaiters i tag c s.blocks)).trans ?_
      rw [joinedWaiters_ctx, joinedWaiters_ctx, if_pos rfl]
      split
      · rfl
      · rfl
    refine ⟨after s y, congrArg Host.Outcome.next hy, rfl, ?_, fun k hk => ?_, ?_, ?_, ?_⟩
    · exact (hctx c).trans (if_pos rfl)
    · exact (hctx k).trans (if_neg hk)
    · exact hgrown.grants.track.trans (by rw [hframe]; rfl)
    · exact hgrown.grants.req.trans (by rw [hframe]; rfl)
    · exact commitBegun_of (b := joinedWaiters i tag c s.blocks) rfl rfl rfl rfl (by rw [joinedWaiters_ctx, if_pos rfl]) (hbegun (after s y) hready hgrown)
  · have hhandled : handleCurrent s.mgmt.active i (current i ⟨tag, .commit⟩ s.blocks) = joinedWaiters i tag c s.blocks := by
      rw [handleCurrent_commit, handleCommit, classifyCommit_current, hclass, ← joinWaiters_current]
      rcases hstate with h | h
      · rw [h]
        rfl
      · rw [h]
        rfl
    have hrest := still_modCtx_same (c := c) (f := fun x => { x with waiters := x.waiters ++ [i] }) hst rfl rfl
    obtain ⟨hquiet, hfresh⟩ := quiet_modStream hrest (i := i)
      (f := fun r => { r with queue := [⟨tag, .commit⟩], phase := .commitWaiter }) hfr rfl
    exact congrArg Host.Outcome.next (arrival_over hs (hidle i) ⟨tag, .commit⟩ hhandled hquiet hfresh rfl rfl)

/-! ## A commit for the management waiter -/

/-- The blocks when the management waiter of context c has been set, at some time (R29, R32). -/
def managed (c : CtxId) (now : Nat) (b : Blocks) : Blocks :=
  { b with clock := now }.modCtx c fun x => { x with mgmtWaiter := true }

theorem managed_ctx (c k : CtxId) (now : Nat) (b : Blocks) : (managed c now b).ctx k =
    if k = c then { b.ctx c with mgmtWaiter := true } else b.ctx k := Blocks.modCtx_ctx _ _ _ _

/-- The event in which the commit of a context begins for its management waiter, in a part with no requests. -/
theorem managedCommit {s : State} (halone : alone s = true) (c : CtxId) (now : Nat) :
    ∃ y, finishEvent s.mgmt.active (beginCommit s.mgmt.active c (managed c now s.blocks)) = y
      ∧ y.ctx c = { s.blocks.ctx c with
          state := if mustDrain s.blocks c then .draining else .marking
          idleTimer := none
          mgmtWaiter := true }
      ∧ (∀ k, k ≠ c → y.ctx k = s.blocks.ctx k) ∧ y.track = s.blocks.track ∧ y.req = s.blocks.req ∧ y.clock = now
      ∧ ∀ t : State, t.blocks = y → s.blocks.journal.state = .ready → commitBegun s c t := by
  obtain ⟨hs, hidle⟩ := (alone_iff s).1 halone
  obtain ⟨_, hn, hst, _⟩ := (atRest_iff s).1 hs
  have hheld := held_of_still hst
  have hstand : StandBy (managed c now s.blocks) := (standBy_idle hidle).congr fun _ => rfl
  obtain ⟨x, j, m, hx, hframe, hnotice, hbegun⟩ := beginCommit_leads (c := c) (s := after s (managed c now s.blocks))
    hstand hn (fun k hk => ctxQuiet_congr (hheld.context k)
      ((managed_ctx c k now s.blocks).trans (if_neg hk)) rfl rfl rfl rfl rfl)
    (serveOne_none_congr (b := s.blocks) rfl hheld.buffer)
  have hstandx : StandBy x := by
    rw [hframe]
    exact hstand.congr fun _ => rfl
  have hgrown := finishEvent_grown hx hstandx.notDue hstandx.noFresh (by rw [hframe]; exact hnotice)
  have hctx (k : CtxId) : x.ctx k = if k = c then { s.blocks.ctx c with
      state := if mustDrain s.blocks c then .draining else .marking
      idleTimer := none
      mgmtWaiter := true } else s.blocks.ctx k := by
    rw [hframe]
    refine (committing_ctx _ c k (managed c now s.blocks)).trans ?_
    rw [managed_ctx, managed_ctx, if_pos rfl]
    split
    · rfl
    · rfl
  refine ⟨_, rfl, ?_, fun k hk => ?_, ?_, ?_, ?_, fun t ht hready => ?_⟩
  · exact (hgrown.ctx c).trans ((hctx c).trans (if_pos rfl))
  · exact (hgrown.ctx k).trans ((hctx k).trans (if_neg hk))
  · exact hgrown.grants.track.trans (by rw [hframe]; rfl)
  · exact hgrown.grants.req.trans (by rw [hframe]; rfl)
  · exact hgrown.grants.clock.trans (by rw [hframe]; rfl)
  · exact commitBegun_of (b := managed c now s.blocks) rfl rfl rfl rfl (by rw [managed_ctx, if_pos rfl])
      (hbegun t hready (by rw [ht]; exact hgrown))

/-- Settles O33. -/
theorem managementCommitByTheContextsState : Obligations.ManagementCommitByTheContextsState := by
  intro q c s hs
  obtain ⟨hup, hn, hst, hfr, _⟩ := (atRest_iff s).1 hs
  have htake : exec (.managementCommit q [ctxByte c]) s = .next (commitContext q c s) := by
    refine congrArg Host.Outcome.next ((Port.managed_up hup _).trans ?_)
    unfold takeCommit
    rw [Port.parseCtx_ctxByte]
    exact Port.untilNotice_before hn q _
  dsimp only
  rw [htake]
  unfold commitContext
  refine ⟨fun hidle => by rw [hidle], fun hbarred => ?_, fun hjoins => ?_, fun hopen halone => ?_⟩
  · rcases hbarred with h | h
    · rw [h]
    · rw [h]
  · have hwork : startWork q .started s (fun b => b.modCtx c fun x => { x with mgmtWaiter := true }) =
        respond q .started .empty (after s (s.blocks.modCtx c fun y => { y with mgmtWaiter := true })) := by
      rw [startWork, finishEvent_atRest hs (still_modCtx_same hst rfl rfl) hfr rfl rfl]
      rfl
    rcases hjoins with h | h
    · rw [h, ← hwork]
    · rw [h, ← hwork]
  · rw [hopen]
    obtain ⟨y, hy, hctx, hother, htrack, hreq, _, hbegun⟩ := managedCommit halone c s.blocks.clock
    refine ⟨respond q .started .empty (after s y), ?_, rfl, hctx, hother, htrack, hreq, hbegun _ rfl⟩
    rw [← hy]
    rfl

/-- Settles O41. -/
theorem idleExpiryBeginsTheCommit : Obligations.IdleExpiryBeginsTheCommit := by
  intro c s
  refine ⟨fun hs hnot => ?_, fun at' halone hopen htimer => ?_⟩
  · refine congrArg Host.Outcome.next (event_atRest hs ?_)
    unfold idleExpiry
    dsimp only
    rcases hnot with hstate | hstopped
    · split
      · rw [if_neg hstate]
      · rfl
    · rw [hstopped]
  · obtain ⟨hs, _⟩ := (alone_iff s).1 halone
    obtain ⟨hup, _⟩ := (atRest_iff s).1 hs
    have hexpiry : idleExpiry s.mgmt.active c s.blocks =
        beginCommit s.mgmt.active c (managed c (max s.blocks.clock at') s.blocks) := by
      unfold idleExpiry
      dsimp only
      rw [htimer]
      exact if_pos hopen
    obtain ⟨y, hy, hctx, hother, htrack, hreq, hclock, hbegun⟩ := managedCommit halone c (max s.blocks.clock at')
    refine ⟨after s y, congrArg Host.Outcome.next ?_, rfl, hctx, hother, htrack, hreq, hclock, hbegun _ rfl⟩
    rw [event_up hup, hexpiry, hy]

end Sys2Proof.Rounds


/-! SUPPORT. What no part of an event does but a grant: take time, or touch an operation slot or an issue number. -/

namespace Sys2Proof.Rounds

open Sys2Proof.Machine Sys2Proof.Safety Sys2Proof.Laws Sys2Proof.Arrivals Sys2Proof.Expiries Sys2Proof.Order

/-- The clock, the operation slots and the issue numbers. -/
def ports (b : Blocks) : Nat × Vector (Option Outstanding) 32 × Vector IssueNo 32 := (b.clock, b.mem.slots, b.mem.issue)

variable {cfg : Image} {b b' : Blocks} {c : CtxId} {i : StreamId}

/-! ## The updates of the blocks -/

@[simp] theorem ports_modStream (f : StreamRec → StreamRec) : ports (b.modStream i f) = ports b := rfl
@[simp] theorem ports_modCtx (f : Context → Context) : ports (b.modCtx c f) = ports b := rfl
@[simp] theorem ports_modTrack (f : List TrackEntry → List TrackEntry) : ports (b.modTrack f) = ports b := rfl
@[simp] theorem ports_modJournal (f : JournalWriter → JournalWriter) : ports (b.modJournal f) = ports b := rfl
@[simp] theorem ports_modHeld (f : HeldQueue → HeldQueue) : ports (b.modHeld f) = ports b := rfl
@[simp] theorem ports_modRecovery (f : RecoveryEngine → RecoveryEngine) : ports (b.modRecovery f) = ports b := rfl
@[simp] theorem ports_modEvents (f : EventUnit → EventUnit) : ports (b.modEvents f) = ports b := rfl

@[simp] theorem ports_mapStreams (f : StreamId → StreamRec → StreamRec) : ports (b.mapStreams f) = ports b := by
  simp [ports]

theorem ports_foldl {α : Type} {f : Blocks → α → Blocks} (h : ∀ b x, ports (f b x) = ports b) (l : List α) (b : Blocks) :
    ports (l.foldl f b) = ports b := by
  induction l generalizing b with
  | nil => rfl
  | cons x l ih => exact (ih (f b x)).trans (h b x)

theorem ports_ite {p : Prop} [Decidable p] {x y z : Blocks} (hx : ports x = ports z) (hy : ports y = ports z) :
    ports (if p then x else y) = ports z := by
  split
  · exact hx
  · exact hy

/-! ## Request Port and Memory Port -/

@[simp] theorem ports_answer (st : UpStatus) (d : Option LineData) : ports (answer i st d b) = ports b := rfl

@[simp] theorem ports_wake (p : StreamId → StreamRec → StallCause → Bool) : ports (wake p b) = ports b := ports_mapStreams _

@[simp] theorem ports_wakeAll : ports (wakeAll b) = ports b := ports_wake _
@[simp] theorem ports_wakeContext : ports (wakeContext cfg c b) = ports b := ports_wake _
@[simp] theorem ports_wakeCapture : ports (wakeCapture b) = ports b := ports_wake _
@[simp] theorem ports_wakeHeldFull : ports (wakeHeldFull b) = ports b := ports_wake _
@[simp] theorem ports_wakeRestoring (l : Addr) : ports (wakeRestoring l b) = ports b := ports_wake _
@[simp] theorem ports_lineFreed (l : Addr) : ports (lineFreed l b) = ports b := (ports_wakeRestoring l).trans (ports_mapStreams _)

@[simp] theorem ports_settleContributors (reason : Option LossReason) (cs : List (StreamId × Nat)) :
    ports (settleContributors reason cs b) = ports b := ports_foldl (fun _ _ => ports_modStream _) cs b

@[simp] theorem ports_answerBarrier : ports (answerBarrier i b) = ports b := rfl

@[simp] theorem ports_raise (f : EventFlag) : ports (raise f b) = ports b := rfl

@[simp] theorem ports_refuseWrite (l : Addr) (st : UpStatus) : ports (refuseWrite i l st b) = ports b := by
  unfold refuseWrite
  split <;> rfl

@[simp] theorem ports_handOver (op : MemOp) (cls : MemClass) (w : Owner) : ports (handOver op cls w b) = ports b := by
  unfold handOver
  split <;> rfl

@[simp] theorem ports_withdraw (p : MemRequest → Bool) : ports (withdraw p b) = ports b := rfl

/-! ## Held Write Queue and Line Tracking Table -/

@[simp] theorem ports_requestReleases : ports (requestReleases b) = ports b :=
  ports_foldl (fun _ _ => ports_handOver _ _ _) _ b

@[simp] theorem ports_discardHeld (p : HeldEntry → Bool) (reason : Option LossReason) :
    ports (discardHeld p reason b) = ports b := by
  unfold discardHeld
  dsimp only
  split
  · rfl
  · rw [ports_wakeHeldFull, ports_withdraw, ports_foldl fun _ _ => ports_settleContributors _ _, ports_modHeld]

@[simp] theorem ports_removeEntries (p : TrackEntry → Bool) : ports (removeEntries p b) = ports b :=
  ports_foldl (fun _ _ => ports_lineFreed _) _ _

@[simp] theorem ports_updateEntries (p : TrackEntry → Bool) (f : TrackEntry → TrackEntry) :
    ports (updateEntries p f b) = ports b := rfl

@[simp] theorem ports_dropRestoring : ports (dropRestoring c b) = ports b :=
  ports_foldl (fun _ _ => ports_wakeRestoring _) _ _

@[simp] theorem ports_leaveRestoring (l : Addr) (st : TrackState) : ports (leaveRestoring c l st b) = ports b :=
  ports_wakeRestoring l

/-! ## Journal Writer -/

@[simp] theorem ports_writeAnchor (copy : AnchorCopy) (f : AnchorFields) (p : AnchorPurpose) :
    ports (writeAnchor cfg copy f p b) = ports b := ports_handOver _ _ _

@[simp] theorem ports_anchorCheck : ports (anchorCheck cfg b) = ports b := by
  unfold anchorCheck startAnchor
  split
  · exact ports_writeAnchor _ _ _
  · rfl

@[simp] theorem ports_evalPause : ports (evalPause cfg b) = ports b := by
  unfold evalPause
  dsimp only
  split
  · rfl
  split
  · simp
  split
  · simp
  · rfl

@[simp] theorem ports_reserve (k : Nat) : ports (reserve cfg k b) = ports b := ports_evalPause

@[simp] theorem ports_releaseSpace (k : Nat) : ports (releaseSpace cfg k b) = ports b := by
  unfold releaseSpace spaceRisen
  split
  · rfl
  · simp

@[simp] theorem ports_placeDemand (d : Demand) : ports (placeDemand d b) = ports b := rfl

@[simp] theorem ports_burstCheck : ports (burstCheck cfg b) = ports b := by
  unfold burstCheck issueBurst
  dsimp only
  split
  · split
    · rfl
    · exact ports_handOver _ _ _
  · rfl

@[simp] theorem ports_stage (l : List StagedSlot) (e : Epoch) : ports (stage cfg l e c b) = ports b := rfl

@[simp] theorem ports_demandsAtStaging (e : TrackEntry) (seq : Count32) : ports (demandsAtStaging e seq b) = ports b := by
  unfold demandsAtStaging
  dsimp only
  split
  · exact (ports_placeDemand _).trans (ports_foldl (fun _ _ => ports_placeDemand _) _ b)
  · exact ports_foldl (fun _ _ => ports_placeDemand _) _ b

@[simp] theorem ports_stageUndo (e : TrackEntry) (d : LineData) : ports (stageUndo cfg e d b) = ports b := by
  simp [stageUndo]

@[simp] theorem ports_stageMarker (k : RecordKind) : ports (stageMarker cfg k c b) = ports b := ports_burstCheck

theorem ports_serveOne (h : serveOne cfg b = some b') : ports b' = ports b := by
  unfold serveOne at h
  dsimp only at h
  split at h
  · cases h
  split at h
  · split at h <;> cases h
    exact ports_stageMarker _
  · split at h
    · split at h <;> cases h
      exact ports_handOver _ _ _
    · cases h

@[simp] theorem ports_serveBuffer (n : Nat) : ports (serveBuffer cfg n b) = ports b := by
  induction n generalizing b with
  | zero => rfl
  | succ n ih =>
    unfold serveBuffer
    split
    · exact ih.trans (ports_serveOne ‹_›)
    · rfl

@[simp] theorem ports_requestMarker (k : RecordKind) : ports (requestMarker k c b) = ports b := by
  unfold requestMarker
  split <;> rfl

/-! ## Epoch Controller -/

@[simp] theorem ports_answerWaiters (st : UpStatus) : ports (answerWaiters c st b) = ports b :=
  ports_foldl (fun _ _ => ports_answer _ _) _ b

@[simp] theorem ports_drainDemands (source : DemandSource) : ports (drainDemands c source b) = ports b := by
  refine ports_foldl (fun b e => ?_) _ b
  split <;> rfl

@[simp] theorem ports_beginCommit : ports (beginCommit cfg c b) = ports b := by
  simp [beginCommit]

@[simp] theorem ports_enterMarking : ports (enterMarking cfg c b) = ports b := by
  simp [enterMarking]

@[simp] theorem ports_markerDurable (e : Epoch) : ports (markerDurable cfg c e b) = ports b := by
  unfold markerDurable
  dsimp only
  split
  · rfl
  split
  · rw [ports_anchorCheck, ports_wakeContext]
    split
    · simp
    · split <;> simp
  · rfl

@[simp] theorem ports_enterFaulted (r : FaultRecord) : ports (enterFaulted cfg c r b) = ports b := by
  unfold enterFaulted breakRollback
  dsimp only
  split <;> simp

@[simp] theorem ports_reportFault (e : Epoch) (kind : FaultKind) (l : Addr) (st : DownStatus) :
    ports (reportFault cfg c e kind l i st b) = ports b := by
  unfold reportFault
  dsimp only
  split
  · simp
  · rfl

@[simp] theorem ports_reportRestoreFault (kind : FaultKind) (l : Addr) (st : DownStatus) :
    ports (reportRestoreFault cfg c kind l st b) = ports b := by
  unfold reportRestoreFault
  dsimp only
  split
  · split
    · simp
    · rfl
  · rfl

theorem ports_journalFaults (st : Option DownStatus) (b : Blocks) (c : CtxId) : ports (journalFaults cfg st b c) = ports b := by
  unfold journalFaults
  dsimp only
  split
  · split
    · rfl
    · simp
  · rfl

@[simp] theorem ports_journalFail (reason : JournalReason) (st : Option DownStatus) :
    ports (journalFail cfg reason st b) = ports b := by
  unfold journalFail
  dsimp only
  rw [ports_wakeAll, ports_raise, ports_foldl (ports_journalFaults st)]
  simp [stopWriting]

/-! ## Rollback -/

@[simp] theorem ports_modRollback (f : Rollback → Rollback) : ports (modRollback c f b) = ports b := rfl

@[simp] theorem ports_dropCaptures : ports (dropCaptures cfg c b) = ports b := by
  simp [dropCaptures]

@[simp] theorem ports_enterRetire : ports (enterRetire c b) = ports b := by
  simp [enterRetire]

@[simp] theorem ports_settleLines : ports (settleLines cfg c b) = ports b := by
  unfold settleLines settleRestore
  dsimp only
  split <;> simp

@[simp] theorem ports_fillSlots (n : Nat) : ports (fillSlots cfg c n b) = ports b := by
  induction n generalizing b with
  | zero => rfl
  | succ n ih =>
    unfold fillSlots
    split
    · exact ih.trans (ports_handOver _ _ _)
    · rfl

@[simp] theorem ports_requestRestoreWrite (l : Addr) (d : LineData) : ports (requestRestoreWrite c l d b) = ports b := by
  unfold requestRestoreWrite
  split
  · rfl
  · exact ports_handOver _ _ _

@[simp] theorem ports_restoreLogged (l : Addr) : ports (restoreLogged c l b) = ports b := by
  unfold restoreLogged
  split
  · split
    · split
      · rfl
      · exact ports_requestRestoreWrite _ _
    · rfl
  · rfl

theorem ports_contextStep (b : Blocks) (c : CtxId) : ports (contextStep cfg b c) = ports b := by
  unfold contextStep
  split
  · split
    · exact ports_enterMarking
    · rfl
  · unfold rollbackStep
    dsimp only
    split <;> split <;> simp
  · rfl

/-! ## Recovery Engine -/

@[simp] theorem ports_endRecovery (o : RecoveryOutcome) (st : JournalState) (reason : Option JournalReason) :
    ports (endRecovery o st reason b) = ports b := by
  simp [endRecovery]

@[simp] theorem ports_recoveryFail (reason : JournalReason) : ports (recoveryFail reason b) = ports b := by
  simp [recoveryFail]

@[simp] theorem ports_recoveryRead (l : Addr) (what : RecoveryRead) (step : RecoveryStep) :
    ports (recoveryRead l what step b) = ports b := ports_handOver _ _ _

@[simp] theorem ports_readHeader : ports (readHeader cfg b) = ports b := ports_recoveryRead _ _ _

@[simp] theorem ports_readData (d : LineData) : ports (readData cfg d b) = ports b := ports_recoveryRead _ _ _

@[simp] theorem ports_finish : ports (finish cfg b) = ports b := by
  unfold finish
  dsimp only
  split <;> simp

@[simp] theorem ports_restoreNext : ports (restoreNext cfg b) = ports b := by
  unfold restoreNext
  dsimp only
  split
  · split <;> simp
  · split <;> simp

@[simp] theorem ports_passRecord (k : RecordKind) : ports (passRecord cfg k b) = ports b := ports_restoreNext

@[simp] theorem ports_restoreHeader (d : LineData) : ports (restoreHeader cfg d b) = ports b := by
  unfold restoreHeader
  dsimp only
  split
  · split
    · split
      · split <;> simp
      · simp
      · simp
    · simp
  · rfl

@[simp] theorem ports_restoreData (d e : LineData) : ports (restoreData cfg d e b) = ports b := by
  unfold restoreData
  split <;> simp

@[simp] theorem ports_scanEnd : ports (scanEnd cfg b) = ports b := by
  unfold scanEnd
  dsimp only
  split <;> simp

@[simp] theorem ports_takeRecord (k : RecordKind) (d : LineData) : ports (takeRecord cfg k d b) = ports b := by
  unfold takeRecord
  dsimp only
  split <;> simp

@[simp] theorem ports_scanHeader (d : LineData) : ports (scanHeader cfg d b) = ports b := by
  unfold scanHeader
  dsimp only
  split
  · split
    · simp
    · split <;> simp
    · split <;> simp
  · simp

@[simp] theorem ports_scanData (d e : LineData) : ports (scanData cfg d e b) = ports b := by
  unfold scanData
  dsimp only
  split
  · split <;> simp
  · simp

@[simp] theorem ports_anchorRead (copy : AnchorCopy) (d : LineData) : ports (anchorRead cfg copy d b) = ports b := by
  unfold anchorRead
  dsimp only
  split
  · unfold judgeAnchors
    dsimp only
    split
    · exact ports_endRecovery _ _ _
    · exact ports_readHeader
  · rfl

@[simp] theorem ports_recoveryReadEnd (what : RecoveryRead) (o : OpEnd) : ports (recoveryReadEnd cfg what o b) = ports b := by
  unfold recoveryReadEnd recoveryOpFailed
  split
  · exact recoveryReadData_elim (motive := fun x => ports x = ports b) rfl (fun _ => ports_anchorRead _ _)
      (ports_scanHeader _) (fun _ => ports_scanData _ _) (ports_restoreHeader _) fun _ => ports_restoreData _ _
  · split <;> simp

@[simp] theorem ports_recoveryWriteEnd (o : OpEnd) : ports (recoveryWriteEnd cfg o b) = ports b := by
  unfold recoveryWriteEnd recoveryWriteDone recoveryOpFailed
  dsimp only
  split
  · exact ports_ite rfl (ports_ite ports_restoreNext rfl)
  · split <;> simp

/-! ## Requests that are handled, and the rest of an event -/

@[simp] theorem ports_setPhase (p : Phase) : ports (setPhase i p b) = ports b := rfl

@[simp] theorem ports_acceptWrite : ports (acceptWrite i b) = ports b := rfl

@[simp] theorem ports_acceptJournaled : ports (acceptJournaled cfg i c b) = ports b := ports_ite rfl rfl

theorem ports_handleRead (l : Addr) : ports (handleRead cfg i l b) = ports b := by
  unfold handleRead
  split
  · rfl
  · rfl
  · exact ports_handOver _ _ _
  · exact ports_ite rfl (ports_handOver _ _ _)

theorem ports_firstTouch (l : Addr) (m : ByteMask) (d : LineData) : ports (firstTouch cfg i c l m d b) = ports b := by
  have hopen : ports (if decide ((b.ctx c).state = .idle) then openEpoch c b else b) = ports b := ports_ite rfl rfl
  have htouch (x : Blocks) : ports (reserve cfg (slotsNeeded (b.ctx c).state) (acceptJournaled cfg i c
      (allocHeld i c l m d .waitLog (insertEntry i c l x)))) = ports x :=
    (ports_reserve _).trans ports_acceptJournaled
  have hopened := (htouch _).trans hopen
  have hwoken := ports_ite (p := (decide ((b.ctx c).state = .idle)) = true) (ports_wakeContext (cfg := cfg) (c := c).trans hopened) hopened
  exact ports_ite ((ports_journalFail _ _).trans hwoken) hwoken

theorem ports_handleWrite (l : Addr) (m : ByteMask) (d : LineData) : ports (handleWrite cfg i l m d b) = ports b := by
  unfold handleWrite
  split
  · rfl
  split
  · exact ports_refuseWrite _ _
  · rfl
  · exact (ports_acceptWrite).trans (ports_handOver _ _ _)
  · rfl
  · rfl
  · exact ports_acceptJournaled
  · exact ports_acceptJournaled
  · exact ports_firstTouch _ _ _

theorem ports_handleCurrent (cfg : Image) (i : StreamId) (b : Blocks) : ports (handleCurrent cfg i b) = ports b := by
  unfold handleCurrent
  split
  · rfl
  split
  · exact ports_handleRead _
  · exact ports_handleWrite _ _ _
  · refine ports_ite ports_answerBarrier (ports_burstCheck.trans (ports_foldl (fun x l => ?_) _ _))
    split <;> rfl
  · unfold handleCommit
    split
    · rfl
    · rfl
    · rfl
    · exact ports_beginCommit

theorem ports_progress (cfg : Image) (b : Blocks) : ports (progress cfg b) = ports b := by
  unfold progress handOnCounts answerBarriers
  dsimp only
  rw [ports_foldl fun _ _ => ports_setPhase _, ports_foldl fun _ _ => ports_answerBarrier, ports_requestReleases,
    ports_serveBuffer, ports_foldl ports_contextStep]

theorem ports_free (f : FreeChoices) : ports { b with free := f } = ports b := rfl

theorem ports_settle (cfg : Image) (n : Nat) (b : Blocks) : ports (settle cfg n b) = ports b := by
  induction n generalizing b with
  | zero => exact ports_progress cfg b
  | succ n ih =>
    unfold settle handleNext
    split
    · exact ports_progress cfg b
    · exact (ih _).trans ((ports_handleCurrent _ _ _).trans ((ports_free _).trans (ports_progress cfg b)))

/-! ## The ends of operations -/

theorem ports_captureEnd (id : Nat) (o : OpEnd) : ports (captureEnd cfg id o b) = ports b := by
  have hfailed (st : DownStatus) (x : Blocks) : ports (captureFailed cfg id st x) = ports x := by
    unfold captureFailed
    split
    · simp
    · rfl
  unfold captureEnd
  dsimp only
  split
  · unfold captureData
    split
    · exact ports_ite (ports_stageUndo _ _) rfl
    · rfl
  · exact hfailed _ _
  · exact hfailed _ _

theorem ports_releaseEnd (l : Addr) (o : OpEnd) : ports (releaseEnd cfg l o b) = ports b := by
  have hfailed (e : HeldEntry) (st : DownStatus) : ports (releaseFailed cfg e st b) = ports b := by
    unfold releaseFailed
    dsimp only
    split <;> simp [removeIssued]
  unfold releaseEnd
  split
  · simp [releasePersisted, copyToOverlays, removeIssued]
  · exact hfailed _ _
  · exact hfailed _ _
  · rfl

theorem ports_detachedEnd (l : Addr) (o : OpEnd) : ports (detachedEnd l o b) = ports b := by
  unfold detachedEnd
  split
  · dsimp only
    split <;> simp [copyToOverlays]
  · rfl

theorem ports_burstEnd (o : OpEnd) : ports (burstEnd cfg o b) = ports b := by
  have hlogged (x : Blocks) (y : StagedSlot) : ports (slotLogged x y) = ports x := by
    unfold slotLogged recordDurable
    split
    · split
      · exact ports_restoreLogged _
      · rfl
    · rfl
  have hmarked (x : Blocks) (y : StagedSlot) : ports (slotMarked cfg x y) = ports x := by
    unfold slotMarked
    split
    · exact ports_markerDurable _
    · rfl
  unfold burstEnd burstPersisted
  dsimp only
  split
  · rfl
  split
  · rw [ports_burstCheck, ports_serveBuffer, ports_foldl hmarked, ports_foldl hlogged]
    rfl
  · exact ports_journalFail _ _
  · exact ports_journalFail _ _

theorem ports_anchorEnd (p : AnchorPurpose) (o : OpEnd) : ports (anchorEnd cfg p o b) = ports b := by
  have hfailed (copy : AnchorCopy) (st : DownStatus) (x : Blocks) : ports (anchorFailed cfg copy st x) = ports x :=
    ports_ite ports_anchorCheck (ports_journalFail _ _)
  have hformat (f : Blocks → Blocks) (x : Blocks) (hf : ports (f x) = ports x) : ports (formatEnd cfg f o x) = ports x := by
    unfold formatEnd
    split
    · rfl
    · split <;> simp [hf]
  have hfinish (f : Blocks → Blocks) (x : Blocks) (hf : ports (f x) = ports x) : ports (finishEnd f o x) = ports x := by
    unfold finishEnd
    split
    · rfl
    · split <;> simp [hf]
  unfold anchorEnd
  dsimp only
  split
  · unfold updateEnd anchorPersisted spaceRisen
    split
    · rfl
    · split
      · simp [anchorIdle]
      · exact hfailed _ _ _
      · exact hfailed _ _ _
  · exact hformat _ _ (ports_ite rfl (ports_writeAnchor _ _ _))
  · exact hformat _ _ (ports_wakeAll.trans rfl)
  · exact hfinish _ _ (ports_ite rfl (ports_writeAnchor _ _ _))
  · exact hfinish _ _ (ports_ite rfl (ports_endRecovery _ _ _))

theorem ports_handBack (cfg : Image) (o : Outstanding) (e : OpEnd) (b : Blocks) : ports (handBack cfg o e b) = ports b := by
  unfold handBack
  split
  · unfold passReadEnd
    split <;> exact ports_ite (ports_ite rfl rfl) (ports_ite rfl rfl)
  · unfold directWriteEnd
    split <;> rfl
  · exact ports_captureEnd _ _
  · exact ports_releaseEnd _ _
  · exact ports_detachedEnd _ _
  · exact ports_burstEnd _
  · exact ports_anchorEnd _ _
  · unfold restoreReadEnd
    split <;> simp
  · unfold restoreWriteEnd restoreWriteFailed lineRestored
    split
    · simp
    · split <;> simp
    · split <;> simp
  · exact ports_recoveryReadEnd _ _
  · exact ports_recoveryWriteEnd _
  · exact ports_burstCheck
  · exact ports_ite (ports_writeAnchor _ _ _) rfl
  · rfl
  · rfl

/-! ## Timeouts (R127) -/

theorem ports_iff : ports b' = ports b ↔ b'.clock = b.clock ∧ b'.mem.slots = b.mem.slots ∧ b'.mem.issue = b.mem.issue := by
  simp only [ports, Prod.mk.injEq]

theorem enterSafe_frame (b : Blocks) : (enterSafe b).clock = b.clock ∧ (enterSafe b).mem = b.mem := by
  unfold enterSafe
  split
  · exact ⟨rfl, rfl⟩
  · exact ⟨rfl, rfl⟩

theorem finishEvent_clock (cfg : Image) (b : Blocks) : (finishEvent cfg b).clock = b.clock := by
  obtain ⟨hclock, _⟩ := ports_iff.1 (ports_settle cfg settleBound b)
  exact (enterSafe_frame _).1.trans ((arbitrate_frame cfg 32 _).clock.trans hclock)

/-- An identifier used up before the rest of an event matches nothing after it. -/
theorem finishEvent_usedUp (cfg : Image) {b : Blocks} {id : OpId} (h : Frames.UsedUp id b.mem) :
    (finishEvent cfg b).mem.matching id = none := by
  obtain ⟨_, hslots, hissue⟩ := ports_iff.1 (ports_settle cfg settleBound b)
  have hgranted : Frames.UsedUp id (arbitrate cfg 32 (settle cfg settleBound b)).mem := by
    refine Frames.arbitrate_usedUp cfg 32 ?_
    unfold Frames.UsedUp
    rw [hslots, hissue]
    exact h
  unfold finishEvent
  rw [(enterSafe_frame _).2]
  exact hgranted.matching

/-- Settles O58. -/
theorem timeoutEndsTheOperation : Obligations.TimeoutEndsTheOperation := by
  intro k s hup
  have hexec : exec (.downstreamTimeout k) s = .next (s.timeout k) := rfl
  refine ⟨fun hfree => ?_, fun o ho => ?_⟩
  · rw [hexec, State.timeout, hfree]
  · have hevent : s.timeout k = s.event fun b => handBack s.mgmt.active o (.failed .timeout)
        (freeSlot k { b with clock := max b.clock o.deadline }) := by
      rw [State.timeout, ho]
      rfl
    rw [hexec, hevent]
    refine ⟨_, rfl, rfl, ?_⟩
    rw [event_up hup]
    have hports := ports_handBack s.mgmt.active o (.failed .timeout)
      (freeSlot k { s.blocks with clock := max s.blocks.clock o.deadline })
    generalize handBack s.mgmt.active o (.failed .timeout)
      (freeSlot k { s.blocks with clock := max s.blocks.clock o.deadline }) = x at hports ⊢
    obtain ⟨hclock, hslots, hissue⟩ := ports_iff.1 hports
    dsimp only [after]
    refine ⟨(finishEvent_clock _ x).trans hclock, finishEvent_usedUp _ ?_⟩
    unfold Frames.UsedUp
    rw [hslots, hissue]
    exact iff_of_true ((RestoreReads.freeSlot_slot _ _ _).trans (if_pos rfl)) rfl

end Sys2Proof.Rounds


/-! SUPPORT. Headers and anchor copies read back what they were built from (11.1, R175). -/

namespace Sys2Proof.Layouts

open Sys2Proof.Machine Sys2Proof.Safety Sys2Proof.Laws

variable {o s n w : Nat} {x : BitVec w} {d : LineData}

theorem placeAt_bit (o : Nat) (x : BitVec w) (d : LineData) (k : Nat) : (placeAt o x d).getLsbD k =
    (d.getLsbD k || (decide (k < 512) && !decide (k < 8 * o) && x.getLsbD (k - 8 * o))) := by
  unfold placeAt
  rw [BitVec.getLsbD_or, BitVec.getLsbD_shiftLeft, BitVec.getLsbD_setWidth]
  by_cases hk : k < 512
  · have hsub : k - 8 * o < 512 := by omega
    simp [hk, hsub]
  · simp [hk]

/-- A field that a value was placed in reads back as the value. -/
theorem field_placed (hzero : d.extractLsb' (8 * o) w = 0) (hfits : 8 * o + w ≤ 512) :
    (placeAt o x d).extractLsb' (8 * o) w = x := by
  refine BitVec.eq_of_getLsbD_eq fun k hk => ?_
  have hnone : d.getLsbD (8 * o + k) = false := by
    have hbit := congrArg (fun y : BitVec w => y.getLsbD k) hzero
    simpa [hk] using hbit
  have hlt : 8 * o + k < 512 := by omega
  rw [BitVec.getLsbD_extractLsb', placeAt_bit, hnone]
  simp [hk, hlt]

/-- A value that is placed leaves the other fields. -/
theorem field_other (h : s + n ≤ 8 * o ∨ 8 * o + w ≤ s) : (placeAt o x d).extractLsb' s n = d.extractLsb' s n := by
  refine BitVec.eq_of_getLsbD_eq fun k hk => ?_
  rw [BitVec.getLsbD_extractLsb', BitVec.getLsbD_extractLsb', placeAt_bit]
  rcases h with h | h
  · have hlt : s + k < 8 * o := by omega
    simp [hlt]
  · have hge : x.getLsbD (s + k - 8 * o) = false := BitVec.getLsbD_of_ge x _ (by omega)
    simp [hge]

theorem field_zero (s n : Nat) : (0 : LineData).extractLsb' s n = 0 := by
  refine BitVec.eq_of_getLsbD_eq fun k _ => ?_
  simp

/-- A value placed behind the bytes that are read leaves them. -/
theorem lineBytes_placed (h : n ≤ o) : lineBytes (placeAt o x d) n = lineBytes d n := by
  refine List.map_congr_left fun k hk => ?_
  have hlt := List.mem_range.1 hk
  exact field_other (.inl (by omega))

/-! ## Headers -/

section Header

variable (fc : Count32) (k : RecordKind) (c : CtxId) (seq : Count32) (e : Epoch) (l : Addr) (data : Option LineData)

/-- The fields of a header before its check is placed. -/
def headerFields : LineData :=
  placeAt 0 k.code (placeAt 1 (BitVec.ofNat 8 c.val) (placeAt 4 seq (placeAt 8 e (placeAt 16 l 0))))

theorem buildHeader_eq : buildHeader fc k c seq e l data =
    placeAt 60 (headerCheck fc (headerFields k c seq e l) data) (headerFields k c seq e l) := rfl

theorem headerFields_code : lineByte (headerFields k c seq e l) 0 = k.code := by
  refine field_placed (o := 0) ?_ (by omega)
  rw [field_other (.inl (by omega)), field_other (.inl (by omega)), field_other (.inl (by omega)),
    field_other (.inl (by omega)), field_zero]

theorem headerFields_ctx : lineByte (headerFields k c seq e l) 1 = BitVec.ofNat 8 c.val := by
  refine (field_other (.inr (by omega))).trans (field_placed (o := 1) ?_ (by omega))
  rw [field_other (.inl (by omega)), field_other (.inl (by omega)), field_other (.inl (by omega)), field_zero]

theorem headerFields_seq : headerSeq (headerFields k c seq e l) = seq := by
  refine (field_other (.inr (by omega))).trans ((field_other (.inr (by omega))).trans (field_placed (o := 4) ?_ (by omega)))
  rw [field_other (.inl (by omega)), field_other (.inl (by omega)), field_zero]

theorem headerFields_epoch : headerEpoch (headerFields k c seq e l) = e := by
  refine (field_other (.inr (by omega))).trans ((field_other (.inr (by omega))).trans ((field_other (.inr (by omega))).trans
    (field_placed (o := 8) ?_ (by omega))))
  rw [field_other (.inl (by omega)), field_zero]

theorem headerFields_line : headerLine (headerFields k c seq e l) = l := by
  refine (field_other (.inr (by omega))).trans ((field_other (.inr (by omega))).trans ((field_other (.inr (by omega))).trans
    ((field_other (.inr (by omega))).trans (field_placed (o := 16) (field_zero _ _) (by omega)))))

theorem headerFields_check : storedCheck (headerFields k c seq e l) = 0 := by
  refine (field_other (.inr (by omega))).trans ((field_other (.inr (by omega))).trans ((field_other (.inr (by omega))).trans
    ((field_other (.inr (by omega))).trans ((field_other (.inr (by omega))).trans (field_zero _ _)))))

theorem buildHeader_reads : headerKind (buildHeader fc k c seq e l data) = some k ∧ headerCtx (buildHeader fc k c seq e l data) = c
    ∧ headerSeq (buildHeader fc k c seq e l data) = seq ∧ headerEpoch (buildHeader fc k c seq e l data) = e
    ∧ headerLine (buildHeader fc k c seq e l data) = l
    ∧ storedCheck (buildHeader fc k c seq e l data) = headerCheck fc (buildHeader fc k c seq e l data) data := by
  rw [buildHeader_eq]
  have hctx : lineByte (placeAt 60 (headerCheck fc (headerFields k c seq e l) data) (headerFields k c seq e l)) 1 =
      BitVec.ofNat 8 c.val := (field_other (.inl (by omega))).trans (headerFields_ctx k c seq e l)
  have hcode : lineByte (placeAt 60 (headerCheck fc (headerFields k c seq e l) data) (headerFields k c seq e l)) 0 = k.code :=
    (field_other (.inl (by omega))).trans (headerFields_code k c seq e l)
  have hnum : (BitVec.ofNat 8 c.val).toNat = c.val := by
    rw [BitVec.toNat_ofNat]
    omega
  refine ⟨?_, ?_, (field_other (.inl (by omega))).trans (headerFields_seq k c seq e l),
    (field_other (.inl (by omega))).trans (headerFields_epoch k c seq e l),
    (field_other (.inl (by omega))).trans (headerFields_line k c seq e l), ?_⟩
  · unfold headerKind
    rw [hctx, hcode, hnum, if_pos c.isLt]
    cases k <;> simp [RecordKind.code]
  · unfold headerCtx
    rw [hctx, hnum]
    exact Fin.ext (Nat.mod_eq_of_lt c.isLt)
  · refine (field_placed (o := 60) (headerFields_check k c seq e l) (by omega)).trans ?_
    unfold headerCheck
    rw [lineBytes_placed le_rfl]

end Header

/-! ## Anchor copies -/

/-- The fields of an anchor copy before its check is placed. -/
def anchorFields (f : AnchorFields) : LineData :=
  placeAt 0 f.generation (placeAt 4 f.headIdx (placeAt 8 f.headSeq (placeAt 12 f.nextEpoch
    (placeAt 20 f.ringSize (placeAt 24 f.formatCount 0)))))

theorem buildAnchor_eq (f : AnchorFields) :
    buildAnchor f = placeAt 60 (crc32 (lineBytes (anchorFields f) 60)) (anchorFields f) := rfl

/-- The fields of a copy, each by its place. -/
theorem anchorFields_read (f : AnchorFields) : readAnchor (anchorFields f) = f := by
  have hgen : (anchorFields f).extractLsb' 0 32 = f.generation := by
    refine field_placed (o := 0) ?_ (by omega)
    rw [field_other (.inl (by omega)), field_other (.inl (by omega)), field_other (.inl (by omega)),
      field_other (.inl (by omega)), field_other (.inl (by omega)), field_zero]
  have hidx : (anchorFields f).extractLsb' 32 32 = f.headIdx := by
    refine (field_other (.inr (by omega))).trans (field_placed (o := 4) ?_ (by omega))
    rw [field_other (.inl (by omega)), field_other (.inl (by omega)), field_other (.inl (by omega)),
      field_other (.inl (by omega)), field_zero]
  have hseq : (anchorFields f).extractLsb' 64 32 = f.headSeq := by
    refine (field_other (.inr (by omega))).trans ((field_other (.inr (by omega))).trans (field_placed (o := 8) ?_ (by omega)))
    rw [field_other (.inl (by omega)), field_other (.inl (by omega)), field_other (.inl (by omega)), field_zero]
  have hepoch : (anchorFields f).extractLsb' 96 48 = f.nextEpoch := by
    refine (field_other (.inr (by omega))).trans ((field_other (.inr (by omega))).trans ((field_other (.inr (by omega))).trans
      (field_placed (o := 12) ?_ (by omega))))
    rw [field_other (.inl (by omega)), field_other (.inl (by omega)), field_zero]
  have hring : (anchorFields f).extractLsb' 160 32 = f.ringSize := by
    refine (field_other (.inr (by omega))).trans ((field_other (.inr (by omega))).trans ((field_other (.inr (by omega))).trans
      ((field_other (.inr (by omega))).trans (field_placed (o := 20) ?_ (by omega)))))
    rw [field_other (.inl (by omega)), field_zero]
  have hcount : (anchorFields f).extractLsb' 192 32 = f.formatCount :=
    (field_other (.inr (by omega))).trans ((field_other (.inr (by omega))).trans ((field_other (.inr (by omega))).trans
      ((field_other (.inr (by omega))).trans ((field_other (.inr (by omega))).trans
        (field_placed (o := 24) (field_zero _ _) (by omega))))))
  unfold readAnchor
  rw [hgen, hidx, hseq, hepoch, hring, hcount]

theorem anchorFields_check (f : AnchorFields) : storedCheck (anchorFields f) = 0 :=
  (field_other (.inr (by omega))).trans ((field_other (.inr (by omega))).trans ((field_other (.inr (by omega))).trans
    ((field_other (.inr (by omega))).trans ((field_other (.inr (by omega))).trans ((field_other (.inr (by omega))).trans
      (field_zero _ _))))))

theorem buildAnchor_read (f : AnchorFields) : readAnchor (buildAnchor f) = f := by
  refine Eq.trans ?_ (anchorFields_read f)
  rw [buildAnchor_eq]
  unfold readAnchor
  rw [field_other (.inl (by omega)), field_other (.inl (by omega)), field_other (.inl (by omega)),
    field_other (.inl (by omega)), field_other (.inl (by omega)), field_other (.inl (by omega))]

theorem buildAnchor_valid {f : AnchorFields} (hsize : legalRingSize f.ringSize.toNat = true)
    (hhead : f.headIdx.toNat < f.ringSize.toNat) : anchorValid (buildAnchor f) = true := by
  have hcheck : storedCheck (buildAnchor f) = crc32 (lineBytes (buildAnchor f) 60) := by
    rw [buildAnchor_eq, lineBytes_placed le_rfl]
    exact field_placed (o := 60) (anchorFields_check f) (by omega)
  unfold anchorValid
  rw [buildAnchor_read, hcheck]
  simp [hsize, hhead]

/-- Settles O59. -/
theorem layoutsReadBack : Obligations.LayoutsReadBack :=
  ⟨fun fc k c seq e l data => buildHeader_reads fc k c seq e l data,
    fun f => ⟨buildAnchor_read f, buildAnchor_valid⟩, fun payload place bit => by
      rw [bits_absent, Nat.testBit_two_pow_sub_one]⟩

end Sys2Proof.Layouts


/-! SUPPORT. What goes on in an event while the ring is not written: the journal is not READY, or the notice has been
taken. Contexts, entries and records of requests that do not go on stay as they are. -/

namespace Sys2Proof.Rounds

open Sys2Proof.Machine Sys2Proof.Safety Sys2Proof.Laws Sys2Proof.Arrivals Sys2Proof.Expiries Sys2Proof.Order

variable {cfg : Image} {a b b' : Blocks} {c k : CtxId} {i : StreamId}

/-- A context that no event moves on: IDLE or FAULTED. -/
def settledCtx (x : Context) : Prop := x.state = .idle ∨ x.state = .faulted

/-- From a to b the ring has not been written, nothing has been accepted, and no record has ended. -/
structure Closed (a b : Blocks) : Prop where
  ports : ports b = ports a
  recovery : b.recovery = a.recovery
  journal : ∃ q r d p, b.journal = { a.journal with captureQueue := q, reserved := r, demands := d, pause := p }
    ∧ (a.journal.state ≠ .ready → p = a.journal.pause)
  reserved : b.journal.reserved ≤ a.journal.reserved
  demands : ∀ x ∈ b.journal.demands, x ∈ a.journal.demands ∨ ∃ y ∈ a.journal.staging, y.pos.seq = x.seq
  pending : ∀ f, a.events.isPending f = true → b.events.isPending f = true
  counter : b.epochs.counter = a.epochs.counter
  marks : ∀ c, (b.ctx c).idleTimer = (a.ctx c).idleTimer ∧ (b.ctx c).waiters = (a.ctx c).waiters
    ∧ (b.ctx c).epoch = (a.ctx c).epoch ∧ (b.ctx c).mgmtWaiter = (a.ctx c).mgmtWaiter
  ctx : ∀ c, settledCtx (a.ctx c) → b.ctx c = a.ctx c
  track : (∀ c, settledCtx (a.ctx c)) → b.track = a.track
  entries : b.held.entries = a.held.entries
  detached : b.held.detached = a.held.detached
  waiting : ∀ r ∈ a.mem.waiting, r ∈ b.mem.waiting
  noticed : a.journal.notice = true → b.mem.waiting = a.mem.waiting
  streams : ∀ i, idleStream (a.stream i) = true → b.stream i = a.stream i

theorem Closed.refl (a : Blocks) : Closed a a where
  ports := rfl
  recovery := rfl
  journal := ⟨_, _, _, _, rfl, fun _ => rfl⟩
  reserved := le_rfl
  demands _ hx := .inl hx
  pending _ h := h
  counter := rfl
  marks _ := ⟨rfl, rfl, rfl, rfl⟩
  ctx _ _ := rfl
  track _ := rfl
  entries := rfl
  detached := rfl
  waiting _ h := h
  noticed _ := rfl
  streams _ _ := rfl

theorem Closed.state (h : Closed a b) : b.journal.state = a.journal.state := by
  obtain ⟨q, r, d, p, hj, _⟩ := h.journal
  rw [hj]

theorem Closed.notice (h : Closed a b) : b.journal.notice = a.journal.notice := by
  obtain ⟨q, r, d, p, hj, _⟩ := h.journal
  rw [hj]

theorem Closed.staging (h : Closed a b) : b.journal.staging = a.journal.staging := by
  obtain ⟨q, r, d, p, hj, _⟩ := h.journal
  rw [hj]

theorem Closed.writing (h : Closed a b) : b.journal.writing = a.journal.writing := by
  unfold JournalWriter.writing
  rw [h.state, h.notice]

/-! ## The updates of the blocks -/

/-- A change of the stream records that leaves the idle ones. -/
theorem Closed.byRecords (h : Closed a b) {r : RequestPort}
    (hr : ∀ i, idleStream (a.stream i) = true → r.streams[i] = b.stream i) : Closed a { b with req := r } :=
  { h with streams := fun i hi => (hr i hi).trans (h.streams i hi) }

theorem Closed.modStream (h : Closed a b) (hi : idleStream (a.stream i) = false) (f : StreamRec → StreamRec) :
    Closed a (b.modStream i f) := by
  refine { h with streams := fun k hk => ?_ }
  rw [Blocks.modStream_stream, if_neg]
  · exact h.streams k hk
  · rintro rfl
    rw [hi] at hk
    cases hk

theorem Closed.mapStreams (h : Closed a b) {f : StreamId → StreamRec → StreamRec}
    (hf : ∀ i, idleStream (b.stream i) = true → f i (b.stream i) = b.stream i) : Closed a (b.mapStreams f) := by
  refine h.byRecords (r := (b.mapStreams f).req) fun i hi => ?_
  have hidle : idleStream (b.stream i) = true := by
    rw [h.streams i hi]
    exact hi
  exact (Blocks.mapStreams_stream b f i).trans (hf i hidle)

theorem isPending_congr {e e' : EventUnit} (h : e'.pending = e.pending) (f : EventFlag) : e'.isPending f = e.isPending f := by
  unfold EventUnit.isPending
  rw [h]

theorem isPending_raise (e : EventUnit) (f g : EventFlag) (h : e.isPending f = true) : (e.raise g).isPending f = true := by
  unfold EventUnit.isPending EventUnit.raise at *
  rw [BitVec.getLsbD_or, h, Bool.true_or]

theorem isPending_refused (e : EventUnit) (x : Option LastRefusal) (f : EventFlag) (h : e.isPending f = true) :
    ({ e.raise .writeRefused with lastRefusal := x } : EventUnit).isPending f = true :=
  (isPending_congr (e := e.raise .writeRefused) rfl f).trans (isPending_raise e f _ h)

theorem Closed.modEvents (h : Closed a b) {f : EventUnit → EventUnit}
    (hf : ∀ g, b.events.isPending g = true → (f b.events).isPending g = true) : Closed a (b.modEvents f) :=
  { h with pending := fun g hg => hf g (h.pending g hg) }

theorem Closed.raise (h : Closed a b) (g : EventFlag) : Closed a (raise g b) :=
  h.modEvents fun f hf => isPending_raise _ f g hf

theorem Closed.foldl {α : Type} {f : Blocks → α → Blocks} {l : List α} (hf : ∀ x ∈ l, ∀ b, Closed a b → Closed a (f b x))
    (h : Closed a b) : Closed a (l.foldl f b) := by
  induction l generalizing b with
  | nil => exact h
  | cons x l ih => exact ih (fun y hy => hf y (List.mem_cons_of_mem _ hy)) (hf x List.mem_cons_self b h)

theorem Closed.ite {p : Prop} [Decidable p] (hb : Closed a b) (hc : Closed a b') : Closed a (if p then b else b') := by
  split
  · exact hb
  · exact hc

theorem Closed.free (h : Closed a b) (f : FreeChoices) : Closed a { b with free := f } := { h with }

/-! ## Request Port and Memory Port -/

theorem Closed.answer (h : Closed a b) (hi : idleStream (a.stream i) = false) (st : UpStatus) (d : Option LineData) :
    Closed a (answer i st d b) := h.modStream hi _

theorem Closed.wake (h : Closed a b) (p : StreamId → StreamRec → StallCause → Bool) : Closed a (wake p b) := by
  refine h.mapStreams fun i hi => ?_
  obtain ⟨_, hphase, _⟩ := (idleStream_iff _).1 hi
  rw [hphase]

theorem Closed.wakeRestoring (h : Closed a b) (l : Addr) : Closed a (wakeRestoring l b) := h.wake _

theorem Closed.lineFreed (h : Closed a b) (l : Addr) : Closed a (lineFreed l b) := by
  refine Closed.wakeRestoring (h.mapStreams fun i hi => ?_) l
  obtain ⟨_, _, hconflict, _⟩ := (idleStream_iff _).1 hi
  rw [hconflict]

theorem Closed.reportRefusal (h : Closed a b) (l : Addr) (r : RefusalReason) : Closed a (reportRefusal i l r b) := by
  unfold Machine.reportRefusal
  exact h.modEvents fun f hf => isPending_refused _ _ f hf

theorem Closed.refuseWrite (h : Closed a b) (hi : idleStream (a.stream i) = false) (l : Addr) (st : UpStatus) :
    Closed a (refuseWrite i l st b) := by
  unfold Machine.refuseWrite
  split
  · exact (h.answer hi _ _).reportRefusal _ _
  · exact (h.answer hi _ _).reportRefusal _ _
  · exact (h.answer hi _ _).reportRefusal _ _
  · exact h.answer hi _ _

theorem Closed.handOver (h : Closed a b) (op : MemOp) (cls : MemClass) (w : Owner) : Closed a (handOver op cls w b) := by
  unfold Machine.handOver
  split
  · exact h
  · rename_i hn
    refine { h with
      waiting := fun r hr => List.mem_append_left _ (h.waiting r hr)
      noticed := fun hn' => absurd (h.notice.trans hn') hn }

theorem Closed.answerBarrier (h : Closed a b) (hi : idleStream (a.stream i) = false) : Closed a (answerBarrier i b) := by
  have hanswer : Closed a ((Machine.answer i (barrierStatus (b.stream i).loss) none b).modStream i fun r => { r with loss := none }) :=
    (h.answer hi _ none).modStream hi _
  refine { hanswer with
    journal := ?_
    demands := fun x hx => hanswer.demands x (List.mem_filter.1 hx).1 }
  obtain ⟨q, r, d, p, hj, hp⟩ := hanswer.journal
  refine ⟨q, r, d.filter fun d => decide (d.source ≠ .barrier i), p, ?_, hp⟩
  unfold Machine.answerBarrier
  rw [Blocks.modJournal_journal, hj]

/-! ## Tracking and demands -/

/-- A change of the entries while some context is neither IDLE nor FAULTED. -/
theorem Closed.modTrack (h : Closed a b) (hc : ¬settledCtx (a.ctx c)) (f : List TrackEntry → List TrackEntry) :
    Closed a (b.modTrack f) := { h with track := fun hall => absurd (hall c) hc }

theorem Closed.removeEntries (h : Closed a b) (hc : ¬settledCtx (a.ctx c)) (p : TrackEntry → Bool) :
    Closed a (removeEntries p b) := (h.modTrack hc _).foldl fun e _ _ h => h.lineFreed e.line

theorem Closed.placeDemand (h : Closed a b) (d : Demand) : Closed a (placeDemand d b) := by
  obtain ⟨q, r, ds, p, hj, hp⟩ := h.journal
  have hkeep (hd : (Machine.placeDemand d b) = b) : Closed a (Machine.placeDemand d b) := by
    rw [hd]
    exact h
  by_cases hmem : d ∈ b.journal.demands
  · refine hkeep ?_
    unfold Machine.placeDemand Blocks.modJournal
    simp [hmem]
  · by_cases hs : (b.journal.staging.any fun x => decide (x.pos.seq = d.seq)) = true
    · have heq : Machine.placeDemand d b = b.modJournal fun j => { j with demands := j.demands ++ [d] } := by
        unfold Machine.placeDemand Blocks.modJournal
        dsimp only
        rw [if_neg hmem, if_pos hs]
      rw [heq]
      refine { h with
        journal := ⟨q, r, ds ++ [d], p, by rw [Blocks.modJournal_journal, hj], hp⟩
        demands := fun x hx => ?_ }
      rcases List.mem_append.1 hx with hx | hx
      · exact h.demands x hx
      · rw [List.mem_singleton.1 hx]
        rw [h.staging] at hs
        simpa using Or.inr (List.any_eq_true.1 hs)
    · refine hkeep ?_
      unfold Machine.placeDemand Blocks.modJournal
      dsimp only
      rw [if_neg hmem, if_neg hs]

theorem burstCheck_closed (h : b.journal.writing = false) : burstCheck cfg b = b := by
  refine burstCheck_notDue ?_
  simp only [JournalWriter.writing, Bool.and_eq_false_iff, Bool.not_eq_false', decide_eq_false_iff_not] at h
  rcases h with h | h
  · simp [burstDue, h]
  · simp [burstDue, h]

theorem requestMarker_closed (h : b.journal.writing = false) (r : RecordKind) : requestMarker r c b = b :=
  if_neg (by simp [h])

end Sys2Proof.Rounds


/-! SUPPORT. The rest of an event while the ring is not written, part by part. -/

namespace Sys2Proof.Rounds

open Sys2Proof.Machine Sys2Proof.Safety Sys2Proof.Laws Sys2Proof.Arrivals Sys2Proof.Expiries Sys2Proof.Order

variable {cfg : Image} {a b b' : Blocks} {c k : CtxId} {i : StreamId}

/-! ## Journal and contexts -/

theorem Closed.modJournal (h : Closed a b) {f : JournalWriter → JournalWriter}
    (hf : ∃ q r p, f b.journal = { b.journal with captureQueue := q, reserved := r, pause := p } ∧ r ≤ b.journal.reserved
      ∧ (a.journal.state ≠ .ready → p = b.journal.pause)) : Closed a (b.modJournal f) := by
  obtain ⟨q, r, d, p, hj, hp⟩ := h.journal
  obtain ⟨q', r', p', hf, hr, hp'⟩ := hf
  refine { h with
    journal := ⟨q', r', d, p', ?_, fun hs => ?_⟩
    reserved := ?_
    demands := ?_ }
  · rw [Blocks.modJournal_journal, hf, hj]
  · rw [hp' hs, hj, ← hp hs]
  · rw [Blocks.modJournal_journal, hf]
    exact hr.trans h.reserved
  · rw [Blocks.modJournal_journal, hf]
    exact h.demands

theorem Closed.modCtx (h : Closed a b) (hc : ¬settledCtx (a.ctx c)) {f : Context → Context}
    (hf : ∀ x, (f x).idleTimer = x.idleTimer ∧ (f x).waiters = x.waiters ∧ (f x).epoch = x.epoch ∧ (f x).mgmtWaiter = x.mgmtWaiter) :
    Closed a (b.modCtx c f) := by
  refine { h with marks := fun k => ?_, ctx := fun k hk => ?_ }
  · rw [Blocks.modCtx_ctx]
    split
    · rename_i hkc
      subst hkc
      obtain ⟨htimer, hwaiters, hepoch, hmgmt⟩ := hf (b.ctx k)
      obtain ⟨htimer', hwaiters', hepoch', hmgmt'⟩ := h.marks k
      exact ⟨htimer.trans htimer', hwaiters.trans hwaiters', hepoch.trans hepoch', hmgmt.trans hmgmt'⟩
    · exact h.marks k
  · rw [Blocks.modCtx_ctx, if_neg]
    · exact h.ctx k hk
    · rintro rfl
      exact hc hk

theorem Closed.live (h : Closed a b) (hc : ¬settledCtx (b.ctx c)) : ¬settledCtx (a.ctx c) := fun hs => by
  rw [h.ctx c hs] at hc
  exact hc hs

theorem Closed.modRollback (h : Closed a b) (hc : ¬settledCtx (a.ctx c)) (f : Rollback → Rollback) :
    Closed a (modRollback c f b) := h.modCtx hc fun _ => ⟨rfl, rfl, rfl, rfl⟩

section Shut

variable (hw : a.journal.writing = false)
include hw

theorem Closed.shut (h : Closed a b) : b.journal.writing = false := h.writing.trans hw

theorem anchorCheck_closed : anchorCheck cfg a = a := by
  have hdue : anchorDue cfg a.journal = false := by
    simp only [JournalWriter.writing, Bool.and_eq_false_iff, decide_eq_false_iff_not, Bool.not_eq_false'] at hw
    rcases hw with hw | hw
    · simp [anchorDue, hw]
    · simp [anchorDue, hw]
  unfold anchorCheck
  rw [hdue]
  rfl

theorem Closed.evalPause (h : Closed a b) : Closed a (evalPause cfg b) := by
  unfold Machine.evalPause
  dsimp only
  split
  · exact h
  · rename_i hready
    have hpause (p : Bool) : Closed a (b.modJournal fun j => { j with pause := p }) :=
      h.modJournal ⟨_, _, _, rfl, le_rfl, fun hs => absurd (h.state.trans_ne hs) hready⟩
    split
    · rw [anchorCheck_closed ((hpause true).raise _ |>.shut hw)]
      exact (hpause true).raise _
    split
    · exact ((hpause false).raise _).wake _
    · exact h

theorem Closed.releaseSpace (h : Closed a b) (n : Nat) : Closed a (releaseSpace cfg n b) := by
  unfold Machine.releaseSpace
  split
  · exact h
  · refine Closed.evalPause hw (Closed.wake ?_ _)
    exact h.modJournal ⟨_, _, _, rfl, Nat.sub_le _ _, fun _ => rfl⟩

theorem Closed.dropCaptures (h : Closed a b) (hc : ¬settledCtx (a.ctx c)) : Closed a (dropCaptures cfg c b) := by
  unfold Machine.dropCaptures
  dsimp only
  exact Closed.releaseSpace hw ((h.removeEntries hc _).modJournal ⟨_, _, _, rfl, le_rfl, fun _ => rfl⟩) _

omit hw in
theorem Closed.drainDemands (h : Closed a b) (source : DemandSource) : Closed a (drainDemands c source b) := by
  unfold Machine.drainDemands
  refine h.foldl fun e _ x hx => ?_
  split
  · exact hx.placeDemand _
  · exact hx

theorem Closed.enterRetire (h : Closed a b) (hc : ¬settledCtx (a.ctx c)) : Closed a (enterRetire c b) := by
  unfold Machine.enterRetire
  rw [requestMarker_closed ((h.modRollback hc _).shut hw)]
  exact h.modRollback hc _

theorem Closed.settleLines (h : Closed a b) (hc : ¬settledCtx (a.ctx c)) : Closed a (settleLines cfg c b) := by
  have hdrop := h.dropCaptures (cfg := cfg) hw hc
  unfold Machine.settleLines
  dsimp only
  split
  · have hrestore : Closed a (Machine.drainDemands c (.rollback c) (Machine.modRollback c
        (fun r => { r with phase := .restore, slots := settledSlots (Machine.dropCaptures cfg c b) c })
        (updateEntries (fun e => decide (e.ctx = c) && decide (e.state = .logged))
          (fun e => { e with state := .restoring }) (Machine.dropCaptures cfg c b)))) :=
      ((hdrop.modTrack hc _).modRollback hc _).drainDemands _
    unfold settleRestore
    dsimp only
    rw [burstCheck_closed (hrestore.shut hw)]
    exact hrestore
  · exact hdrop.enterRetire hw hc

omit hw in
theorem Closed.fillSlots (h : Closed a b) (hc : ¬settledCtx (a.ctx c)) (n : Nat) : Closed a (fillSlots cfg c n b) := by
  induction n generalizing b with
  | zero => exact h
  | succ n ih =>
    unfold Machine.fillSlots
    split
    · exact ih ((h.modRollback hc _).handOver _ _ _)
    · exact h

theorem Closed.contextStep (h : Closed a b) (c : CtxId) : Closed a (contextStep cfg b c) := by
  unfold Machine.contextStep
  split
  · rename_i hstate
    have hc : ¬settledCtx (a.ctx c) := h.live (by simp [settledCtx, hstate])
    split
    · have hmarking : Closed a (Machine.wakeContext cfg c (b.modCtx c fun x => { x with state := .marking })) :=
        (h.modCtx hc (f := fun x => { x with state := .marking }) fun _ => ⟨rfl, rfl, rfl, rfl⟩).wake _
      unfold Machine.enterMarking
      rw [requestMarker_closed (hmarking.shut hw)]
      exact hmarking
    · exact h
  · rename_i hstate
    have hc : ¬settledCtx (a.ctx c) := h.live (by simp [settledCtx, hstate])
    have hfill : Closed a (Machine.fillSlots cfg c Config.restoreSlots
        (if quiesceDue b c then Machine.settleLines cfg c b else b)) :=
      (Closed.ite (h.settleLines hw hc) h).fillSlots hc _
    exact Closed.ite (hfill.enterRetire hw hc) hfill
  · exact h

/-! ## The rest of an event -/

omit hw in
theorem Closed.requestReleases (h : Closed a b) : Closed a (requestReleases b) :=
  h.foldl fun _ _ _ h => h.handOver _ _ _

omit hw in
theorem Closed.answerBarriers (h : Closed a b) : Closed a (answerBarriers b) := by
  refine h.foldl fun i hi _ hx => hx.answerBarrier ?_
  have hdue := (List.mem_filter.1 hi).2
  by_contra hidle
  rw [Bool.not_eq_false] at hidle
  have hphase := phase_of_idleStream hidle
  rw [← h.streams i hidle] at hphase
  simp [barrierDue, hphase] at hdue

omit hw in
theorem Closed.handOnCounts (h : Closed a b) : Closed a (handOnCounts b) := by
  refine h.foldl fun i hi _ hx => hx.modStream ?_ _
  have hdue := (List.mem_filter.1 hi).2
  by_contra hidle
  rw [Bool.not_eq_false] at hidle
  have hphase := phase_of_idleStream hidle
  rw [← h.streams i hidle] at hphase
  simp [countDue, hphase] at hdue

theorem serveBuffer_closed (n : Nat) : serveBuffer cfg n a = a :=
  serveBuffer_none (serveOne_none_iff.2 (.inl hw)) n

theorem Closed.progress (h : Closed a b) : Closed a (progress cfg b) := by
  have hctxs : Closed a (allCtxs.foldl (Machine.contextStep cfg) b) := h.foldl fun c _ _ h => h.contextStep hw c
  unfold Machine.progress
  dsimp only
  rw [serveBuffer_closed (hctxs.shut hw)]
  exact hctxs.requestReleases.answerBarriers.handOnCounts

end Shut

/-! ## Requests that are handled while the journal is not READY -/

section NotReady

variable (hs : a.journal.state ≠ .ready)
include hs

theorem writing_of_notReady : a.journal.writing = false := by
  simp [JournalWriter.writing, hs]

/-- While the journal is not READY a WRITE is refused, stalls, or goes to memory. -/
theorem classifyWrite_notReady (i : StreamId) (line : Addr) (m : ByteMask) : (∃ st, classifyWrite cfg a i line m = .refused st)
    ∨ (∃ cause, classifyWrite cfg a i line m = .stalled cause) ∨ classifyWrite cfg a i line m = .direct := by
  have hjournaled : (∃ st, classifyJournaled cfg a i line = .refused st) ∨ ∃ cause, classifyJournaled cfg a i line = .stalled cause := by
    unfold classifyJournaled
    split
    · exact .inl ⟨_, rfl⟩
    · split
      · exact .inr ⟨_, rfl⟩
      · exact .inr ⟨_, rfl⟩
      · exact .inl ⟨_, rfl⟩
      · exact .inl ⟨_, rfl⟩
      · exact .inl ⟨_, rfl⟩
      · exact absurd ‹_› hs
  unfold classifyWrite
  split
  · exact .inl ⟨_, rfl⟩
  split
  · exact .inl ⟨_, rfl⟩
  · exact .inl ⟨_, rfl⟩
  split
  · exact .inl ⟨_, rfl⟩
  split
  · exact .inl ⟨_, rfl⟩
  split
  · exact .inr (.inr rfl)
  · exact hjournaled.imp_right .inl

theorem classifyCommit_notReady (i : StreamId) : (∃ st, classifyCommit cfg a i = .answered st)
    ∨ ∃ cause, classifyCommit cfg a i = .stalled cause := by
  unfold classifyCommit
  split
  · exact .inl ⟨_, rfl⟩
  · split
    · exact .inr ⟨_, rfl⟩
    · exact .inr ⟨_, rfl⟩
    · exact .inl ⟨_, rfl⟩
    · exact .inl ⟨_, rfl⟩
    · exact .inl ⟨_, rfl⟩
    · exact absurd ‹_› hs

theorem Closed.handleWrite (h : Closed a b) (hi : idleStream (a.stream i) = false) (l : Addr) (m : ByteMask) (d : LineData) :
    Closed a (handleWrite cfg i l m d b) := by
  unfold Machine.handleWrite
  split
  · exact h.modStream hi _
  · rcases classifyWrite_notReady (cfg := cfg) (a := b) (by rw [h.state]; exact hs) i l m with ⟨st, hclass⟩ | ⟨cause, hclass⟩ | hclass
    · rw [hclass]
      exact h.refuseWrite hi _ _
    · rw [hclass]
      exact h.modStream hi _
    · rw [hclass]
      show Closed a (directWrite i l m d b)
      unfold directWrite acceptWrite
      exact ((h.handOver _ _ _).answer hi _ _).modStream hi _

theorem Closed.handleBarrier (h : Closed a b) (hi : idleStream (a.stream i) = false) : Closed a (handleBarrier cfg i b) := by
  unfold Machine.handleBarrier
  split
  · exact h.answerBarrier hi
  · have hdemands : Closed a (barrierDemands i (b.held.waitLinesOf i) (setPhase i (.barrier (b.held.waitLinesOf i)) b)) := by
      refine (h.modStream hi _).foldl fun l _ x hx => ?_
      split
      · exact hx.placeDemand _
      · exact hx
    dsimp only
    rw [burstCheck_closed (hdemands.shut (writing_of_notReady hs))]
    exact hdemands

theorem Closed.handleCommit (h : Closed a b) (hi : idleStream (a.stream i) = false) : Closed a (handleCommit cfg i b) := by
  unfold Machine.handleCommit
  rcases classifyCommit_notReady (cfg := cfg) (a := b) (by rw [h.state]; exact hs) i with ⟨st, hclass⟩ | ⟨cause, hclass⟩
  · rw [hclass]
    exact h.answer hi _ _
  · rw [hclass]
    exact h.modStream hi _

omit hs in
theorem Closed.handleRead (h : Closed a b) (hi : idleStream (a.stream i) = false) (l : Addr) : Closed a (handleRead cfg i l b) := by
  have hoverlay : Closed a (addOverlay i l b) := { h with }
  unfold Machine.handleRead
  split
  · exact h.answer hi _ _
  · exact h.modStream hi _
  · exact (h.handOver _ _ _).modStream hi _
  · exact .ite (h.answer hi _ _) ((hoverlay.handOver _ _ _).modStream hi _)

theorem Closed.handleCurrent (h : Closed a b) (hi : idleStream (a.stream i) = false) : Closed a (handleCurrent cfg i b) := by
  unfold Machine.handleCurrent
  split
  · exact h.modStream hi _
  split
  · exact h.handleRead hi _
  · exact h.handleWrite hs hi _ _ _
  · exact h.handleBarrier hs hi
  · exact h.handleCommit hs hi

theorem Closed.settle (h : Closed a b) (n : Nat) : Closed a (settle cfg n b) := by
  have hw := writing_of_notReady hs
  induction n generalizing b with
  | zero => exact h.progress hw
  | succ n ih =>
    have hprogress := h.progress (cfg := cfg) hw
    unfold Machine.settle handleNext
    split
    · exact hprogress
    · rename_i i f hchoose
      refine ih ((hprogress.free f).handleCurrent hs ?_)
      have hfresh := (List.mem_filter.1 (chooseFrom_mem hchoose)).2
      by_contra hidle
      rw [Bool.not_eq_false] at hidle
      have hphase := phase_of_idleStream hidle
      rw [← hprogress.streams i hidle] at hphase
      simp [hphase] at hfresh

/-- The event of a part whose journal is not READY and that has not taken the notice. -/
theorem finishEvent_closed (hn : a.journal.notice = false) : ∃ x, Closed a x ∧ Grown x (finishEvent cfg a) := by
  have hclosed := (Closed.refl a).settle (cfg := cfg) hs settleBound
  refine ⟨_, hclosed, ?_⟩
  have hlive : (arbitrate cfg 32 (Machine.settle cfg settleBound a)).journal.notice = false := by
    rw [(arbitrate_frame cfg 32 _).journal]
    exact hclosed.notice.trans hn
  unfold finishEvent
  rw [enterSafe_live hlive]
  exact grown_arbitrate cfg 32 _

end NotReady

/-- Operations at the port stay there while the ring is not written. -/
theorem Closed.inPort (h : Closed a b) {op : MemOp} {w : Owner} (hp : inPort a.mem op w = true) : inPort b.mem op w = true :=
  inPort_mono h.waiting (ports_iff.1 h.ports).2.1 hp

end Sys2Proof.Rounds


/-! SUPPORT. What discarding held writes leaves, part by part (R34, R94, R97), and the power-fail notice (R150). -/

namespace Sys2Proof.Rounds

open Sys2Proof.Machine Sys2Proof.Safety Sys2Proof.Laws Sys2Proof.Arrivals Sys2Proof.Expiries Sys2Proof.Order Sys2Proof.Resets

variable {cfg : Image} {a b b' : Blocks} {c k : CtxId} {i : StreamId}

/-! ## Streams that are not classified again -/

theorem wake_stream (b : Blocks) {p : StreamId → StreamRec → StallCause → Bool} {i : StreamId}
    (h : ∀ cause, (b.stream i).phase = .stalled cause → p i (b.stream i) cause = false) : (wake p b).stream i = b.stream i := by
  unfold wake
  rw [Blocks.mapStreams_stream]
  split
  · rename_i cause hphase
    rw [if_neg (by simp [h cause hphase])]
  · rfl

/-- Classifying requests again changes nothing but the stream records. -/
theorem wake_frame (p : StreamId → StreamRec → StallCause → Bool) (b : Blocks) : ∃ r, wake p b = { b with req := r } :=
  ⟨(wake p b).req, rfl⟩

/-! ## Held writes that are discarded -/

theorem foldl_settleContributors (reason : Option LossReason) (es : List HeldEntry) (b : Blocks) :
    es.foldl (fun b e => settleContributors reason e.contributors b) b =
      settleContributors reason (es.flatMap fun e => e.contributors) b := by
  induction es generalizing b with
  | nil => rfl
  | cons e es ih =>
    rw [List.foldl_cons, ih, List.flatMap_cons]
    unfold settleContributors
    rw [List.foldl_append]

theorem afterLoss_eq (reason : LossReason) (i : StreamId) (es : List HeldEntry) (r : StreamRec) :
    afterLoss reason i es r = afterShare (some reason) (shareOf i (es.flatMap fun e => e.contributors)) r := rfl

/-- What discarding held writes leaves, but for the stream records. -/
theorem discardHeld_frame (p : HeldEntry → Bool) (reason : Option LossReason) (b : Blocks) : ∃ r m,
    discardHeld p reason b =
      { b with req := r, held := { b.held with entries := b.held.entries.filter fun e => !p e }, mem := m }
    ∧ m.slots = b.mem.slots ∧ m.issue = b.mem.issue ∧ (∀ x ∈ m.waiting, x ∈ b.mem.waiting)
    ∧ ∀ x ∈ b.mem.waiting, (∀ l, x.owner ≠ .release l) → x ∈ m.waiting := by
  unfold discardHeld
  dsimp only
  split
  · rename_i hempty
    have hall : b.held.entries.filter (fun e => !p e) = b.held.entries :=
      List.filter_eq_self.2 fun e he => by simpa using List.filter_eq_nil_iff.1 (List.isEmpty_iff.1 hempty) e he
    rw [hall]
    exact ⟨b.req, b.mem, rfl, rfl, rfl, fun _ h => h, fun _ h _ => h⟩
  · rw [foldl_settleContributors]
    obtain ⟨r, hr⟩ := settleContributors_frame reason ((b.held.entries.filter p).flatMap fun e => e.contributors)
      (b.modHeld fun h => { h with entries := h.entries.filter fun e => !p e })
    rw [hr]
    refine ⟨_, _, rfl, rfl, rfl, fun x hx => (List.mem_filter.1 hx).1, fun x hx hown => List.mem_filter.2 ⟨hx, ?_⟩⟩
    simp [hown]

/-- A stream after held writes have been discarded, when its request is not stalled on a full queue. -/
theorem discardHeld_stream {p : HeldEntry → Bool} {reason : Option LossReason} {b : Blocks} {i : StreamId}
    (h : (b.stream i).phase ≠ .stalled .heldFull) : (discardHeld p reason b).stream i =
      afterShare reason (shareOf i ((b.held.entries.filter p).flatMap fun e => e.contributors)) (b.stream i) := by
  unfold discardHeld
  dsimp only
  split
  · rename_i hempty
    rw [List.isEmpty_iff.1 hempty]
    exact (afterShare_nil _ _).symm
  · rw [foldl_settleContributors]
    have hsettled := settleContributors_stream reason ((b.held.entries.filter p).flatMap fun e => e.contributors)
      (b.modHeld fun h => { h with entries := h.entries.filter fun e => !p e }) i
    refine Eq.trans (wake_stream _ fun cause hphase => ?_) hsettled
    have hphase' := (congrArg StreamRec.phase hsettled).symm.trans hphase
    exact decide_eq_false fun hcause => h (hphase'.trans (by rw [hcause]))

/-! ## The power-fail notice (R150) -/

/-- Writes that end without loss change only the count of a stream. -/
theorem settleWaiting_stream (b : Blocks) (i : StreamId) :
    ∃ n, (settleWaiting b).stream i = { b.stream i with outstanding := n } := by
  unfold settleWaiting
  generalize b.mem.waiting = l
  induction l generalizing b with
  | nil => exact ⟨(b.stream i).outstanding, rfl⟩
  | cons x l ih =>
    rw [List.foldl_cons]
    split
    · rename_i j _
      obtain ⟨n, hn⟩ := ih (settleWrites none j 1 b)
      refine ⟨n, hn.trans ?_⟩
      rw [settleWrites, Blocks.modStream_stream]
      split
      · rename_i hij
        rw [hij, Option.or_none]
      · rfl
    · exact ih b

theorem answered_stream (b : Blocks) (i : StreamId) :
    ∃ n, (answered b).stream i = { (b.stream i).powerFail with outstanding := n } := by
  have hpower : (b.mapStreams fun _ r => r.powerFail).stream i = (b.stream i).powerFail := Blocks.mapStreams_stream _ _ _
  obtain ⟨n, hn⟩ := settleWaiting_stream
    (discardHeld (fun h => decide (h.state ≠ .issued)) none (b.mapStreams fun _ r => r.powerFail)) i
  refine ⟨n, hn.trans ?_⟩
  rw [discardHeld_stream (by simp [StreamRec.powerFail]), hpower]
  simp [afterShare]

theorem settleWaiting_frame (b : Blocks) : ∃ r, settleWaiting b = { b with req := r } := by
  unfold settleWaiting
  generalize b.mem.waiting = l
  induction l generalizing b with
  | nil => exact ⟨b.req, rfl⟩
  | cons x l ih =>
    rw [List.foldl_cons]
    split
    · rename_i j _
      exact ih (settleWrites none j 1 b)
    · exact ih b

theorem settleWaiting_discardHeld (p : HeldEntry → Bool) (b : Blocks) :
    (settleWaiting (discardHeld p none b)).held.entries = b.held.entries.filter (fun e => !p e)
    ∧ (settleWaiting (discardHeld p none b)).journal = b.journal
    ∧ (settleWaiting (discardHeld p none b)).recovery = b.recovery := by
  obtain ⟨r, m, hm, _⟩ := discardHeld_frame p none b
  obtain ⟨r', hr'⟩ := settleWaiting_frame (discardHeld p none b)
  rw [hr', hm]
  exact ⟨rfl, rfl, rfl⟩

theorem answered_frame (b : Blocks) : (answered b).held.entries = b.held.entries.filter (fun e => decide (e.state = .issued))
    ∧ (answered b).journal = b.journal ∧ (answered b).recovery = b.recovery := by
  obtain ⟨hentries, hjournal, hrecovery⟩ :=
    settleWaiting_discardHeld (fun h => decide (h.state ≠ .issued)) (b.mapStreams fun _ r => r.powerFail)
  refine ⟨?_, ?_, ?_⟩
  · rw [answered, hentries, Blocks.mapStreams_held]
    exact List.filter_congr fun e _ => by simp
  · rw [answered, hjournal, Blocks.mapStreams_journal]
  · rw [answered, hrecovery, Blocks.mapStreams_recovery]

theorem takeNotice_stream (b : Blocks) (i : StreamId) :
    ∃ n, (takeNotice b).stream i = { (b.stream i).powerFail with outstanding := n } := by
  obtain ⟨_, _, hreq, _⟩ := takeNotice_blocks b
  obtain ⟨n, hn⟩ := answered_stream b i
  exact ⟨n, (congrArg (fun r : RequestPort => r.streams[i]) hreq).trans hn⟩

/-- After the notice contexts may go on, and the part goes to SAFE when no operation is outstanding (R39, R151). -/
theorem finishEvent_noticed (hn : b.journal.notice = true) (hidle : ∀ i, idleStream (b.stream i) = true) :
    ∃ x, Closed b x ∧ finishEvent cfg b = enterSafe x := by
  have hw : b.journal.writing = false := by simp [JournalWriter.writing, hn]
  have hclosed := (Closed.refl b).progress (cfg := cfg) hw
  have hfresh : noFresh (progress cfg b) = true := by
    rw [noFresh_iff]
    intro i
    rw [hclosed.streams i (hidle i), phase_of_idleStream (hidle i)]
    exact Phase.noConfusion
  refine ⟨_, hclosed, ?_⟩
  unfold finishEvent settleBound
  rw [settle_progressed rfl hfresh 2047, arbitrate_none]
  cases hg : grantOne cfg (progress cfg b) with
  | none => rfl
  | some y =>
    obtain ⟨hlive, _⟩ := grantOne_spec hg
    rw [hclosed.notice, hn] at hlive
    cases hlive

/-- What entering SAFE leaves. -/
theorem enterSafe_eq (b : Blocks) : ∃ st p, enterSafe b = b.modJournal (fun j => { j with state := st, pause := p })
    ∧ (b.journal.notice = true → b.journal.state ≠ .safe → st = if b.mem.quiet then .safe else b.journal.state) := by
  unfold enterSafe
  split
  · rename_i h
    simp only [Bool.and_eq_true, decide_eq_true_eq] at h
    exact ⟨_, _, rfl, fun _ _ => by rw [if_pos h.1.2]⟩
  · rename_i h
    refine ⟨b.journal.state, b.journal.pause, rfl, fun hn hs => ?_⟩
    simp only [hn, hs, Bool.true_and, Bool.and_eq_true, decide_eq_true_eq, ne_eq, not_false_eq_true, and_true] at h
    rw [if_neg h]

/-- Settles O40. -/
theorem powerFailNoticeAnswersEveryRequest : Obligations.PowerFailNoticeAnswersEveryRequest := by
  intro s hup hn hsafe
  refine ⟨fun hs => ?_, ?_⟩
  · have hs' : atRest { s with pins := { s.pins with pfail := false } } = true := hs
    exact congrArg Host.Outcome.next (event_atRest hs' rfl)
  · have hlook : lookAtPfail true s.blocks = takeNotice s.blocks := by
      unfold lookAtPfail
      rw [if_pos (by simp [hn, hsafe])]
    obtain ⟨_, _, _, _, hheld, hjournal, _, _, _, hrecovery⟩ := takeNotice_blocks s.blocks
    obtain ⟨hslots, _, hwaiting⟩ := takeNotice_mem s.blocks
    obtain ⟨hentries, hansweredJournal, hansweredRecovery⟩ := answered_frame s.blocks
    have hnotice : (takeNotice s.blocks).journal.notice = true := by rw [hjournal]
    have hstate : (takeNotice s.blocks).journal.state = s.blocks.journal.state := by
      rw [hjournal, ← hansweredJournal]
      rfl
    have hidle (i : StreamId) : idleStream ((takeNotice s.blocks).stream i) = true := by
      obtain ⟨n, hn⟩ := takeNotice_stream s.blocks i
      rw [hn]
      simp [idleStream, StreamRec.powerFail]
    obtain ⟨x, hclosed, hfinish⟩ := finishEvent_noticed (cfg := s.mgmt.active) hnotice hidle
    obtain ⟨st, p, henter, hst⟩ := enterSafe_eq x
    obtain ⟨_, hxslots, _⟩ := ports_iff.1 hclosed.ports
    have hquiet : x.mem.quiet = s.blocks.mem.quiet := quiet_congr (hxslots.trans hslots)
    have hst' : st = if s.blocks.mem.quiet then .safe else s.blocks.journal.state := by
      rw [hst (hclosed.notice.trans hnotice) (by rw [hclosed.state, hstate]; exact hsafe), hquiet, hclosed.state, hstate]
    have hxrecovery : x.recovery = { s.blocks.recovery with noticed := decide (s.blocks.journal.state = .recovering) } := by
      rw [hclosed.recovery, hrecovery, hansweredRecovery, hansweredJournal]
    have hexec : exec (.powerFailNotice true) s = .next
        { s with pins := { s.pins with pfail := true }, blocks := x.modJournal fun j => { j with state := st, pause := p } } := by
      have hevent : exec (.powerFailNotice true) s =
          .next (({ s with pins := { s.pins with pfail := true } } : State).event (lookAtPfail true)) := rfl
      rw [hevent, event_up (s := { s with pins := { s.pins with pfail := true } }) hup, hlook, hfinish, henter]
      rfl
    refine ⟨_, hexec, rfl, hclosed.notice.trans hnotice, (hclosed.noticed hnotice).trans hwaiting, hxslots.trans hslots,
      fun i => ?_, ?_, fun c => ?_, hst', hxrecovery, fun hrecovering => ?_⟩
    · obtain ⟨n, hn⟩ := takeNotice_stream s.blocks i
      have hstream := (hclosed.streams i (hidle i)).trans hn
      dsimp only
      rw [Blocks.modJournal_stream, hstream]
      exact ⟨rfl, rfl, rfl, rfl, rfl, rfl⟩
    · refine hclosed.entries.trans ?_
      rw [hheld]
      exact hentries
    · obtain ⟨htimer, hwaiters, hepoch, hmgmt⟩ := hclosed.marks c
      rw [takeNotice_ctx, (untouched_answered s.blocks).ctx] at htimer hwaiters hepoch hmgmt
      exact ⟨htimer, hwaiters, hepoch, hmgmt⟩
    · have hat : st = .recovering ∨ st = .safe := by
        rw [hst']
        split
        · exact .inr rfl
        · exact .inl hrecovering
      unfold statusPayload recoveryAt
      dsimp only [Blocks.modJournal]
      rw [hxrecovery]
      refine (if_pos ?_).trans rfl
      rcases hat with h | h
      · exact .inl h
      · exact .inr ⟨h, by simp [hrecovering]⟩

end Sys2Proof.Rounds


/-! SUPPORT. What the rest of an event leaves to the ends of operations and the commands: the recovery engine, the
anchored head, the anchor state but for its write in flight, and the recovery requests that wait. -/

namespace Sys2Proof.Rounds

open Sys2Proof.Machine Sys2Proof.Safety Sys2Proof.Laws Sys2Proof.Arrivals Sys2Proof.Expiries Sys2Proof.Order

/-- An owner is the Recovery Engine. -/
def recovers (w : Owner) : Bool :=
  match w with
  | .recoveryRead _ => true
  | .recoveryWrite => true
  | _ => false

/-- What a journal keeps. -/
@[simp] def keptJournal (j : JournalWriter) : Bool × RingPtr × AnchorState := (j.notice, j.anchored, { j.anchor with busy := false })

/-- The recovery engine, its waiting requests, and what the journal keeps. -/
def kept (b : Blocks) : RecoveryEngine × List MemRequest × Bool × RingPtr × AnchorState :=
  (b.recovery, b.mem.waiting.filter fun r => recovers r.owner, keptJournal b.journal)

variable {cfg : Image} {b b' : Blocks} {c : CtxId} {i : StreamId}

/-! ## The updates of the blocks -/

@[simp] theorem kept_modStream (f : StreamRec → StreamRec) : kept (b.modStream i f) = kept b := rfl
@[simp] theorem kept_modCtx (f : Context → Context) : kept (b.modCtx c f) = kept b := rfl
@[simp] theorem kept_modTrack (f : List TrackEntry → List TrackEntry) : kept (b.modTrack f) = kept b := rfl
theorem kept_modJournal (f : JournalWriter → JournalWriter) (h : ∀ j, keptJournal (f j) = keptJournal j) :
    kept (b.modJournal f) = kept b := by
  unfold kept
  rw [← h b.journal]
  rfl

@[simp] theorem kept_modHeld (f : HeldQueue → HeldQueue) : kept (b.modHeld f) = kept b := rfl
@[simp] theorem kept_modEvents (f : EventUnit → EventUnit) : kept (b.modEvents f) = kept b := rfl

@[simp] theorem kept_mapStreams (f : StreamId → StreamRec → StreamRec) : kept (b.mapStreams f) = kept b := by
  simp [kept]

theorem kept_foldl {α : Type} {f : Blocks → α → Blocks} (h : ∀ b x, kept (f b x) = kept b) (l : List α) (b : Blocks) :
    kept (l.foldl f b) = kept b := by
  induction l generalizing b with
  | nil => rfl
  | cons x l ih => exact (ih (f b x)).trans (h b x)

theorem kept_ite {p : Prop} [Decidable p] {x y z : Blocks} (hx : kept x = kept z) (hy : kept y = kept z) :
    kept (if p then x else y) = kept z := by
  split
  · exact hx
  · exact hy

/-! ## Request Port and Memory Port -/

@[simp] theorem kept_answer (st : UpStatus) (d : Option LineData) : kept (answer i st d b) = kept b := rfl

@[simp] theorem kept_wake (p : StreamId → StreamRec → StallCause → Bool) : kept (wake p b) = kept b := kept_mapStreams _

@[simp] theorem kept_wakeAll : kept (wakeAll b) = kept b := kept_wake _
@[simp] theorem kept_wakeContext : kept (wakeContext cfg c b) = kept b := kept_wake _
@[simp] theorem kept_wakeCapture : kept (wakeCapture b) = kept b := kept_wake _
@[simp] theorem kept_wakeHeldFull : kept (wakeHeldFull b) = kept b := kept_wake _
@[simp] theorem kept_wakeRestoring (l : Addr) : kept (wakeRestoring l b) = kept b := kept_wake _
@[simp] theorem kept_lineFreed (l : Addr) : kept (lineFreed l b) = kept b := (kept_wakeRestoring l).trans (kept_mapStreams _)

@[simp] theorem kept_settleContributors (reason : Option LossReason) (cs : List (StreamId × Nat)) :
    kept (settleContributors reason cs b) = kept b := kept_foldl (fun _ _ => kept_modStream _) cs b

@[simp] theorem kept_answerBarrier : kept (answerBarrier i b) = kept b := rfl

@[simp] theorem kept_raise (f : EventFlag) : kept (raise f b) = kept b := rfl

@[simp] theorem kept_refuseWrite (l : Addr) (st : UpStatus) : kept (refuseWrite i l st b) = kept b := by
  unfold refuseWrite
  split <;> rfl

@[simp] theorem kept_handOver (op : MemOp) (cls : MemClass) (w : Owner) (hw : recovers w = false) :
    kept (handOver op cls w b) = kept b := by
  unfold handOver
  split
  · rfl
  · simp [kept, Blocks.modMem, hw]

theorem not_release_of_recovers {w : Owner} (h : recovers w = true) (l : Addr) : w ≠ .release l := by
  rintro rfl
  cases h

theorem recovers_restoreOf (w : Owner) (h : recovers w = true) : w.restoreOf c = false := by
  cases w <;> simp_all [recovers, Owner.restoreOf]

theorem recovers_ofJournal (w : Owner) (h : recovers w = true) : w.ofJournal = false := by
  cases w <;> simp_all [recovers, Owner.ofJournal, Owner.isAnchor, Owner.isCapture]

theorem kept_withdraw {p : MemRequest → Bool} (h : ∀ r, recovers r.owner = true → p r = false) :
    kept (withdraw p b) = kept b := by
  have hwaiting : (b.mem.waiting.filter fun r => !p r).filter (fun r => recovers r.owner) =
      b.mem.waiting.filter fun r => recovers r.owner := by
    rw [List.filter_filter]
    refine List.filter_congr fun r _ => ?_
    cases hr : recovers r.owner
    · rfl
    · simp [h r hr]
  unfold kept
  rw [← hwaiting]
  rfl

/-! ## Held Write Queue and Line Tracking Table -/

@[simp] theorem kept_requestReleases : kept (requestReleases b) = kept b :=
  kept_foldl (fun _ _ => kept_handOver _ _ _ rfl) _ b

@[simp] theorem kept_discardHeld (p : HeldEntry → Bool) (reason : Option LossReason) :
    kept (discardHeld p reason b) = kept b := by
  unfold discardHeld
  dsimp only
  split
  · rfl
  · rw [kept_wakeHeldFull, kept_withdraw fun r hr => ?_, kept_foldl fun _ _ => kept_settleContributors _ _, kept_modHeld]
    simp [not_release_of_recovers hr]

@[simp] theorem kept_removeEntries (p : TrackEntry → Bool) : kept (removeEntries p b) = kept b :=
  kept_foldl (fun _ _ => kept_lineFreed _) _ _

@[simp] theorem kept_updateEntries (p : TrackEntry → Bool) (f : TrackEntry → TrackEntry) :
    kept (updateEntries p f b) = kept b := rfl

@[simp] theorem kept_dropRestoring : kept (dropRestoring c b) = kept b :=
  kept_foldl (fun _ _ => kept_wakeRestoring _) _ _

@[simp] theorem kept_leaveRestoring (l : Addr) (st : TrackState) : kept (leaveRestoring c l st b) = kept b :=
  kept_wakeRestoring l

/-! ## Journal Writer -/

@[simp] theorem kept_writeAnchor (copy : AnchorCopy) (f : AnchorFields) (p : AnchorPurpose) :
    kept (writeAnchor cfg copy f p b) = kept b := kept_handOver _ _ _ rfl

@[simp] theorem kept_anchorCheck : kept (anchorCheck cfg b) = kept b := by
  unfold anchorCheck startAnchor
  split
  · exact kept_writeAnchor _ _ _
  · rfl

@[simp] theorem kept_evalPause : kept (evalPause cfg b) = kept b := by
  unfold evalPause
  dsimp only
  split
  · rfl
  split
  · exact kept_anchorCheck.trans ((kept_raise _).trans (kept_modJournal _ fun _ => rfl))
  split
  · exact kept_wakeCapture.trans ((kept_raise _).trans (kept_modJournal _ fun _ => rfl))
  · rfl

@[simp] theorem kept_reserve (k : Nat) : kept (reserve cfg k b) = kept b := kept_evalPause

@[simp] theorem kept_releaseSpace (k : Nat) : kept (releaseSpace cfg k b) = kept b := by
  unfold releaseSpace spaceRisen
  split
  · rfl
  · exact kept_evalPause.trans (kept_wakeCapture.trans (kept_modJournal _ fun _ => rfl))

@[simp] theorem kept_placeDemand (d : Demand) : kept (placeDemand d b) = kept b := by
  refine kept_modJournal _ fun j => ?_
  split
  · rfl
  · split <;> rfl

@[simp] theorem kept_burstCheck : kept (burstCheck cfg b) = kept b := by
  unfold burstCheck issueBurst
  dsimp only
  split
  · split
    · rfl
    · exact kept_handOver _ _ _ rfl
  · rfl

@[simp] theorem kept_stage (l : List StagedSlot) (e : Epoch) : kept (stage cfg l e c b) = kept b := rfl

@[simp] theorem kept_demandsAtStaging (e : TrackEntry) (seq : Count32) : kept (demandsAtStaging e seq b) = kept b := by
  unfold demandsAtStaging
  dsimp only
  split
  · exact (kept_placeDemand _).trans (kept_foldl (fun _ _ => kept_placeDemand _) _ b)
  · exact kept_foldl (fun _ _ => kept_placeDemand _) _ b

@[simp] theorem kept_stageUndo (e : TrackEntry) (d : LineData) : kept (stageUndo cfg e d b) = kept b := by
  simp [stageUndo]

@[simp] theorem kept_stageMarker (k : RecordKind) : kept (stageMarker cfg k c b) = kept b := kept_burstCheck

theorem kept_serveOne (h : serveOne cfg b = some b') : kept b' = kept b := by
  unfold serveOne at h
  dsimp only at h
  split at h
  · cases h
  split at h
  · split at h <;> cases h
    exact kept_stageMarker _
  · split at h
    · split at h <;> cases h
      exact kept_handOver _ _ _ rfl
    · cases h

@[simp] theorem kept_serveBuffer (n : Nat) : kept (serveBuffer cfg n b) = kept b := by
  induction n generalizing b with
  | zero => rfl
  | succ n ih =>
    unfold serveBuffer
    split
    · exact ih.trans (kept_serveOne ‹_›)
    · rfl

@[simp] theorem kept_requestMarker (k : RecordKind) : kept (requestMarker k c b) = kept b := by
  unfold requestMarker
  split <;> rfl

/-! ## Epoch Controller -/

@[simp] theorem kept_answerWaiters (st : UpStatus) : kept (answerWaiters c st b) = kept b :=
  kept_foldl (fun _ _ => kept_answer _ _) _ b

@[simp] theorem kept_drainDemands (source : DemandSource) : kept (drainDemands c source b) = kept b := by
  refine kept_foldl (fun b e => ?_) _ b
  split
  · exact kept_placeDemand _
  · rfl

@[simp] theorem kept_beginCommit : kept (beginCommit cfg c b) = kept b := by
  simp [beginCommit]

@[simp] theorem kept_enterMarking : kept (enterMarking cfg c b) = kept b := by
  simp [enterMarking]

@[simp] theorem kept_markerDurable (e : Epoch) : kept (markerDurable cfg c e b) = kept b := by
  unfold markerDurable
  dsimp only
  split
  · rfl
  split
  · have hhead : kept (answerWaiters c .okay ((removeEntries (fun t => decide (t.ctx = c)) b).modJournal fun j =>
        let j' := { j with live := j.live.filter fun l => decide (l.epoch ≠ e) }
        { j' with head := j'.headNow })) = kept b := by
      rw [kept_answerWaiters, kept_modJournal, kept_removeEntries]
      exact fun _ => rfl
    rw [kept_anchorCheck, kept_wakeContext]
    split
    · exact hhead
    · exact kept_ite hhead hhead
  · rfl

@[simp] theorem kept_enterFaulted (r : FaultRecord) : kept (enterFaulted cfg c r b) = kept b := by
  unfold enterFaulted breakRollback
  dsimp only
  split
  · simp [kept_withdraw fun r => recovers_restoreOf r.owner]
  · simp

@[simp] theorem kept_reportFault (e : Epoch) (kind : FaultKind) (l : Addr) (st : DownStatus) :
    kept (reportFault cfg c e kind l i st b) = kept b := by
  unfold reportFault
  dsimp only
  split
  · simp
  · rfl

@[simp] theorem kept_reportRestoreFault (kind : FaultKind) (l : Addr) (st : DownStatus) :
    kept (reportRestoreFault cfg c kind l st b) = kept b := by
  unfold reportRestoreFault
  dsimp only
  split
  · split
    · simp
    · rfl
  · rfl

theorem kept_journalFaults (st : Option DownStatus) (b : Blocks) (c : CtxId) : kept (journalFaults cfg st b c) = kept b := by
  unfold journalFaults
  dsimp only
  split
  · split
    · rfl
    · simp
  · rfl

@[simp] theorem kept_journalFail (reason : JournalReason) (st : Option DownStatus) :
    kept (journalFail cfg reason st b) = kept b := by
  unfold journalFail
  dsimp only
  rw [kept_wakeAll, kept_raise, kept_foldl (kept_journalFaults st)]
  rw [kept_discardHeld]
  exact (kept_modJournal _ fun _ => rfl).trans
    ((kept_withdraw fun r => recovers_ofJournal r.owner).trans (kept_modJournal _ fun _ => rfl))

/-! ## Rollback -/

@[simp] theorem kept_modRollback (f : Rollback → Rollback) : kept (modRollback c f b) = kept b := rfl

@[simp] theorem kept_dropCaptures : kept (dropCaptures cfg c b) = kept b := by
  exact (kept_releaseSpace _).trans ((kept_modJournal _ fun _ => rfl).trans (kept_removeEntries _))

@[simp] theorem kept_enterRetire : kept (enterRetire c b) = kept b := by
  simp [enterRetire]

@[simp] theorem kept_settleLines : kept (settleLines cfg c b) = kept b := by
  unfold settleLines settleRestore
  dsimp only
  split <;> simp

@[simp] theorem kept_fillSlots (n : Nat) : kept (fillSlots cfg c n b) = kept b := by
  induction n generalizing b with
  | zero => rfl
  | succ n ih =>
    unfold fillSlots
    split
    · exact ih.trans (kept_handOver _ _ _ rfl)
    · rfl

@[simp] theorem kept_requestRestoreWrite (l : Addr) (d : LineData) : kept (requestRestoreWrite c l d b) = kept b := by
  unfold requestRestoreWrite
  split
  · rfl
  · exact kept_handOver _ _ _ rfl

@[simp] theorem kept_restoreLogged (l : Addr) : kept (restoreLogged c l b) = kept b := by
  unfold restoreLogged
  split
  · split
    · split
      · rfl
      · exact kept_requestRestoreWrite _ _
    · rfl
  · rfl

theorem kept_contextStep (b : Blocks) (c : CtxId) : kept (contextStep cfg b c) = kept b := by
  unfold contextStep
  split
  · split
    · exact kept_enterMarking
    · rfl
  · unfold rollbackStep
    dsimp only
    split <;> split <;> simp
  · rfl

/-! ## Requests that are handled, and the rest of an event -/

@[simp] theorem kept_setPhase (p : Phase) : kept (setPhase i p b) = kept b := rfl

@[simp] theorem kept_acceptWrite : kept (acceptWrite i b) = kept b := rfl

@[simp] theorem kept_acceptJournaled : kept (acceptJournaled cfg i c b) = kept b := kept_ite rfl rfl

theorem kept_handleRead (l : Addr) : kept (handleRead cfg i l b) = kept b := by
  unfold handleRead
  split
  · rfl
  · rfl
  · exact kept_handOver _ _ _ rfl
  · exact kept_ite rfl (kept_handOver _ _ _ rfl)

theorem kept_firstTouch (l : Addr) (m : ByteMask) (d : LineData) : kept (firstTouch cfg i c l m d b) = kept b := by
  have hopen : kept (if decide ((b.ctx c).state = .idle) then openEpoch c b else b) = kept b := kept_ite rfl rfl
  have htouch (x : Blocks) : kept (reserve cfg (slotsNeeded (b.ctx c).state) (acceptJournaled cfg i c
      (allocHeld i c l m d .waitLog (insertEntry i c l x)))) = kept x :=
    (kept_reserve _).trans kept_acceptJournaled
  have hopened := (htouch _).trans hopen
  have hwoken := kept_ite (p := (decide ((b.ctx c).state = .idle)) = true) (kept_wakeContext (cfg := cfg) (c := c).trans hopened) hopened
  exact kept_ite ((kept_journalFail _ _).trans hwoken) hwoken

theorem kept_handleWrite (l : Addr) (m : ByteMask) (d : LineData) : kept (handleWrite cfg i l m d b) = kept b := by
  unfold handleWrite
  split
  · rfl
  split
  · exact kept_refuseWrite _ _
  · rfl
  · exact (kept_acceptWrite).trans (kept_handOver _ _ _ rfl)
  · rfl
  · rfl
  · exact kept_acceptJournaled
  · exact kept_acceptJournaled
  · exact kept_firstTouch _ _ _

theorem kept_handleCurrent (cfg : Image) (i : StreamId) (b : Blocks) : kept (handleCurrent cfg i b) = kept b := by
  unfold handleCurrent
  split
  · rfl
  split
  · exact kept_handleRead _
  · exact kept_handleWrite _ _ _
  · refine kept_ite kept_answerBarrier (kept_burstCheck.trans (kept_foldl (fun x l => ?_) _ _))
    split
    · exact kept_placeDemand _
    · rfl
  · unfold handleCommit
    split
    · rfl
    · rfl
    · rfl
    · exact kept_beginCommit

theorem kept_progress (cfg : Image) (b : Blocks) : kept (progress cfg b) = kept b := by
  unfold progress handOnCounts answerBarriers
  dsimp only
  rw [kept_foldl fun _ _ => kept_setPhase _, kept_foldl fun _ _ => kept_answerBarrier, kept_requestReleases,
    kept_serveBuffer, kept_foldl kept_contextStep]

theorem kept_free (f : FreeChoices) : kept { b with free := f } = kept b := rfl

theorem kept_settle (cfg : Image) (n : Nat) (b : Blocks) : kept (settle cfg n b) = kept b := by
  induction n generalizing b with
  | zero => exact kept_progress cfg b
  | succ n ih =>
    unfold settle handleNext
    split
    · exact kept_progress cfg b
    · exact (ih _).trans ((kept_handleCurrent _ _ _).trans ((kept_free _).trans (kept_progress cfg b)))


theorem grants_kept (cfg : Image) {x : Blocks} (hkept : kept x = kept b) (hslots : x.mem.slots = b.mem.slots)
    (hn : b.journal.notice = false) : (enterSafe (arbitrate cfg 32 x)).recovery = b.recovery
    ∧ keptJournal (enterSafe (arbitrate cfg 32 x)).journal = keptJournal b.journal
    ∧ ∀ op w, recovers w = true → inPort b.mem op w = true → inPort (enterSafe (arbitrate cfg 32 x)).mem op w = true := by
  obtain ⟨hrecovery, hwaiting, hjournal⟩ : x.recovery = b.recovery
      ∧ (x.mem.waiting.filter fun r => recovers r.owner) = (b.mem.waiting.filter fun r => recovers r.owner)
      ∧ keptJournal x.journal = keptJournal b.journal := by
    simpa only [kept, Prod.mk.injEq] using hkept
  have hgrants := arbitrate_frame cfg 32 x
  have hlive : x.journal.notice = false := (congrArg (·.1) hjournal).trans hn
  rw [enterSafe_live (by rw [hgrants.journal]; exact hlive), hgrants.recovery, hgrants.journal]
  refine ⟨hrecovery, hjournal, fun op w hw hp => arbitrate_inPort cfg 32 (not_release_of_recovers hw) ?_⟩
  rw [inPort_iff] at hp ⊢
  rw [hslots]
  refine hp.imp_left fun ⟨r, hr, hop, how⟩ => ⟨r, ?_, hop, how⟩
  have hmem : r ∈ b.mem.waiting.filter fun r => recovers r.owner := List.mem_filter.2 ⟨hr, by rw [how]; exact hw⟩
  rw [← hwaiting] at hmem
  exact (List.mem_filter.1 hmem).1

/-- The rest of an event, before the notice, leaves what is kept and the recovery operations at the port. -/
theorem finishEvent_kept (cfg : Image) {b : Blocks} (hn : b.journal.notice = false) :
    (finishEvent cfg b).recovery = b.recovery ∧ keptJournal (finishEvent cfg b).journal = keptJournal b.journal
    ∧ ∀ op w, recovers w = true → inPort b.mem op w = true → inPort (finishEvent cfg b).mem op w = true :=
  grants_kept cfg (kept_settle cfg settleBound b) (ports_iff.1 (ports_settle cfg settleBound b)).2.1 hn

end Sys2Proof.Rounds


/-! SUPPORT. The choice of the anchor (R156) and the epoch table of the scan (R158). -/

namespace Sys2Proof.Tables

open Sys2Proof.Machine Sys2Proof.Safety

/-! ## The epoch table (R158) -/

variable {table before behind : List RecoveryEpoch} {e : Epoch} {c : CtxId} {x : RecoveryEpoch}

theorem find_epoch_none (h : ∀ x ∈ table, x.epoch ≠ e) : table.find? (fun t => decide (t.epoch = e)) = none :=
  List.find?_eq_none.2 fun x hx => by simp [h x hx]

theorem find_epoch_some (hx : x.epoch = e) (h : ∀ y ∈ before ++ behind, y.epoch ≠ e) :
    (before ++ x :: behind).find? (fun t => decide (t.epoch = e)) = some x := by
  rw [List.find?_append, find_epoch_none fun y hy => h y (List.mem_append_left _ hy), List.find?_cons_of_pos (by simp [hx])]
  rfl

theorem map_complete (hx : x.epoch = e) (h : ∀ y ∈ before ++ behind, y.epoch ≠ e) :
    (before ++ x :: behind).map (fun y => if y.epoch = e then { y with complete := true } else y) =
      before ++ { x with complete := true } :: behind := by
  have hother (l : List RecoveryEpoch) (hl : ∀ y ∈ l, y.epoch ≠ e) :
      l.map (fun y => if y.epoch = e then { y with complete := true } else y) = l :=
    (List.map_congr_left fun y hy => if_neg (hl y hy)).trans (List.map_id _)
  rw [List.map_append, List.map_cons, if_pos hx, hother before fun y hy => h y (List.mem_append_left _ hy),
    hother behind fun y hy => h y (List.mem_append_right _ hy)]

theorem evictComplete_first (hb : ∀ y ∈ before, y.complete = false) (hx : x.complete = true) :
    evictComplete (before ++ x :: behind) = before ++ behind := by
  induction before with
  | nil => exact if_pos hx
  | cons y before ih =>
    refine (if_neg (by simp [hb y])).trans ?_
    exact congrArg (y :: ·) (ih fun z hz => hb z (List.mem_cons_of_mem _ hz))

theorem tableTake_known (h : table.find? (fun t => decide (t.epoch = e)) = some x) :
    tableTake table .undo e c = (if x.ctx ≠ c ∨ x.complete then none else some table)
    ∧ ∀ k, k ≠ .undo → tableTake table k e c = if x.ctx ≠ c then none
      else some (table.map fun y => if y.epoch = e then { y with complete := true } else y) := by
  unfold tableTake
  rw [h]
  refine ⟨rfl, fun k hk => ?_⟩
  cases k with
  | undo => exact absurd rfl hk
  | commit => rfl
  | retire => rfl

theorem tableRows_all (table : List RecoveryEpoch) (e : Epoch) (c : CtxId) : tableRows table e c := by
  refine ⟨fun hnone => ?_, ?_⟩
  · have hadd : tableTake table .undo e c = tableAdd table e c := by
      unfold tableTake
      rw [find_epoch_none hnone]
    have hmark (k : RecordKind) (hk : k ≠ .undo) : tableTake table k e c = some table := by
      unfold tableTake
      rw [find_epoch_none hnone]
      cases k with
      | undo => exact absurd rfl hk
      | commit => rfl
      | retire => rfl
    refine ⟨hmark _ RecordKind.noConfusion, hmark _ RecordKind.noConfusion, fun hlt => ?_, fun hfull hall => ?_, ?_⟩
    · rw [hadd]
      exact if_pos hlt
    · rw [hadd, tableAdd, if_neg (Nat.not_lt.2 hfull), if_neg]
      simpa using hall
    · rintro before x behind hfull rfl hb hx
      rw [hadd, tableAdd, if_neg (Nat.not_lt.2 hfull), if_pos (by simp [hx]), evictComplete_first hb hx]
  · rintro before x behind rfl hx hothers
    obtain ⟨hundo, hmark⟩ := tableTake_known (c := c) (find_epoch_some hx hothers)
    refine ⟨fun hc k => ?_, fun hc => ⟨?_, ?_, ?_⟩⟩
    · by_cases hk : k = .undo
      · rw [hk, hundo, if_pos (.inl hc)]
      · rw [hmark k hk, if_pos hc]
    · rw [hundo]
      simp [hc]
    · rw [hmark _ RecordKind.noConfusion, if_neg (not_not.2 hc), map_complete hx hothers]
    · rw [hmark _ RecordKind.noConfusion, if_neg (not_not.2 hc), map_complete hx hothers]

/-! ## The choice of the anchor (R156) -/

theorem anchorRows_all (a b : LineData) : anchorRows a b := by
  unfold anchorRows chooseAnchor
  dsimp only
  refine ⟨fun ha hb => by rw [ha, hb], fun ha hb => by rw [ha, hb], fun ha hb => by rw [ha, hb], fun ha hb => ?_⟩
  rw [ha, hb]
  dsimp only
  refine ⟨fun hne => ?_, fun heq hne => ?_, fun heq hgen => ?_⟩
  · rw [if_pos hne]
    split <;> rfl
  · rw [if_neg (not_not.2 heq), if_neg hne]
    split <;> rfl
  · rw [if_neg (not_not.2 heq), if_pos hgen]

end Sys2Proof.Tables


/-! SUPPORT. What an event leaves when the journal is not READY, and the ends of recovery. -/

namespace Sys2Proof.Rounds

open Sys2Proof.Machine Sys2Proof.Safety Sys2Proof.Laws Sys2Proof.Arrivals Sys2Proof.Expiries Sys2Proof.Order Sys2Proof.Resets

variable {cfg : Image} {b y t : Blocks} {s : State}

/-- From y to t the ring has not been written and recovery has not gone on. -/
structure Shut (y t : Blocks) : Prop where
  recovery : t.recovery = y.recovery
  journal : ∃ q r d, t.journal = { y.journal with captureQueue := q, reserved := r, demands := d }
  reserved : t.journal.reserved ≤ y.journal.reserved
  pending : ∀ f, y.events.isPending f = true → t.events.isPending f = true
  counter : t.epochs.counter = y.epochs.counter
  port : ∀ op w, (∀ l, w ≠ .release l) → inPort y.mem op w = true → inPort t.mem op w = true

theorem finishEvent_shut (hs : y.journal.state ≠ .ready) (hn : y.journal.notice = false) : Shut y (finishEvent cfg y) := by
  obtain ⟨x, hclosed, hgrown⟩ := finishEvent_closed (cfg := cfg) hs hn
  obtain ⟨q, r, d, p, hj, hpause⟩ := hclosed.journal
  rw [hpause hs] at hj
  have hgrants := hgrown.grants
  refine ⟨hgrants.recovery.trans hclosed.recovery, ⟨q, r, d, hgrants.journal.trans hj⟩, ?_, fun f hf => ?_, ?_, fun op w hw hp => ?_⟩
  · rw [hgrants.journal]
    exact hclosed.reserved
  · rw [hgrants.events]
    exact hclosed.pending f hf
  · rw [hgrants.epochs]
    exact hclosed.counter
  · exact hgrown.port op w hw (hclosed.inPort hp)

theorem Shut.state (h : Shut y t) : t.journal.state = y.journal.state := by
  obtain ⟨q, r, d, hj⟩ := h.journal
  rw [hj]

theorem Shut.reason (h : Shut y t) : t.journal.reason = y.journal.reason := by
  obtain ⟨q, r, d, hj⟩ := h.journal
  rw [hj]

theorem Shut.anchor (h : Shut y t) : t.journal.anchor = y.journal.anchor := by
  obtain ⟨q, r, d, hj⟩ := h.journal
  rw [hj]

theorem Shut.pause (h : Shut y t) : t.journal.pause = y.journal.pause := by
  obtain ⟨q, r, d, hj⟩ := h.journal
  rw [hj]

/-! ## Recovery ends (R156, R161, R162) -/

theorem endRecovery_frame (o : RecoveryOutcome) (st : JournalState) (reason : Option JournalReason) (b : Blocks) :
    ∃ r, endRecovery o st reason b = { b with
      req := r
      recovery := { b.recovery with
        phase := .ended, step := .idle, summary := { b.recovery.summary with outcome := some o } }
      journal := { b.journal with state := st, reason := reason, anchor := { b.journal.anchor with busy := false } }
      events := b.events.raise .recoveryDone } := by
  obtain ⟨r, hr⟩ := wake_frame (fun _ _ _ => true) (raise .recoveryDone ((b.modRecovery fun r =>
    { r with phase := .ended, step := .idle, summary := { r.summary with outcome := some o } }).modJournal fun j =>
    { j with state := st, reason := reason, anchor := { j.anchor with busy := false } }))
  exact ⟨r, hr⟩

theorem raise_pending (e : EventUnit) (f : EventFlag) : (e.raise f).isPending f = true := by
  unfold EventUnit.isPending EventUnit.raise
  have hbit : f.bit < 18 := by
    cases f <;> simp only [EventFlag.bit] <;> omega
  simp [hbit]

theorem recoveryFail_frame (reason : JournalReason) (b : Blocks) : ∃ r, recoveryFail reason b = { b with
    req := r
    recovery := { b.recovery with
      phase := .ended, step := .idle, summary := { b.recovery.summary with outcome := some (.failed reason) } }
    journal := { b.journal with
      state := .failed, reason := some reason, anchor := { b.journal.anchor with busy := false } }
    events := (b.events.raise .recoveryDone).raise .journalFailed } := by
  obtain ⟨r, hr⟩ := endRecovery_frame (.failed reason) .failed (some reason) b
  exact ⟨r, congrArg (raise .journalFailed) hr⟩

theorem recoveryFails_of {reason : JournalReason} {t : State} (hn : b.journal.notice = false)
    (ht : t.blocks = finishEvent cfg (recoveryFail reason b)) : recoveryFails reason t := by
  obtain ⟨r, hr⟩ := recoveryFail_frame reason b
  have hshut := finishEvent_shut (cfg := cfg) (y := recoveryFail reason b) (by rw [hr]; exact JournalState.noConfusion)
    (by rw [hr]; exact hn)
  rw [← ht, hr] at hshut
  exact ⟨hshut.state, hshut.reason, congrArg RecoveryEngine.phase hshut.recovery,
    hshut.pending _ (isPending_raise _ _ _ (raise_pending _ _)), hshut.pending _ (raise_pending _ _)⟩

/-! ## Reads and the finish (R157, R159, R160) -/

theorem recoveryRead_recovery (line : Addr) (what : RecoveryRead) (step : RecoveryStep) (b : Blocks) :
    (recoveryRead line what step b).recovery = { b.recovery with step := step } := by
  obtain ⟨m, hm, _⟩ := handOver_frame (.lineRead line) .restore (.recoveryRead what)
    (b.modRecovery fun r => { r with step := step })
  rw [recoveryRead, hm]
  rfl

theorem recoveryRead_journal (line : Addr) (what : RecoveryRead) (step : RecoveryStep) (b : Blocks) :
    (recoveryRead line what step b).journal = b.journal := by
  rw [recoveryRead, handOver_journal, Blocks.modRecovery_journal]

variable {t : State}

theorem readsSlot_of {what : RecoveryRead} {step : RecoveryStep} {pos : RingPtr} (hn : b.journal.notice = false)
    (ht : t.blocks = finishEvent cfg (recoveryRead (slotLine cfg pos.idx) what step b)) :
    readsSlot cfg { b.recovery with step := step } what pos t := by
  obtain ⟨hrecovery, _, hport⟩ := finishEvent_kept cfg (b := recoveryRead (slotLine cfg pos.idx) what step b)
    (by rw [recoveryRead_journal]; exact hn)
  rw [← ht] at hrecovery hport
  refine ⟨hrecovery.trans (recoveryRead_recovery _ _ _ b), hport _ _ rfl ?_⟩
  exact handOver_inPort (b := b.modRecovery fun r => { r with step := step }) hn _ _ _

/-- The journal of the empty ring that the finish lays down (R160). -/
def laidDown (q fc : Count32) (j : JournalWriter) : JournalWriter :=
  { j with tail := ⟨0, q⟩, durable := ⟨0, q⟩, head := ⟨0, q⟩, anchored := ⟨0, q⟩, reserved := 0, live := [], staging := []
           anchor := { j.anchor with formatCount := fc } }

theorem finish_laid {ch : ChosenAnchor} {q : Count32} (hch : b.recovery.chosen = some ch) (hq : b.recovery.endSeq = q)
    (hnext : b.recovery.nextEpoch < 2 ^ 48) : finish cfg b = writeAnchor cfg ch.copy.other
      ⟨ch.generation + 1, 0, q, BitVec.ofNat 48 b.recovery.nextEpoch, cfg.journal.ringSize, ch.formatCount⟩ .finishFirst
      ((b.modRecovery fun r => { r with phase := .finish, step := .idle }).modJournal (laidDown q ch.formatCount)) := by
  unfold finish
  dsimp only
  rw [if_neg (Nat.not_le.2 hnext)]
  subst hq
  simp only [RecoveryEngine.chosenCopy, finishFields, RecoveryEngine.chosenGen, RecoveryEngine.formatCount, hch,
    Option.map_some, Option.getD_some]
  rfl

theorem writeAnchor_inPort (hn : b.journal.notice = false) (copy : AnchorCopy) (f : AnchorFields) (p : AnchorPurpose) :
    inPort (writeAnchor cfg copy f p b).mem (.anchorWrite (anchorLine cfg copy) (buildAnchor f)) (.anchor p) = true :=
  handOver_inPort (b := b.modJournal fun j => { j with anchor := { j.anchor with busy := true } }) hn _ _ _

theorem writeAnchor_frame (copy : AnchorCopy) (f : AnchorFields) (p : AnchorPurpose) (b : Blocks) : ∃ m,
    writeAnchor cfg copy f p b = { b with
      mem := m, journal := { b.journal with anchor := { b.journal.anchor with busy := true } } } := by
  obtain ⟨m, hm, _⟩ := handOver_frame (.anchorWrite (anchorLine cfg copy) (buildAnchor f)) .anchor (.anchor p)
    (b.modJournal fun j => { j with anchor := { j.anchor with busy := true } })
  exact ⟨m, hm⟩

/-- An event that writes an anchor copy while the journal is not READY. -/
theorem anchorWritten_shut {copy : AnchorCopy} {f : AnchorFields} {p : AnchorPurpose} {x : Blocks}
    (hs : b.journal.state ≠ .ready) (hn : b.journal.notice = false)
    (hx : x = finishEvent cfg (writeAnchor cfg copy f p b)) : x.recovery = b.recovery
    ∧ (∃ q r d, x.journal = { b.journal with
      captureQueue := q, reserved := r, demands := d, anchor := { b.journal.anchor with busy := true } })
    ∧ x.journal.reserved ≤ b.journal.reserved
    ∧ inPort x.mem (.anchorWrite (anchorLine cfg copy) (buildAnchor f)) (.anchor p) = true := by
  obtain ⟨m, hm⟩ := writeAnchor_frame (cfg := cfg) copy f p b
  have hshut := finishEvent_shut (cfg := cfg) (y := writeAnchor cfg copy f p b) (by rw [hm]; exact hs) (by rw [hm]; exact hn)
  rw [← hx] at hshut
  have hport := hshut.port _ (.anchor p) (fun _ => Owner.noConfusion) (writeAnchor_inPort hn copy f p)
  rw [hm] at hshut
  exact ⟨hshut.recovery, hshut.journal, hshut.reserved, hport⟩

theorem finishes_of {ch : ChosenAnchor} {q : Count32} (hs : b.journal.state ≠ .ready) (hn : b.journal.notice = false)
    (hch : b.recovery.chosen = some ch) (hq : b.recovery.endSeq = q) (ht : t.blocks = finishEvent cfg (finish cfg b)) :
    finishes cfg ch q b.recovery t := by
  have hepoch : b.recovery.nextEpoch = max ch.nextEpoch.toNat (b.recovery.largest.toNat + 1) := by
    simp only [RecoveryEngine.nextEpoch, hch, Option.map_some, Option.getD_some]
  refine ⟨fun hlast => ?_, fun hnext => ?_⟩
  · have hfail : finish cfg b = recoveryFail .epochExhausted b := if_pos (by rw [hepoch]; exact hlast)
    rw [hfail] at ht
    exact recoveryFails_of hn ht
  · rw [finish_laid hch hq (by rw [hepoch]; exact hnext), hepoch] at ht
    obtain ⟨hrecovery, ⟨c, r, d, hj⟩, hreserved, hport⟩ := anchorWritten_shut (b := (b.modRecovery fun r =>
      { r with phase := .finish, step := .idle }).modJournal (laidDown q ch.formatCount)) hs hn ht
    refine ⟨hrecovery, ?_, ?_, ?_, ?_, Nat.le_zero.1 hreserved, ?_, hport⟩
    all_goals
      rw [hj]
      rfl

/-! ## The passes (R157 to R159) -/

theorem passGoesOn_of {ch : ChosenAnchor} {q : Count32} (hs : b.journal.state ≠ .ready) (hn : b.journal.notice = false)
    (hch : b.recovery.chosen = some ch) (hq : b.recovery.endSeq = q)
    (ht : t.blocks = finishEvent cfg (restoreNext cfg b)) : passGoesOn cfg ch q b.recovery t := by
  have hwaits (step : RecoveryStep) (h : restoreNext cfg b = b.modRecovery fun r => { r with step := step }) :
      t.blocks.recovery = { b.recovery with step := step } := by
    rw [h] at ht
    rw [ht]
    exact (finishEvent_shut (y := b.modRecovery fun r => { r with step := step }) hs hn).recovery
  refine ⟨fun hleft hfull => hwaits _ ?_, fun hleft hroom => ?_, fun hnone hw => hwaits _ ?_, fun hnone hw => ?_⟩
  · obtain ⟨k, rest, hk⟩ := List.exists_cons_of_ne_nil hleft
    simp only [restoreNext, hk]
    exact if_pos hfull
  · obtain ⟨k, rest, hk⟩ := List.exists_cons_of_ne_nil hleft
    have hnext : restoreNext cfg b = readHeader cfg b := by
      simp only [restoreNext, hk]
      exact if_neg (Nat.not_le.2 hroom)
    rw [hnext] at ht
    exact readsSlot_of hn ht
  · simp only [restoreNext, hnone]
    exact if_neg hw
  · have hnext : restoreNext cfg b = finish cfg b := by
      simp only [restoreNext, hnone]
      exact if_pos hw
    rw [hnext] at ht
    exact finishes_of hs hn hch hq ht

/-- The recovery record at the end of log (R157, R158, R161). -/
def atEndOfLog (r : RecoveryEngine) : RecoveryEngine :=
  let left := r.table.filter fun x => !x.complete
  { r with
    endOfLog := some r.pos, table := left, summary := { r.summary with endOfLog := some r.pos, epochsUndone := left.length } }

/-- The recovery record at the start of the restore pass (R159). -/
def passStarted (r : RecoveryEngine) : RecoveryEngine :=
  { r with phase := .restore, pos := (r.chosen.map (·.head)).getD .zero, passed := 0, toVisit := r.found }

theorem scanEnd_eq (cfg : Image) (b : Blocks) : scanEnd cfg b =
    if (atEndOfLog b.recovery).table.isEmpty then finish cfg (b.modRecovery atEndOfLog)
    else restoreNext cfg ((b.modRecovery atEndOfLog).modRecovery passStarted) := rfl

theorem scanEnds_of {ch : ChosenAnchor} (hs : b.journal.state ≠ .ready) (hn : b.journal.notice = false)
    (hch : b.recovery.chosen = some ch) (ht : t.blocks = finishEvent cfg (scanEnd cfg b)) :
    scanEnds cfg ch b.recovery t := by
  rw [scanEnd_eq] at ht
  refine ⟨fun hnone => ?_, fun hleft => ?_⟩
  · have hempty : (atEndOfLog b.recovery).table = [] := hnone
    rw [if_pos (List.isEmpty_iff.2 hempty)] at ht
    exact finishes_of (b := b.modRecovery atEndOfLog) hs hn hch rfl ht
  · have hentries : (atEndOfLog b.recovery).table ≠ [] := hleft
    rw [if_neg fun h => hentries (List.isEmpty_iff.1 h)] at ht
    have hpass := passGoesOn_of (ch := ch) (b := (b.modRecovery atEndOfLog).modRecovery passStarted) hs hn hch rfl ht
    have hhead : ch.head = (b.recovery.chosen.map (·.head)).getD .zero := by rw [hch]; rfl
    rw [hhead]
    exact hpass

/-- The recovery record when the scan pass has taken a record (R157, R158). -/
def recordTaken (k : RecordKind) (h : LineData) (table : List RecoveryEpoch) (r : RecoveryEngine) : RecoveryEngine :=
  { r.advance k with
    table := table
    largest := if r.largest.toNat < (headerEpoch h).toNat then headerEpoch h else r.largest
    found := r.found ++ [k] }

theorem ringSize_of {ch : ChosenAnchor} (hch : b.recovery.chosen = some ch) : b.recovery.ringSize = ch.ringSize := by
  simp only [RecoveryEngine.ringSize, hch, Option.map_some, Option.getD_some]

theorem formatCount_of {ch : ChosenAnchor} (hch : b.recovery.chosen = some ch) : b.recovery.formatCount = ch.formatCount := by
  simp only [RecoveryEngine.formatCount, hch, Option.map_some, Option.getD_some]

theorem takesRecord_of {ch : ChosenAnchor} {k : RecordKind} {h : LineData} (hn : b.journal.notice = false)
    (hch : b.recovery.chosen = some ch) (ht : t.blocks = finishEvent cfg (takeRecord cfg k h b)) :
    takesRecord cfg ch b.recovery k h t := by
  unfold takeRecord at ht
  dsimp only at ht
  refine ⟨fun hnone => ?_, fun table hsome => ?_⟩
  · rw [hnone] at ht
    exact recoveryFails_of hn ht
  · rw [hsome] at ht
    have hread := readsSlot_of (b := b.modRecovery (recordTaken k h table)) hn ht
    rw [← ringSize_of hch]
    exact hread

/-! ## Requests that stay at the port -/

theorem handOver_keeps {op : MemOp} {w : Owner} (hp : inPort b.mem op w = true) (op' : MemOp) (cls : MemClass) (w' : Owner) :
    inPort (handOver op' cls w' b).mem op w = true := by
  unfold handOver
  split
  · exact hp
  · refine inPort_mono (m := b.mem) (fun r hr => ?_) ?_ hp
    · exact List.mem_append_left [⟨op', cls, w', b.mem.nextOrder⟩] hr
    · rfl

theorem recoveryFail_keeps {op : MemOp} {w : Owner} (hp : inPort b.mem op w = true) (reason : JournalReason) :
    inPort (recoveryFail reason b).mem op w = true := by
  obtain ⟨r, hr⟩ := recoveryFail_frame reason b
  rw [hr]
  exact hp

theorem finish_keeps {op : MemOp} {w : Owner} (hp : inPort b.mem op w = true) : inPort (finish cfg b).mem op w = true := by
  unfold finish
  dsimp only
  split
  · exact recoveryFail_keeps hp _
  · exact handOver_keeps (b := ((b.modRecovery _).modJournal _).modJournal _) hp _ _ _

theorem restoreNext_keeps {op : MemOp} {w : Owner} (hp : inPort b.mem op w = true) :
    inPort (restoreNext cfg b).mem op w = true := by
  unfold restoreNext
  dsimp only
  split
  · split
    · exact finish_keeps hp
    · exact hp
  · split
    · exact hp
    · exact handOver_keeps (b := b.modRecovery _) hp _ _ _

theorem recoveryFail_live (hn : b.journal.notice = false) (reason : JournalReason) :
    (recoveryFail reason b).journal.notice = false := by
  obtain ⟨r, hr⟩ := recoveryFail_frame reason b
  rw [hr]
  exact hn

theorem finish_live (hn : b.journal.notice = false) : (finish cfg b).journal.notice = false := by
  unfold finish
  dsimp only
  split
  · exact recoveryFail_live hn _
  · rw [writeAnchor, handOver_journal]
    exact hn

theorem restoreNext_live (hn : b.journal.notice = false) : (restoreNext cfg b).journal.notice = false := by
  unfold restoreNext
  dsimp only
  split
  · split
    · exact finish_live hn
    · exact hn
  · split
    · exact hn
    · rw [readHeader, recoveryRead_journal]
      exact hn

theorem restoreNext_event {op : MemOp} {w : Owner} (hn : b.journal.notice = false) (hw : recovers w = true)
    (hp : inPort b.mem op w = true) (ht : t.blocks = finishEvent cfg (restoreNext cfg b)) :
    inPort t.blocks.mem op w = true := by
  have hkeeps := restoreNext_keeps (cfg := cfg) hp
  have hlive := restoreNext_live (cfg := cfg) hn
  rw [ht]
  generalize restoreNext cfg b = x at hkeeps hlive
  exact (finishEvent_kept cfg hlive).2.2 op w hw hkeeps

theorem passRecord_keeps {k : RecordKind} {op : MemOp} {w : Owner} (hn : b.journal.notice = false) (hw : recovers w = true)
    (hp : inPort b.mem op w = true) (ht : t.blocks = finishEvent cfg (passRecord cfg k b)) :
    inPort t.blocks.mem op w = true :=
  restoreNext_event (b := b.modRecovery fun r => { r.advance k with toVisit := r.toVisit.tail }) hn hw hp ht

/-! ## The data of a read (R157, R159) -/

section Data

variable {ch : ChosenAnchor} {d h : LineData} (hs : b.journal.state ≠ .ready) (hn : b.journal.notice = false)
  (hch : b.recovery.chosen = some ch)
include hs hn hch

omit hs in
theorem readData_of (ht : t.blocks = finishEvent cfg (readData cfg d b)) :
    readsSlot cfg { b.recovery with step := .dataSlot d } .dataSlot (b.recovery.pos.advance ch.ringSize 1) t := by
  rw [← ringSize_of hch]
  exact readsSlot_of hn ht

theorem scanHeader_of (ht : t.blocks = finishEvent cfg (scanHeader cfg d b)) :
    let r := b.recovery
    let fits := r.passed < ch.ringSize ∧ headerSeq d = r.pos.seq
    (fits → headerKind d = some .undo → r.passed + 2 ≤ ch.ringSize →
      readsSlot cfg { r with step := .dataSlot d } .dataSlot (r.pos.advance ch.ringSize 1) t)
    ∧ (∀ k, fits → headerKind d = some k → k ≠ .undo → storedCheck d = headerCheck ch.formatCount d none →
      takesRecord cfg ch r k d t)
    ∧ (¬fits ∨ headerKind d = none ∨ (headerKind d = some .undo ∧ ch.ringSize < r.passed + 2)
        ∨ (headerKind d ≠ some .undo ∧ storedCheck d ≠ headerCheck ch.formatCount d none) → scanEnds cfg ch r t) := by
  dsimp only
  unfold scanHeader at ht
  dsimp only at ht
  rw [ringSize_of hch, formatCount_of hch] at ht
  refine ⟨fun hfits hkind hroom => ?_, fun k hfits hkind hmark hcheck => ?_, fun hend => ?_⟩
  · rw [if_pos hfits, hkind] at ht
    dsimp only at ht
    rw [if_pos hroom] at ht
    exact readData_of hn hch ht
  · rw [if_pos hfits, hkind] at ht
    cases k with
    | undo => exact absurd rfl hmark
    | commit =>
      dsimp only at ht
      rw [if_pos hcheck] at ht
      exact takesRecord_of hn hch ht
    | retire =>
      dsimp only at ht
      rw [if_pos hcheck] at ht
      exact takesRecord_of hn hch ht
  · refine scanEnds_of hs hn hch (ht.trans (congrArg (finishEvent cfg) ?_))
    split
    · rename_i hfits
      split
      · rfl
      · rename_i hkind
        refine if_neg fun hroom => ?_
        simp only [hkind, hfits, not_true, false_or, true_and, ne_eq, false_and, or_false, reduceCtorEq] at hend
        omega
      · rename_i k hmark hkind
        refine if_neg fun hcheck => ?_
        simp only [hkind, hfits, hcheck] at hend
        simp at hend
        exact hmark hend.1
    · rfl

theorem scanData_of (ht : t.blocks = finishEvent cfg (scanData cfg h d b)) :
    let line := lineOf (headerLine h)
    let inRing := cfg.journal.areaBase.toNat ≤ line.toNat
      ∧ line.toNat < cfg.journal.areaBase.toNat + 64 * (ch.ringSize + 2) ∧ ch.ringSize ≠ 0
    (storedCheck h ≠ headerCheck ch.formatCount h (some d) → scanEnds cfg ch b.recovery t)
    ∧ (storedCheck h = headerCheck ch.formatCount h (some d) →
      (inRing → recoveryFails .ringInconsistent t) ∧ (¬inRing → takesRecord cfg ch b.recovery .undo h t)) := by
  dsimp only
  unfold scanData at ht
  dsimp only at ht
  rw [ringSize_of hch, formatCount_of hch] at ht
  have harea (n line : Nat) : inJournalArea cfg.journal.areaBase.toNat n line = true ↔
      cfg.journal.areaBase.toNat ≤ line ∧ line < cfg.journal.areaBase.toNat + 64 * (n + 2) ∧ n ≠ 0 := by
    simp only [inJournalArea, Bool.and_eq_true, decide_eq_true_eq]
    tauto
  refine ⟨fun hcheck => ?_, fun hcheck => ⟨fun hin => ?_, fun hout => ?_⟩⟩
  · rw [if_neg hcheck] at ht
    exact scanEnds_of hs hn hch ht
  · rw [if_pos hcheck, if_pos ((harea _ _).2 hin)] at ht
    exact recoveryFails_of hn ht
  · rw [if_pos hcheck, if_neg fun h => hout ((harea _ _).1 h)] at ht
    exact takesRecord_of hn hch ht

theorem passRecord_of {q : Count32} {k : RecordKind} (hq : b.recovery.endSeq = q)
    (ht : t.blocks = finishEvent cfg (passRecord cfg k b)) : passGoesOn cfg ch q { b.recovery with
      pos := b.recovery.pos.advance ch.ringSize k.slots
      passed := b.recovery.passed + k.slots
      toVisit := b.recovery.toVisit.tail } t := by
  rw [← ringSize_of hch]
  exact passGoesOn_of (b := b.modRecovery fun r => { r.advance k with toVisit := r.toVisit.tail }) hs hn hch hq ht

theorem restoreHeader_of {q : Count32} {k : RecordKind} {rest : List RecordKind} (hq : b.recovery.endSeq = q)
    (hvisit : b.recovery.toVisit = k :: rest) (ht : t.blocks = finishEvent cfg (restoreHeader cfg d b)) :
    let r := b.recovery
    (headerKind d ≠ some k ∨ headerSeq d ≠ r.pos.seq → recoveryFails .ringInconsistent t)
    ∧ (headerKind d = some k → headerSeq d = r.pos.seq →
      let restores := k = .undo ∧ ∃ x ∈ r.table, x.epoch = headerEpoch d
      (restores → readsSlot cfg { r with step := .dataSlot d } .dataSlot (r.pos.advance ch.ringSize 1) t)
      ∧ (¬restores → passGoesOn cfg ch q { r with
        pos := r.pos.advance ch.ringSize k.slots, passed := r.passed + k.slots, toVisit := rest } t)) := by
  dsimp only
  have hrest : b.recovery.toVisit.tail = rest := by rw [hvisit, List.tail_cons]
  have hpass (k : RecordKind) (h : t.blocks = finishEvent cfg (passRecord cfg k b)) := passRecord_of hs hn hch hq h
  simp only [hrest] at hpass
  unfold restoreHeader at ht
  dsimp only at ht
  rw [hvisit, List.head?_cons] at ht
  dsimp only at ht
  refine ⟨fun hbad => ?_, fun hkind hseq => ?_⟩
  · rw [if_neg (by tauto)] at ht
    exact recoveryFails_of hn ht
  · rw [if_pos ⟨hkind, hseq⟩] at ht
    cases k with
    | undo =>
      have hany : (b.recovery.table.any fun x => decide (x.epoch = headerEpoch d)) = true ↔
          ∃ x ∈ b.recovery.table, x.epoch = headerEpoch d := by simp
      refine ⟨fun hr => ?_, fun hr => hpass _ ?_⟩
      · rw [if_pos (hany.2 hr.2)] at ht
        exact readData_of hn hch ht
      · rwa [if_neg fun h => hr ⟨rfl, hany.1 h⟩] at ht
    | commit => exact ⟨fun hr => RecordKind.noConfusion hr.1, fun _ => hpass _ ht⟩
    | retire => exact ⟨fun hr => RecordKind.noConfusion hr.1, fun _ => hpass _ ht⟩

theorem restoreData_of {q : Count32} {rest : List RecordKind} (hq : b.recovery.endSeq = q)
    (hvisit : b.recovery.toVisit = .undo :: rest) (ht : t.blocks = finishEvent cfg (restoreData cfg h d b)) :
    let r := b.recovery
    (storedCheck h ≠ headerCheck ch.formatCount h (some d) → recoveryFails .ringInconsistent t)
    ∧ (storedCheck h = headerCheck ch.formatCount h (some d) →
      inPort t.blocks.mem (.lineWrite (lineOf (headerLine h)) fullMask d) .recoveryWrite = true
      ∧ passGoesOn cfg ch q { r with
        pos := r.pos.advance ch.ringSize RecordKind.undo.slots
        passed := r.passed + RecordKind.undo.slots
        toVisit := rest
        writes := r.writes + 1 } t) := by
  dsimp only
  unfold restoreData at ht
  rw [formatCount_of hch] at ht
  refine ⟨fun hcheck => ?_, fun hcheck => ?_⟩
  · rw [if_neg hcheck] at ht
    exact recoveryFails_of hn ht
  · rw [if_pos hcheck] at ht
    have hport := handOver_inPort (b := b.modRecovery fun r => { r with writes := r.writes + 1 }) hn
      (.lineWrite (lineOf (headerLine h)) fullMask d) .restore .recoveryWrite
    have hrecovery : (handOver (.lineWrite (lineOf (headerLine h)) fullMask d) .restore .recoveryWrite
        (b.modRecovery fun r => { r with writes := r.writes + 1 })).recovery =
          { b.recovery with writes := b.recovery.writes + 1 } := by
      obtain ⟨m, hm, _⟩ := handOver_frame (.lineWrite (lineOf (headerLine h)) fullMask d) .restore .recoveryWrite
        (b.modRecovery fun r => { r with writes := r.writes + 1 })
      rw [hm]
      rfl
    have hjournal : (handOver (.lineWrite (lineOf (headerLine h)) fullMask d) .restore .recoveryWrite
        (b.modRecovery fun r => { r with writes := r.writes + 1 })).journal = b.journal := handOver_journal _ _ _ _
    generalize handOver (.lineWrite (lineOf (headerLine h)) fullMask d) .restore .recoveryWrite
      (b.modRecovery fun r => { r with writes := r.writes + 1 }) = x at ht hport hrecovery hjournal
    have hpass := passRecord_of (b := x) (by rw [hjournal]; exact hs) (by rw [hjournal]; exact hn)
      (by rw [hrecovery]; exact hch) (q := q) (by rw [hrecovery]; exact hq) ht
    rw [hrecovery] at hpass
    have hrest : b.recovery.toVisit.tail = rest := by rw [hvisit, List.tail_cons]
    exact ⟨passRecord_keeps (by rw [hjournal]; exact hn) rfl hport ht, hrest ▸ hpass⟩

end Data

end Sys2Proof.Rounds


/-! SUPPORT. Recovery's operations (R155 to R162). -/

namespace Sys2Proof.Rounds

open Sys2Proof.Machine Sys2Proof.Safety Sys2Proof.Laws Sys2Proof.Arrivals Sys2Proof.Expiries Sys2Proof.Order Sys2Proof.Resets

variable {cfg : Image} {b : Blocks} {t s : State} {d h : LineData} {what : RecoveryRead}

/-! ## What a recovery read leads to, by phase and step -/

theorem passReads_of {ch : ChosenAnchor} (hs : b.journal.state ≠ .ready) (hn : b.journal.notice = false)
    (hch : b.recovery.chosen = some ch) (ht : t.blocks = finishEvent cfg (recoveryReadData cfg what d b)) :
    passReads cfg ch b.recovery what d t := by
  unfold recoveryReadData at ht
  dsimp only at ht
  rw [if_neg (by simp [hn])] at ht
  refine ⟨fun hp hw hst => ?_, fun h hp hw hst => ?_, fun k rest hp hvisit => ⟨fun hw hst => ?_, fun h hw hst hk => ?_⟩⟩
  · rw [hp, hw, hst] at ht
    exact scanHeader_of hs hn hch ht
  · rw [hp, hw, hst] at ht
    exact scanData_of hs hn hch ht
  · rw [hp, hw, hst] at ht
    exact restoreHeader_of hs hn hch rfl hvisit ht
  · rw [hp, hw, hst] at ht
    rw [hk] at hvisit ⊢
    exact restoreData_of hs hn hch rfl hvisit ht

/-! ## The anchor step (R156) -/

/-- The format count taken from an anchor copy. -/
def formatTaken (fc : Count32) (j : JournalWriter) : JournalWriter := { j with anchor := { j.anchor with formatCount := fc } }

/-- The recovery record when the scan begins (R156). -/
def scanStarted (copy : AnchorCopy) (ch : ChosenAnchor) (r : RecoveryEngine) : RecoveryEngine :=
  { r with
    chosen := some ch
    phase := .scan
    pos := ch.head
    passed := 0
    summary := { r.summary with anchorUsed := some copy } }

theorem scanStarts_of {copy : AnchorCopy} {ch : ChosenAnchor} (hn : b.journal.notice = false) (ht : t.blocks =
    finishEvent cfg (readHeader cfg ((b.modJournal (formatTaken ch.formatCount)).modRecovery (scanStarted copy ch)))) :
    t.blocks.recovery = { scanStarted copy ch b.recovery with step := .header }
      ∧ t.blocks.journal.anchor.formatCount = ch.formatCount
      ∧ inPort t.blocks.mem (.lineRead (slotLine cfg ch.head.idx)) (.recoveryRead .header) = true := by
  obtain ⟨hrecovery, hport⟩ := readsSlot_of (pos := ch.head)
    (b := (b.modJournal (formatTaken ch.formatCount)).modRecovery (scanStarted copy ch)) hn ht
  refine ⟨hrecovery, ?_, hport⟩
  have hjournal : (readHeader cfg ((b.modJournal (formatTaken ch.formatCount)).modRecovery (scanStarted copy ch))).journal =
      formatTaken ch.formatCount b.journal := recoveryRead_journal _ _ _ _
  generalize readHeader cfg ((b.modJournal (formatTaken ch.formatCount)).modRecovery (scanStarted copy ch)) = x at ht hjournal
  obtain ⟨_, hkept, _⟩ := finishEvent_kept cfg (b := x) (by rw [hjournal]; exact hn)
  rw [← ht, hjournal] at hkept
  exact congrArg (fun j : Bool × RingPtr × AnchorState => j.2.2.formatCount) hkept

theorem anchorsJudged_of {x y : LineData} (hn : b.journal.notice = false)
    (ht : t.blocks = finishEvent cfg (judgeAnchors cfg x y b)) : anchorsJudged cfg x y t := by
  unfold judgeAnchors at ht
  refine ⟨fun hnone => ?_, fun copy hsome => ?_⟩
  · rw [hnone] at ht
    dsimp only at ht
    obtain ⟨r, hr⟩ := endRecovery_frame (.unformatted .noAnchor) .unformatted (some .noAnchor)
      (b.modJournal (formatTaken (unchosenFormatCount x y)))
    have hend : recoveryUnformatted .noAnchor (b.modJournal (formatTaken (unchosenFormatCount x y))) = _ := hr
    have hshut := finishEvent_shut (cfg := cfg)
      (y := recoveryUnformatted .noAnchor (b.modJournal (formatTaken (unchosenFormatCount x y))))
      (by rw [hend]; exact JournalState.noConfusion) (by rw [hend]; exact hn)
    have ht' : t.blocks = finishEvent cfg
      (recoveryUnformatted .noAnchor (b.modJournal (formatTaken (unchosenFormatCount x y)))) := ht
    rw [← ht', hend] at hshut
    exact ⟨hshut.state, hshut.reason, congrArg RecoveryEngine.phase hshut.recovery, hshut.pending _ (raise_pending _ _),
      congrArg AnchorState.formatCount hshut.anchor⟩
  · rw [hsome] at ht
    cases copy with
    | a =>
      obtain ⟨hrecovery, hformat, hport⟩ := scanStarts_of (ch := chosenOf .a x) hn ht
      rw [hrecovery]
      exact ⟨rfl, rfl, rfl, rfl, rfl, hformat, hport⟩
    | b =>
      obtain ⟨hrecovery, hformat, hport⟩ := scanStarts_of (ch := chosenOf .b y) hn ht
      rw [hrecovery]
      exact ⟨rfl, rfl, rfl, rfl, rfl, hformat, hport⟩

/-- The recovery record when copy A, or copy B, has been read (R156). -/
def withCopy (copy : AnchorCopy) (x : LineData) (r : RecoveryEngine) : RecoveryEngine :=
  match copy with
  | .a => { r with anchorA := some x }
  | .b => { r with anchorB := some x }

theorem anchorRead_eq (hn : b.journal.notice = false) (hp : b.recovery.phase = .anchor) (copy : AnchorCopy) (x : LineData) :
    recoveryReadData cfg (.anchor copy) x b = anchorRead cfg copy x b := by
  unfold recoveryReadData
  dsimp only
  rw [if_neg (by simp [hn]), hp]

theorem anchorRead_first {copy : AnchorCopy} {x : LineData}
    (h : (withCopy copy x b.recovery).anchorA = none ∨ (withCopy copy x b.recovery).anchorB = none) :
    anchorRead cfg copy x b = b.modRecovery (withCopy copy x) := by
  have hread : anchorRead cfg copy x b = match (withCopy copy x b.recovery).anchorA, (withCopy copy x b.recovery).anchorB with
    | some y, some z => judgeAnchors cfg y z (b.modRecovery (withCopy copy x))
    | _, _ => b.modRecovery (withCopy copy x) := rfl
  rw [hread]
  rcases h with h | h
  · rw [h]
  · rw [h]
    split <;> simp_all

theorem anchorRead_second {copy : AnchorCopy} {x y z : LineData} (ha : (withCopy copy x b.recovery).anchorA = some y)
    (hb : (withCopy copy x b.recovery).anchorB = some z) :
    anchorRead cfg copy x b = judgeAnchors cfg y z (b.modRecovery (withCopy copy x)) := by
  have hread : anchorRead cfg copy x b = match (withCopy copy x b.recovery).anchorA, (withCopy copy x b.recovery).anchorB with
    | some y, some z => judgeAnchors cfg y z (b.modRecovery (withCopy copy x))
    | _, _ => b.modRecovery (withCopy copy x) := rfl
  rw [hread, ha, hb]

theorem copyRead_first {copy : AnchorCopy} {x : LineData} (hn : b.journal.notice = false) (hp : b.recovery.phase = .anchor)
    (h : (withCopy copy x b.recovery).anchorA = none ∨ (withCopy copy x b.recovery).anchorB = none)
    (ht : t.blocks = finishEvent cfg (recoveryReadData cfg (.anchor copy) x b)) :
    t.blocks.recovery = withCopy copy x b.recovery := by
  rw [anchorRead_eq hn hp, anchorRead_first h] at ht
  rw [ht]
  exact (finishEvent_kept cfg (b := b.modRecovery (withCopy copy x)) hn).1

theorem copyRead_second {copy : AnchorCopy} {x y z : LineData} (hn : b.journal.notice = false)
    (hp : b.recovery.phase = .anchor) (ha : (withCopy copy x b.recovery).anchorA = some y)
    (hb : (withCopy copy x b.recovery).anchorB = some z)
    (ht : t.blocks = finishEvent cfg (recoveryReadData cfg (.anchor copy) x b)) : anchorsJudged cfg y z t := by
  rw [anchorRead_eq hn hp, anchorRead_second ha hb] at ht
  exact anchorsJudged_of (b := b.modRecovery (withCopy copy x)) hn ht

/-! ## The ends of recovery operations -/

theorem recoveryReadEnd_failed (hp : b.recovery.phase ≠ .ended) (st : DownStatus) :
    recoveryReadEnd cfg what (.failed st) b = recoveryFail .recoveryReadFailed b := if_neg hp

theorem recoveryWriteEnd_failed (hp : b.recovery.phase ≠ .ended) (st : DownStatus) :
    recoveryWriteEnd cfg (.failed st) b = recoveryFail .recoveryWriteFailed b := if_neg hp

/-- The recovery record when a restore write has persisted (R159). -/
def writeCounted (r : RecoveryEngine) : RecoveryEngine :=
  { r with writes := r.writes - 1, summary := { r.summary with linesRestored := r.summary.linesRestored + 1 } }

theorem recoveryWriteEnd_persisted (hp : b.recovery.phase ≠ .ended) (hn : b.journal.notice = false) :
    recoveryWriteEnd cfg .persisted b =
      if b.recovery.step = .writesFull ∨ b.recovery.step = .lastWrites then restoreNext cfg (b.modRecovery writeCounted)
      else b.modRecovery writeCounted := by
  unfold recoveryWriteEnd recoveryWriteDone
  dsimp only
  rw [if_neg hp]
  have hjournal : (b.modRecovery writeCounted).journal.notice = false := hn
  cases hstep : b.recovery.step <;> simp [hstep, Blocks.modRecovery, hn, writeCounted]

theorem restoreNext_lines (cfg : Image) (b : Blocks) :
    (restoreNext cfg b).recovery.summary.linesRestored = b.recovery.summary.linesRestored := by
  unfold restoreNext
  dsimp only
  split
  · split
    · unfold finish
      dsimp only
      split
      · obtain ⟨r, hr⟩ := recoveryFail_frame .epochExhausted b
        rw [hr]
      · obtain ⟨m, hm⟩ := writeAnchor_frame (cfg := cfg) b.recovery.chosenCopy.other
          (finishFields cfg b.recovery (b.recovery.chosenGen + 1)) .finishFirst
          ((b.modRecovery fun r => { r with phase := .finish, step := .idle }).modJournal
            (laidDown b.recovery.endSeq b.recovery.formatCount))
        exact (congrArg (fun x : Blocks => x.recovery.summary.linesRestored) hm).trans rfl
    · rfl
  · split
    · rfl
    · rw [readHeader, recoveryRead_recovery]

theorem writeCounted_of {ch : ChosenAnchor} (hs : b.journal.state ≠ .ready) (hn : b.journal.notice = false)
    (hp : b.recovery.phase ≠ .ended) (hch : b.recovery.chosen = some ch)
    (ht : t.blocks = finishEvent cfg (recoveryWriteEnd cfg .persisted b)) :
    (b.recovery.step = .writesFull ∨ b.recovery.step = .lastWrites →
      passGoesOn cfg ch ((b.recovery.endOfLog.map (·.seq)).getD 0) (writeCounted b.recovery) t)
    ∧ (b.recovery.step ≠ .writesFull → b.recovery.step ≠ .lastWrites → t.blocks.recovery = writeCounted b.recovery) := by
  rw [recoveryWriteEnd_persisted hp hn] at ht
  refine ⟨fun hwait => ?_, fun hfull hlast => ?_⟩
  · rw [if_pos hwait] at ht
    exact passGoesOn_of (b := b.modRecovery writeCounted) hs hn hch rfl ht
  · rw [if_neg (not_or.2 ⟨hfull, hlast⟩)] at ht
    rw [ht]
    exact (finishEvent_kept cfg (b := b.modRecovery writeCounted) hn).1

theorem lineCounted_of (hn : b.journal.notice = false) (hp : b.recovery.phase ≠ .ended)
    (ht : t.blocks = finishEvent cfg (recoveryWriteEnd cfg .persisted b)) :
    t.blocks.recovery.summary.linesRestored = b.recovery.summary.linesRestored + 1 := by
  rw [recoveryWriteEnd_persisted hp hn] at ht
  rw [ht]
  split
  · have hlines := restoreNext_lines cfg (b.modRecovery writeCounted)
    have hlive := restoreNext_live (cfg := cfg) (b := b.modRecovery writeCounted) hn
    generalize restoreNext cfg (b.modRecovery writeCounted) = x at hlines hlive
    rw [(finishEvent_kept cfg hlive).1]
    exact hlines
  · rw [(finishEvent_kept cfg (b := b.modRecovery writeCounted) hn).1]
    rfl

/-! ## The events -/

section Event

variable {id : OpId} {o : Outstanding}

theorem after_blocks (s : State) (b : Blocks) : (after s b).blocks = b := rfl

theorem exec_completion {cmd : Instr} {k : Completion} {e : OpEnd} (hup : s.pins.resetLow = false)
    (hm : s.blocks.mem.matching id = some o) (hc : completionOf cmd = some (id, k)) (he : endOf o.op k = e) :
    exec cmd s = .next (after s (finishEvent s.mgmt.active (handBack s.mgmt.active o e (freeSlot id.slot s.blocks)))) := by
  rw [Completions.exec_of_completionOf hc, RestoreReads.complete_event hup hm, he]

theorem endOf_write {op : MemOp} {l : Addr} (h : op.writeLine = some l) :
    endOf op .persisted = .persisted ∧ endOf op .error = .failed .error := by
  cases op <;> simp_all [MemOp.writeLine, endOf]

theorem recoveryRead_ends (hup : s.pins.resetLow = false) (hm : s.blocks.mem.matching id = some o) {l : Addr}
    (hop : o.op = .lineRead l) (how : o.owner = .recoveryRead what) :
    (∃ t, exec (.recoveryReadDone id (.data d)) s = .next t
      ∧ t.blocks = finishEvent s.mgmt.active (recoveryReadData s.mgmt.active what d (freeSlot id.slot s.blocks)))
    ∧ ∃ t, exec (.recoveryReadDone id .error) s = .next t ∧ t.blocks =
      finishEvent s.mgmt.active (recoveryReadEnd s.mgmt.active what (.failed .error) (freeSlot id.slot s.blocks)) := by
  have hdata := exec_completion hup hm (cmd := .recoveryReadDone id (.data d)) rfl (e := .data d) (by rw [hop]; rfl)
  have herror := exec_completion hup hm (cmd := .recoveryReadDone id .error) rfl (e := .failed .error) (by rw [hop]; rfl)
  have hback (e : OpEnd) : handBack s.mgmt.active o e (freeSlot id.slot s.blocks) =
      recoveryReadEnd s.mgmt.active what e (freeSlot id.slot s.blocks) := by
    unfold handBack
    rw [how]
  rw [hback] at hdata herror
  exact ⟨⟨_, hdata, by rw [after_blocks]; rfl⟩, ⟨_, herror, after_blocks _ _⟩⟩

theorem recoveryWrite_ends (hup : s.pins.resetLow = false) (hm : s.blocks.mem.matching id = some o) {l : Addr}
    (hop : o.op.writeLine = some l) (how : o.owner = .recoveryWrite) :
    (∃ t, exec (.recoveryWriteDone id .persisted) s = .next t
      ∧ t.blocks = finishEvent s.mgmt.active (recoveryWriteEnd s.mgmt.active .persisted (freeSlot id.slot s.blocks)))
    ∧ ∃ t, exec (.recoveryWriteDone id .error) s = .next t
      ∧ t.blocks = finishEvent s.mgmt.active (recoveryWriteEnd s.mgmt.active (.failed .error) (freeSlot id.slot s.blocks)) := by
  have hdone := exec_completion hup hm (cmd := .recoveryWriteDone id .persisted) rfl (endOf_write hop).1
  have herror := exec_completion hup hm (cmd := .recoveryWriteDone id .error) rfl (endOf_write hop).2
  have hback (e : OpEnd) : handBack s.mgmt.active o e (freeSlot id.slot s.blocks) =
      recoveryWriteEnd s.mgmt.active e (freeSlot id.slot s.blocks) := by
    unfold handBack
    rw [how]
  rw [hback] at hdone herror
  exact ⟨⟨_, hdone, after_blocks _ _⟩, ⟨_, herror, after_blocks _ _⟩⟩

end Event

/-- Settles O57. -/
theorem recoveryOperationsAdvanceRecovery : Obligations.RecoveryOperationsAdvanceRecovery := by
  refine ⟨Tables.tableRows_all, Tables.anchorRows_all, fun id o ch s hup hn hs hm hp hch => ?_, fun id o d s hup hn hm hp => ?_⟩
  · have hready : s.blocks.journal.state ≠ .ready := by simp [hs]
    refine ⟨fun l what d hop how => ?_, fun l hop how => ?_⟩
    · obtain ⟨⟨t, hexec, ht⟩, _⟩ := recoveryRead_ends hup hm hop how (d := d)
      exact ⟨t, hexec, passReads_of (b := freeSlot id.slot s.blocks) hready hn hch ht⟩
    · obtain ⟨⟨t, hexec, ht⟩, _⟩ := recoveryWrite_ends hup hm hop how
      exact ⟨t, hexec, writeCounted_of (b := freeSlot id.slot s.blocks) hready hn hp hch ht⟩
  · refine ⟨fun l hop => ⟨fun how hphase => ?_, fun how hphase => ?_, fun ⟨what, how⟩ => ?_⟩, fun l hop how => ⟨?_, ?_⟩⟩
    · obtain ⟨⟨t, hexec, ht⟩, _⟩ := recoveryRead_ends hup hm hop how (d := d)
      exact ⟨t, hexec, fun hb => copyRead_first (copy := .a) (x := d) (b := freeSlot id.slot s.blocks) hn hphase (.inr hb) ht,
        fun y hy => copyRead_second (copy := .a) (x := d) (b := freeSlot id.slot s.blocks) hn hphase rfl hy ht⟩
    · obtain ⟨⟨t, hexec, ht⟩, _⟩ := recoveryRead_ends hup hm hop how (d := d)
      exact ⟨t, hexec, fun ha => copyRead_first (copy := .b) (x := d) (b := freeSlot id.slot s.blocks) hn hphase (.inl ha) ht,
        fun x hx => copyRead_second (copy := .b) (x := d) (b := freeSlot id.slot s.blocks) hn hphase hx rfl ht⟩
    · obtain ⟨_, t, hexec, ht⟩ := recoveryRead_ends hup hm hop how (d := d)
      rw [recoveryReadEnd_failed (b := freeSlot id.slot s.blocks) hp] at ht
      exact ⟨t, hexec, recoveryFails_of (b := freeSlot id.slot s.blocks) hn ht⟩
    · obtain ⟨⟨t, hexec, ht⟩, _⟩ := recoveryWrite_ends hup hm hop how
      exact ⟨t, hexec, lineCounted_of (b := freeSlot id.slot s.blocks) hn hp ht⟩
    · obtain ⟨_, t, hexec, ht⟩ := recoveryWrite_ends hup hm hop how
      rw [recoveryWriteEnd_failed (b := freeSlot id.slot s.blocks) hp] at ht
      obtain ⟨hstate, hreason, _⟩ := recoveryFails_of (b := freeSlot id.slot s.blocks) hn ht
      exact ⟨t, hexec, hstate, hreason⟩

end Sys2Proof.Rounds


/-! SUPPORT. APPLY (R61, R168, R169). -/

namespace Sys2Proof.Rounds

open Sys2Proof.Machine Sys2Proof.Safety Sys2Proof.Laws Sys2Proof.Arrivals Sys2Proof.Expiries Sys2Proof.Order Sys2Proof.Resets

variable {s : State} {q : Byte}

theorem geometryDiffers_iff (a b : Image) : geometryDiffers a b = true ↔
    a.journal.areaBase ≠ b.journal.areaBase ∨ a.journal.ringSize ≠ b.journal.ringSize := by
  simp [geometryDiffers]

theorem ringEmpty_iff (j : JournalWriter) : j.ringEmpty = true ↔ j.live = [] ∧ j.staging = [] ∧ j.anchor.busy = false := by
  simp [JournalWriter.ringEmpty, and_assoc]

theorem allIdle_iff (b : Blocks) : b.allIdle = true ↔ ∀ c, (b.ctx c).state = .idle := by
  simp only [Blocks.allIdle, List.all_eq_true, decide_eq_true_eq]
  exact ⟨fun h c => h c (mem_allCtxs c), fun h c _ => h c⟩

theorem applyRefused_iff (s : State) : applyRefused s.mgmt s.blocks = true ↔ applyBarred s := by
  have hidle : s.blocks.allIdle = false ↔ ∃ c, (s.blocks.ctx c).state ≠ .idle := by
    rw [← Bool.not_eq_true, allIdle_iff, not_forall]
  have hring : s.blocks.journal.ringEmpty = false ↔ ¬(s.blocks.journal.live = [] ∧ s.blocks.journal.staging = []
      ∧ s.blocks.journal.anchor.busy = false) := by
    rw [← Bool.not_eq_true, ringEmpty_iff]
  unfold applyRefused applyBarred
  simp only [Bool.or_eq_true, Bool.and_eq_true, decide_eq_true_eq, Bool.not_eq_true', geometryDiffers_iff, hidle, hring, and_assoc, or_assoc]

/-- What a change of geometry leaves of a READY journal (R61, R80). -/
theorem regeometry_applied {old new : Image} {b : Blocks} (hdiffers : geometryDiffers old new = true)
    (hs : b.journal.state = .ready) (hn : b.journal.notice = false) :
    (applyEffect old new b).journal.state = .unformatted ∧ (applyEffect old new b).journal.pause = false
      ∧ (applyEffect old new b).journal.reason =
        some (if new.journal.ringSize = 0 then JournalReason.noArea else .geometryChanged) := by
  have hring : new.ringN = 0 ↔ new.journal.ringSize = 0 := by
    rw [Image.ringN, ← BitVec.toNat_inj]
    rfl
  have hre : ∃ r, regeometry new b = { b with req := r, journal := { b.journal with
      state := .unformatted
      reason := some (if new.journal.ringSize = 0 then JournalReason.noArea else .geometryChanged)
      pause := false } } := by
    unfold regeometry
    rw [if_pos hs]
    simp only [hring]
    obtain ⟨r, hr⟩ := wake_frame (fun _ _ _ => true) (b.modJournal fun j => { j with
      state := .unformatted
      reason := some (if new.journal.ringSize = 0 then JournalReason.noArea else .geometryChanged)
      pause := false })
    exact ⟨r, hr⟩
  obtain ⟨r, hr⟩ := hre
  have heffect : applyEffect old new b = finishEvent new (regeometry new b) := by
    unfold applyEffect
    dsimp only
    rw [if_pos hdiffers]
    have hpause : evalPause new (regeometry new b) = regeometry new b := by
      unfold evalPause
      rw [hr]
      exact if_pos JournalState.noConfusion
    have hanchor : anchorCheck new (regeometry new b) = regeometry new b := by
      unfold anchorCheck
      rw [hr]
      exact if_neg (by simp [anchorDue])
    rw [hpause, hanchor]
  have hshut := finishEvent_shut (cfg := new) (y := regeometry new b) (by rw [hr]; exact JournalState.noConfusion)
    (by rw [hr]; exact hn)
  rw [← heffect, hr] at hshut
  exact ⟨hshut.state, hshut.pause, hshut.reason⟩

/-- Settles O29. -/
theorem applyMakesTheStagedImageActive : Obligations.ApplyMakesTheStagedImageActive := by
  intro q s hup hn
  have htake : exec (.apply q []) s = .next (if applyRefused s.mgmt s.blocks then respond q .refusedState .empty s
      else match failingItem s.mgmt.staged with
      | some item => respond q .invalid (.invalidItem item.code) s
      | none => respond q .ok .empty (applied s)) := by
    refine congrArg Host.Outcome.next ((Port.managed_up hup _).trans ?_)
    exact Port.untilNotice_before hn q _
  rw [htake]
  refine ⟨fun hbar => by rw [if_pos ((applyRefused_iff s).2 hbar)], fun hbar => ?_⟩
  rw [if_neg fun h => hbar ((applyRefused_iff s).1 h)]
  refine ⟨fun item hitem => by rw [hitem], fun hgood => ⟨respond q .ok .empty (applied s), by rw [hgood], ?_⟩⟩
  by_cases hsame : s.mgmt.staged = s.mgmt.active
  · have happlied : applied s = s := if_pos hsame
    rw [happlied]
    refine ⟨by rw [hsame]; rfl, rfl, rfl, fun _ => rfl, fun hgeo => ?_⟩
    rw [hsame] at hgeo
    simp at hgeo
  · have happlied : applied s = { s with
        mgmt := { s.mgmt with active := s.mgmt.staged }
        blocks := applyEffect s.mgmt.active s.mgmt.staged s.blocks } := if_neg hsame
    rw [happlied]
    dsimp only [respond]
    refine ⟨rfl, rfl, rfl, fun h => absurd h hsame, fun hgeo hready => ?_⟩
    refine regeometry_applied ((geometryDiffers_iff _ _).2 (hgeo.imp Ne.symm Ne.symm)) hready hn

end Sys2Proof.Rounds


/-! SUPPORT. FORMAT (R38, R84, R99, R123). -/

namespace Sys2Proof.Rounds

open Sys2Proof.Machine Sys2Proof.Safety Sys2Proof.Laws Sys2Proof.Arrivals Sys2Proof.Expiries Sys2Proof.Order Sys2Proof.Resets

variable {cfg : Image} {b : Blocks} {s : State} {q : Byte} {i : StreamId}

/-! ## Lines that are freed -/

theorem lineFreed_frame (l : Addr) (b : Blocks) : ∃ r, lineFreed l b = { b with req := r } := ⟨(lineFreed l b).req, rfl⟩

theorem removeEntries_frame (p : TrackEntry → Bool) (b : Blocks) :
    ∃ r, removeEntries p b = { b with req := r, track := b.track.filter fun e => !p e } := by
  unfold removeEntries
  generalize b.track.filter p = l
  suffices h : ∀ x : Blocks, ∃ r, l.foldl (fun b e => lineFreed e.line b) x = { x with req := r } by
    obtain ⟨r, hr⟩ := h (b.modTrack fun t => t.filter fun e => !p e)
    exact ⟨r, hr⟩
  induction l with
  | nil => exact fun x => ⟨x.req, rfl⟩
  | cons e l ih =>
    intro x
    obtain ⟨r, hr⟩ := lineFreed_frame e.line x
    obtain ⟨r', hr'⟩ := ih (lineFreed e.line x)
    rw [hr] at hr'
    exact ⟨r', (by rw [List.foldl_cons, hr]; exact hr')⟩

/-- A stream without a wait record, and not stalled, is left as it is when a line is freed. -/
theorem lineFreed_stream {l : Addr} (hc : (b.stream i).conflict = none) (hs : ∀ cause, (b.stream i).phase ≠ .stalled cause) :
    (lineFreed l b).stream i = b.stream i := by
  unfold lineFreed wakeRestoring
  refine (wake_stream _ fun cause h => ?_).trans ?_
  · simp only [Blocks.mapStreams_stream, hc] at h
    exact absurd h (hs cause)
  · simp only [Blocks.mapStreams_stream, hc]

theorem removeEntries_stream (p : TrackEntry → Bool) (hc : (b.stream i).conflict = none)
    (hs : ∀ cause, (b.stream i).phase ≠ .stalled cause) : (removeEntries p b).stream i = b.stream i := by
  unfold removeEntries
  generalize b.track.filter p = l
  suffices h : ∀ x : Blocks, x.stream i = b.stream i → (l.foldl (fun b e => lineFreed e.line b) x).stream i = b.stream i from
    h _ rfl
  induction l with
  | nil => exact fun _ h => h
  | cons e l ih =>
    intro x h
    have hfreed := lineFreed_stream (b := x) (l := e.line) (by rw [h]; exact hc) (by rw [h]; exact hs)
    exact ih _ (hfreed.trans h)

/-! ## Requests that are handed over -/

theorem handOver_port (hn : b.journal.notice = false) (op : MemOp) (cls : MemClass) (w : Owner) :
    ∃ m, handOver op cls w b = { b with mem := m } ∧ m.slots = b.mem.slots ∧ inPort m op w = true := by
  obtain ⟨m, hm, hslots⟩ := handOver_frame op cls w b
  have hport := handOver_inPort hn op cls w
  rw [hm] at hport
  exact ⟨m, hm, hslots, hport⟩

theorem writeAnchor_port (hn : b.journal.notice = false) (copy : AnchorCopy) (f : AnchorFields) (p : AnchorPurpose) :
    ∃ m, writeAnchor cfg copy f p b = { b with
      mem := m, journal := { b.journal with anchor := { b.journal.anchor with busy := true } } }
    ∧ m.slots = b.mem.slots ∧ inPort m (.anchorWrite (anchorLine cfg copy) (buildAnchor f)) (.anchor p) = true :=
  handOver_port (b := b.modJournal fun j => { j with anchor := { j.anchor with busy := true } }) hn _ _ _

/-! ## What FORMAT leaves -/

theorem restoreDetached_eq (o : Outstanding) : detachedOfRestore o = restoreDetached o := rfl

/-- What FORMAT leaves before the empty ring is laid down (R38, R99, R123). -/
def detachedBlocks (b : Blocks) : Blocks :=
  reown ownerAtFormat (detachAll (discardHeld (fun h => decide (h.state ≠ .issued)) (some .contextFaulted)
    (withdraw (fun r => r.owner.ofJournal) b)))

theorem detachedBlocks_frame (b : Blocks) : ∃ r m, detachedBlocks b = { b with
      req := r
      mem := m
      held := { b.held with
        entries := []
        detached := b.held.detached ++ (b.held.entries.filter fun h => decide (h.state = .issued)).map
          (fun h => ⟨h.line, h.mask, h.data, h.contributors⟩) ++ b.mem.ops.filterMap restoreDetached } }
    ∧ ∀ k : SlotNo, m.slots[k] = (b.mem.slots[k]).map fun o => { o with owner := ownerAtFormat o.owner } := by
  obtain ⟨r, m, hd, hslots, _⟩ := discardHeld_frame (fun h => decide (h.state ≠ .issued)) (some .contextFaulted)
    (withdraw (fun r => r.owner.ofJournal) b)
  have hissued : (b.held.entries.filter fun e => !decide (e.state ≠ .issued)).filter (fun e => decide (e.state = .issued)) =
      b.held.entries.filter fun e => decide (e.state = .issued) := by
    rw [List.filter_filter]
    exact List.filter_congr fun e _ => by by_cases h : e.state = .issued <;> simp [h]
  have hops : m.ops = b.mem.ops := ops_congr hslots
  refine ⟨r, (reown ownerAtFormat { b with mem := m }).mem, ?_, fun k => ?_⟩
  · unfold detachedBlocks
    rw [hd]
    unfold detachAll
    dsimp only [Blocks.modHeld, withdraw, Blocks.modMem]
    rw [hops, hissued]
    rfl
  · refine (reown_slot _ _ k).trans ?_
    exact congrArg (fun v : Vector (Option Outstanding) 32 => (v[k]).map fun o => { o with owner := ownerAtFormat o.owner }) hslots

theorem detachedBlocks_stream (hi : idleStream (b.stream i) = true) : (detachedBlocks b).stream i =
    afterDiscard i (b.held.entries.filter fun h => decide (h.state ≠ .issued)) (b.stream i) := by
  have hphase : ((withdraw (fun r => r.owner.ofJournal) b).stream i).phase ≠ .stalled .heldFull := by
    have : ((withdraw (fun r => r.owner.ofJournal) b).stream i).phase = .idle := phase_of_idleStream hi
    rw [this]
    exact Phase.noConfusion
  exact (discardHeld_stream hphase).trans (afterLoss_eq _ _ _ _).symm

/-- The empty ring is laid down, before copy A is written (R84). -/
def ringLaid (b : Blocks) : Blocks :=
  wakeAll ((endEpochs (removeEntries (fun _ => true) (detachedBlocks b))).modJournal fun j =>
    j.formatted (anchorOutstanding b))

theorem format_eq (cfg : Image) (b : Blocks) :
    format cfg b = if anchorOutstanding b then ringLaid b else formatCopyA cfg (ringLaid b) := rfl

/-- The epochs after FORMAT (R38). -/
def epochsEnded (e : EpochController) : EpochController :=
  ⟨Vector.ofFn fun c => Context.ended e.ctxs[c].abortOutcome, 1⟩

/-- The held writes and the detached writes after FORMAT (R99, R123). -/
def heldDetached (b : Blocks) : HeldQueue :=
  { b.held with
    entries := []
    detached := b.held.detached ++ (b.held.entries.filter fun h => decide (h.state = .issued)).map
      (fun h => ⟨h.line, h.mask, h.data, h.contributors⟩) ++ b.mem.ops.filterMap restoreDetached }

theorem ringLaid_frame (b : Blocks) : ∃ r m, ringLaid b = { b with
      req := r
      mem := m
      held := heldDetached b
      track := []
      epochs := epochsEnded b.epochs
      journal := b.journal.formatted (anchorOutstanding b) }
    ∧ ∀ k : SlotNo, m.slots[k] = (b.mem.slots[k]).map fun o => { o with owner := ownerAtFormat o.owner } := by
  obtain ⟨r, m, hd, hslots⟩ := detachedBlocks_frame b
  obtain ⟨r', hr'⟩ := removeEntries_frame (fun _ => true) (detachedBlocks b)
  obtain ⟨r'', hr''⟩ := wake_frame (fun _ _ _ => true) ((endEpochs (removeEntries (fun _ => true) (detachedBlocks b))).modJournal
    fun j => j.formatted (anchorOutstanding b))
  refine ⟨r'', m, ?_, hslots⟩
  have hlaid : ringLaid b = _ := hr''
  rw [hlaid, hr', hd]
  have hnone : (b.track.filter fun _ => !true) = [] := by simp
  dsimp only [endEpochs, Blocks.modJournal]
  rw [hnone]
  rfl

theorem ringLaid_stream (hi : idleStream (b.stream i) = true) : (ringLaid b).stream i =
    afterDiscard i (b.held.entries.filter fun h => decide (h.state ≠ .issued)) (b.stream i) := by
  have hd := detachedBlocks_stream hi
  have hphase : ((detachedBlocks b).stream i).phase = .idle := by
    rw [hd]
    exact phase_of_idleStream hi
  have hconflict : ((detachedBlocks b).stream i).conflict = none := by
    rw [hd]
    simp only [idleStream, Bool.and_eq_true, decide_eq_true_eq] at hi
    exact hi.1.2
  have hremoved := removeEntries_stream (fun _ => true) hconflict (by simp [hphase])
  rw [hd] at hremoved
  unfold ringLaid wakeAll
  refine (wake_stream _ fun cause h => ?_).trans hremoved
  have : (afterDiscard i (b.held.entries.filter fun h => decide (h.state ≠ .issued)) (b.stream i)).phase = .stalled cause := by
    rw [← hremoved]
    exact h
  have hidle : (afterDiscard i (b.held.entries.filter fun h => decide (h.state ≠ .issued)) (b.stream i)).phase = .idle :=
    phase_of_idleStream hi
  rw [hidle] at this
  cases this

/-- The journal that FORMAT leaves (R84). -/
def formattedJournal (b : Blocks) : JournalWriter :=
  { b.journal.formatted (anchorOutstanding b) with
    anchor := { (b.journal.formatted (anchorOutstanding b)).anchor with busy := true } }

/-- The blocks after FORMAT, with given stream records and a given Memory Port. -/
def formattedBlocks (b : Blocks) (r : RequestPort) (m : MemoryPort) : Blocks :=
  { b with
    req := r
    mem := m
    held := heldDetached b
    track := []
    epochs := epochsEnded b.epochs
    journal := formattedJournal b }

/-- What FORMAT leaves, with copy A at the port unless an anchor write is left to end (R84). -/
theorem format_frame (cfg : Image) (hn : b.journal.notice = false) : ∃ r m, format cfg b = formattedBlocks b r m
    ∧ (∀ k : SlotNo, m.slots[k] = (b.mem.slots[k]).map fun o => { o with owner := ownerAtFormat o.owner })
    ∧ (∀ i, idleStream (b.stream i) = true → r.streams[i] =
      afterDiscard i (b.held.entries.filter fun h => decide (h.state ≠ .issued)) (b.stream i))
    ∧ (anchorOutstanding b = false → inPort m (.anchorWrite (anchorLine cfg .a)
      (buildAnchor ⟨1, 0, 0, 1, cfg.journal.ringSize, b.journal.anchor.formatCount + 1⟩)) (.anchor .formatA) = true) := by
  obtain ⟨r, m, hlaid, hslots⟩ := ringLaid_frame b
  have hstreams (i : StreamId) (hi : idleStream (b.stream i) = true) : r.streams[i] =
      afterDiscard i (b.held.entries.filter fun h => decide (h.state ≠ .issued)) (b.stream i) := by
    rw [← ringLaid_stream hi, hlaid]
    rfl
  rw [format_eq, hlaid]
  split
  · rename_i hwaits
    refine ⟨r, m, ?_, hslots, hstreams, fun h => absurd (h.symm.trans hwaits) Bool.noConfusion⟩
    unfold formattedBlocks formattedJournal JournalWriter.formatted
    rw [hwaits]
  · rename_i hwaits
    rw [Bool.not_eq_true] at hwaits
    obtain ⟨m', hm, hslots', hport⟩ := writeAnchor_port (cfg := cfg) (b := { b with
      req := r, mem := m, held := heldDetached b, track := [], epochs := epochsEnded b.epochs
      journal := { b.journal.formatted (anchorOutstanding b) with formatWaits := false } }) hn .a
      ⟨1, 0, 0, 1, cfg.journal.ringSize, b.journal.anchor.formatCount + 1⟩ .formatA
    refine ⟨r, m', ?_, fun k => ?_, hstreams, fun _ => hport⟩
    · unfold formattedBlocks formattedJournal
      refine Eq.trans hm ?_
      unfold JournalWriter.formatted
      rw [hwaits]
    · rw [hslots']
      exact hslots k

/-! ## The event -/

theorem epochsEnded_ctx {y : Blocks} (h : y.epochs = epochsEnded b.epochs) (c : CtxId) :
    y.ctx c = { Context.reset with abortOutcome := (b.ctx c).abortOutcome } := by
  rw [Blocks.ctx, h, epochsEnded, Fin.getElem_fin, Vector.getElem_ofFn]
  rfl

/-- A stream that held no request ends with its discarded writes settled. -/
theorem idleStream_afterDiscard {r : StreamRec} (h : idleStream r = true) (es : List HeldEntry) :
    idleStream (afterDiscard i es r) = true := h

theorem formatAllowed_iff (b : Blocks) : formatAllowed b = true ↔ b.journal.state = .unformatted ∨ b.journal.state = .failed
    ∨ (b.journal.state = .ready ∧ ∀ c, (b.ctx c).state = .idle) := by
  simp only [formatAllowed, Bool.or_eq_true, Bool.and_eq_true, decide_eq_true_eq, allIdle_iff, or_assoc]

/-- What the event in which FORMAT is taken leaves. -/
theorem format_event (hn : b.journal.notice = false) {t : Blocks} (ht : t = finishEvent cfg (format cfg b)) :
    (∃ q, t.journal = { formattedJournal b with captureQueue := q })
    ∧ t.track = [] ∧ t.held.entries = [] ∧ t.epochs.counter = 1
    ∧ (∀ c, t.ctx c = { Context.reset with abortOutcome := (b.ctx c).abortOutcome })
    ∧ t.held.detached = (heldDetached b).detached
    ∧ (∀ (k : SlotNo) o, b.mem.slots[k] = some o → t.mem.slots[k] = some { o with owner := ownerAtFormat o.owner })
    ∧ (∀ i, idleStream (b.stream i) = true → t.stream i =
      afterDiscard i (b.held.entries.filter fun h => decide (h.state ≠ .issued)) (b.stream i))
    ∧ (anchorOutstanding b = false → inPort t.mem (.anchorWrite (anchorLine cfg .a)
      (buildAnchor ⟨1, 0, 0, 1, cfg.journal.ringSize, b.journal.anchor.formatCount + 1⟩)) (.anchor .formatA) = true) := by
  obtain ⟨r, m, hformat, hslots, hstreams, hport⟩ := format_frame cfg hn
  generalize format cfg b = y at ht hformat
  have hnotready : y.journal.state ≠ .ready := by
    rw [hformat]
    exact JournalState.noConfusion
  obtain ⟨x, hclosed, hgrown⟩ := finishEvent_closed (cfg := cfg) hnotready (by rw [hformat]; exact hn)
  rw [← ht] at hgrown
  rw [hformat] at hclosed
  have hgrants := hgrown.grants
  have hended (c : CtxId) : (formattedBlocks b r m).ctx c =
        { Context.reset with abortOutcome := (b.ctx c).abortOutcome } := epochsEnded_ctx rfl c
  have hsettled (c : CtxId) : settledCtx ((formattedBlocks b r m).ctx c) := by
    rw [hended]
    exact .inl rfl
  obtain ⟨q, n, d, p, hj, hpause⟩ := hclosed.journal
  have hreserved : x.journal.reserved = 0 := Nat.le_zero.1 hclosed.reserved
  have hdemands : x.journal.demands = [] := by
    refine List.eq_nil_iff_forall_not_mem.2 fun e he => ?_
    rcases hclosed.demands e he with h | ⟨y, h, _⟩
    · cases h
    · cases h
  obtain ⟨_, hxslots, _⟩ := ports_iff.1 hclosed.ports
  refine ⟨⟨q, ?_⟩, ?_, ?_, ?_, fun c => ?_, ?_, fun k o ho => ?_, fun i hi => ?_, fun hwaits => ?_⟩
  · rw [hgrants.journal]
    rw [hj] at hreserved hdemands ⊢
    obtain rfl : n = 0 := hreserved
    obtain rfl : d = [] := hdemands
    rw [hpause JournalState.noConfusion]
    rfl
  · rw [hgrants.track]
    exact hclosed.track hsettled
  · have hentries := hgrants.entries
    rw [hclosed.entries] at hentries
    exact List.map_eq_nil_iff.1 hentries
  · rw [hgrants.epochs]
    exact hclosed.counter
  · rw [Blocks.ctx, hgrants.epochs]
    exact (hclosed.ctx c (hsettled c)).trans (hended c)
  · rw [hgrants.detached]
    exact hclosed.detached
  · refine hgrown.slots k _ ?_
    rw [hxslots]
    exact (hslots k).trans (by rw [ho]; rfl)
  · have hidle : idleStream r.streams[i] = true := by
      rw [hstreams i hi]
      exact idleStream_afterDiscard hi _
    rw [Blocks.stream, hgrants.req]
    exact (hclosed.streams i hidle).trans (hstreams i hi)
  · exact hgrown.port _ _ (fun _ => Owner.noConfusion) (hclosed.inPort (hport hwaits))

/-- Settles O36. -/
theorem formatLaysDownAnEmptyRing : Obligations.FormatLaysDownAnEmptyRing := by
  intro q s hup hn
  dsimp only
  have htake : exec (.format q []) s = .next (if !formatAllowed s.blocks then respond q .refusedState .empty s
      else if s.mgmt.active.ringN = 0 then respond q .invalid (.invalidItem Item.journal.code) s
      else startWork q .started s (format s.mgmt.active)) := by
    refine congrArg Host.Outcome.next ((Port.managed_up hup _).trans ?_)
    exact Port.untilNotice_before hn q _
  rw [htake, ← formatAllowed_iff]
  have hring : s.mgmt.active.ringN = 0 ↔ s.mgmt.active.journal.ringSize = 0 := by
    rw [Image.ringN, ← BitVec.toNat_inj]
    rfl
  refine ⟨fun hbar => ?_, fun hallowed hnone => ?_, fun hallowed hsome => ?_⟩
  · rw [if_pos (by simpa using hbar)]
  · rw [if_neg (by simp [hallowed]), if_pos (hring.2 hnone)]
    rfl
  · rw [if_neg (by simp [hallowed]), if_neg fun h => hsome (hring.1 h)]
    obtain ⟨⟨c, hj⟩, htrack, hentries, hcounter, hctx, hdetached, hslots, hstreams, hport⟩ :=
      format_event (cfg := s.mgmt.active) hn rfl
    refine ⟨_, rfl, rfl, ?_⟩
    unfold startWork respond
    generalize finishEvent s.mgmt.active (format s.mgmt.active s.blocks) = t at *
    dsimp only
    rw [hj]
    refine ⟨rfl, rfl, rfl, rfl, rfl, rfl, rfl, rfl, rfl, rfl, rfl, rfl, htrack, hentries, hcounter, hctx, hdetached,
      fun k o ho => ?_, fun halone i => ?_, fun hwaits => ?_, hport⟩
    · have hslot := hslots k o ho
      refine ⟨fun l how => ?_, fun c l how => ?_⟩
      · rw [hslot]
        rcases how with how | ⟨c, how⟩
        · rw [how]
          rfl
        · rw [how]
          rfl
      · rw [hslot, how]
        rfl
    · obtain ⟨_, hidle⟩ := (alone_iff s).1 halone
      exact hstreams i (hidle i)
    · exact hwaits

end Sys2Proof.Rounds


/-! SUPPORT. Entry to FAULTED and the failure of the journal (R34, R35, R38, R83). -/

namespace Sys2Proof.Rounds

open Sys2Proof.Machine Sys2Proof.Safety Sys2Proof.Laws Sys2Proof.Arrivals Sys2Proof.Expiries Sys2Proof.Order Sys2Proof.Resets

variable {cfg : Image} {a b b' : Blocks} {c k : CtxId} {i : StreamId} {r r' r'' : StreamRec}

/-! ## Requests that are classified again -/

/-- A stream record is as it was, or its stalled request is to be classified again (R147). -/
def Woken (r r' : StreamRec) : Prop := r' = r ∨ (∃ cause, r.phase = .stalled cause) ∧ r' = { r with phase := .fresh }

theorem Woken.refl (r : StreamRec) : Woken r r := .inl rfl

theorem Woken.trans (h : Woken r r') (k : Woken r' r'') : Woken r r'' := by
  rcases h with rfl | ⟨hstall, rfl⟩
  · exact k
  · rcases k with rfl | ⟨⟨cause, hk⟩, _⟩
    · exact .inr ⟨hstall, rfl⟩
    · cases hk

theorem Woken.eq (h : Woken r r') (hs : ∀ cause, r.phase ≠ .stalled cause) : r' = r := by
  rcases h with h | ⟨⟨cause, h⟩, _⟩
  · exact h
  · exact absurd h (hs cause)

theorem notStalled_of_idleStream (h : idleStream r = true) (cause : StallCause) : r.phase ≠ .stalled cause := by
  rw [phase_of_idleStream h]
  exact Phase.noConfusion

theorem wake_woken (p : StreamId → StreamRec → StallCause → Bool) (b : Blocks) (i : StreamId) :
    Woken (b.stream i) ((wake p b).stream i) := by
  unfold wake
  rw [Blocks.mapStreams_stream]
  split
  · rename_i cause hphase
    split
    · exact .inr ⟨⟨cause, hphase⟩, rfl⟩
    · exact .refl _
  · exact .refl _

theorem wakeAll_stalled {cause : StallCause} (h : (b.stream i).phase = .stalled cause) :
    (wakeAll b).stream i = { b.stream i with phase := .fresh } := by
  unfold wakeAll wake
  rw [Blocks.mapStreams_stream, h]
  exact if_pos rfl

theorem wakeLines_frame (l : List TrackEntry) (b : Blocks) :
    ∃ q, l.foldl (fun b e => wakeRestoring e.line b) b = { b with req := q }
      ∧ ∀ i, Woken (b.stream i) ((l.foldl (fun b e => wakeRestoring e.line b) b).stream i) := by
  induction l generalizing b with
  | nil => exact ⟨b.req, rfl, fun i => .refl _⟩
  | cons e l ih =>
    obtain ⟨q, hq, hwoken⟩ := ih (wakeRestoring e.line b)
    obtain ⟨q₀, h₀⟩ := wake_frame (fun _ r cause => decide (cause = .restoring) && decide (r.currentLine = some e.line)) b
    have hfirst := wake_woken (fun _ r cause => decide (cause = .restoring) && decide (r.currentLine = some e.line)) b
    rw [List.foldl_cons]
    unfold wakeRestoring at hq hwoken ⊢
    generalize wake (fun _ r cause => decide (cause = .restoring) && decide (r.currentLine = some e.line)) b = x at *
    exact ⟨q, hq.trans (by rw [h₀]), fun i => (hfirst i).trans (hwoken i)⟩

theorem discardHeld_woken (p : HeldEntry → Bool) (reason : Option LossReason) (b : Blocks) (i : StreamId) :
    Woken (afterShare reason (shareOf i ((b.held.entries.filter p).flatMap fun e => e.contributors)) (b.stream i))
      ((discardHeld p reason b).stream i) := by
  unfold discardHeld
  dsimp only
  split
  · rename_i hempty
    rw [List.isEmpty_iff.1 hempty]
    exact .inl (afterShare_nil _ _).symm
  · rw [foldl_settleContributors]
    have hsettled := settleContributors_stream reason ((b.held.entries.filter p).flatMap fun e => e.contributors)
      (b.modHeld fun h => { h with entries := h.entries.filter fun e => !p e }) i
    have hwoken := wake_woken (fun _ _ cause => decide (cause = .heldFull))
      (withdraw (fun r => (b.held.entries.filter p).any fun e => decide (e.state = .ready) && decide (r.owner = .release e.line))
        (settleContributors reason ((b.held.entries.filter p).flatMap fun e => e.contributors)
          (b.modHeld fun h => { h with entries := h.entries.filter fun e => !p e }))) i
    exact hsettled ▸ hwoken

/-! ## Waiters that are told (R30) -/

theorem answered_once {st : UpStatus} (h : r.queue.length ≤ 1) : (r.answered st none).queue = [] := by
  unfold StreamRec.answered
  split
  · assumption
  · rename_i q rest hq
    rw [hq, List.length_cons] at h
    exact List.length_eq_zero_iff.1 (Nat.le_zero.1 (Nat.le_of_succ_le_succ h))

theorem answered_empty {st : UpStatus} (h : r.queue = []) : r.answered st none = r := by
  unfold StreamRec.answered
  rw [h]

theorem answerAll_stream {st : UpStatus} (l : List StreamId) (b : Blocks) (h : (b.stream i).queue.length ≤ 1) :
    (l.foldl (fun b i => answer i st none b) b).stream i = if i ∈ l then (b.stream i).answered st none else b.stream i := by
  induction l generalizing b with
  | nil => rfl
  | cons j l ih =>
    have hj : (answer j st none b).stream i = if i = j then (b.stream i).answered st none else b.stream i := by
      unfold answer
      rw [Blocks.modStream_stream]
      split
      · rename_i hij
        rw [hij]
      · rfl
    rw [List.foldl_cons]
    by_cases hij : i = j
    · rw [if_pos hij] at hj
      have hempty := answered_once (st := st) h
      rw [ih _ (by rw [hj, hempty]; exact Nat.zero_le _), hj, answered_empty hempty, ite_self, if_pos (by simp [hij])]
    · rw [if_neg hij] at hj
      rw [ih _ (by rw [hj]; exact h), hj]
      simp [hij]

theorem answerAll_notMem {st : UpStatus} {l : List StreamId} (h : i ∉ l) (b : Blocks) :
    (l.foldl (fun b i => answer i st none b) b).stream i = b.stream i := by
  induction l generalizing b with
  | nil => rfl
  | cons j l ih =>
    rw [List.mem_cons, not_or] at h
    rw [List.foldl_cons, ih h.2, answer, Blocks.modStream_stream, if_neg h.1]

theorem answerAll_frame (st : UpStatus) (l : List StreamId) (b : Blocks) :
    ∃ q, l.foldl (fun b i => answer i st none b) b = { b with req := q } := by
  induction l generalizing b with
  | nil => exact ⟨b.req, rfl⟩
  | cons j l ih =>
    obtain ⟨q, hq⟩ := ih (answer j st none b)
    exact ⟨q, hq⟩

theorem answerWaiters_stream {st : UpStatus} (h : (b.stream i).queue.length ≤ 1) : (answerWaiters c st b).stream i =
    if i ∈ (b.ctx c).waiters then (b.stream i).answered st none else b.stream i := by
  unfold answerWaiters
  rw [Blocks.modCtx_stream]
  exact answerAll_stream _ b h

/-- What telling the waiters of a context leaves. -/
theorem answerWaiters_frame (c : CtxId) (st : UpStatus) (b : Blocks) :
    ∃ q e, answerWaiters c st b = { b with req := q, epochs := e } := by
  obtain ⟨q, hq⟩ := answerAll_frame st (b.ctx c).waiters b
  unfold answerWaiters
  rw [hq]
  exact ⟨q, _, rfl⟩

/-! ## Entry to FAULTED -/

/-- A context record at its entry to FAULTED (R34, R35, R119). -/
def faultedCtx (f : FaultRecord) (x : Context) : Context :=
  { x with
    state := .faulted, idleTimer := none, waiters := [], mgmtWaiter := false, fault := some f
    rollback := if x.state = .rollback then none else x.rollback
    abortOutcome := if x.state = .rollback then some .failed else x.abortOutcome }

theorem enterFaulted_ctx (cfg : Image) (c k : CtxId) (f : FaultRecord) (b : Blocks) :
    (enterFaulted cfg k f b).ctx c = if c = k then faultedCtx f (b.ctx c) else b.ctx c := by
  split
  · rename_i hck
    rw [hck]
    unfold enterFaulted
    dsimp only
    rw [wakeContext, (Frames.untouched_wake _ _).ctx, raise, Blocks.modEvents_ctx]
    split
    · rename_i hroll
      rw [Frames.breakRollback_ctx, if_pos rfl, Blocks.modCtx_ctx_same, Frames.answerWaiters_ctx, if_pos rfl]
      simp only [faultedCtx, hroll, if_pos]
    · rename_i hroll
      rw [Blocks.modCtx_ctx_same, Frames.answerWaiters_ctx, if_pos rfl]
      simp only [faultedCtx, hroll, if_false]
  · rename_i hck
    exact Frames.enterFaulted_other cfg (Ne.symm hck) f b

/-- What the break of a rollback leaves (R119). -/
theorem breakRollback_frame (c : CtxId) (b : Blocks) : ∃ q e m t v, breakRollback c b =
      { b with req := q, epochs := e, mem := m, track := t, events := v }
    ∧ (∀ i, Woken (b.stream i) (q.streams[i]))
    ∧ (∀ x ∈ b.track, x.state = .capturing → x ∈ t)
    ∧ ∀ f, b.events.isPending f = true → v.isPending f = true := by
  obtain ⟨q, hq, hwoken⟩ := wakeLines_frame
    (((raise .abortDone ((withdraw (fun r => r.owner.restoreOf c) b).modCtx c fun x =>
      { x with rollback := none, abortOutcome := some .failed })).track).filter fun e : TrackEntry =>
        decide (e.ctx = c) && decide (e.state = .restoring)
          && !((withdraw (fun r => r.owner.restoreOf c) b).mem.restoringLine c e.line))
    (updateEntries (fun e : TrackEntry => decide (e.ctx = c) && decide (e.state = .restoring)
        && !((withdraw (fun r => r.owner.restoreOf c) b).mem.restoringLine c e.line))
      (fun e => { e with state := .logged })
      (raise .abortDone ((withdraw (fun r => r.owner.restoreOf c) b).modCtx c fun x =>
        { x with rollback := none, abortOutcome := some .failed })))
  refine ⟨q, _, _, _, _, hq, fun i => ?_, fun x hx hcap => ?_, fun f hf => isPending_raise _ _ _ hf⟩
  · have h := hwoken i
    rw [hq] at h
    exact h
  · refine List.mem_map.2 ⟨x, hx, if_neg (by simp [hcap])⟩

/-- What entry to FAULTED leaves (R34, R35). -/
theorem enterFaulted_frame (cfg : Image) (c : CtxId) (f : FaultRecord) (b : Blocks) : ∃ q e m t v, enterFaulted cfg c f b =
      { b with req := q, epochs := e, mem := m, track := t, events := v }
    ∧ (∀ i, (b.stream i).queue.length ≤ 1 →
      Woken (if i ∈ (b.ctx c).waiters then (b.stream i).answered .contextFaulted none else b.stream i) (q.streams[i]))
    ∧ (∀ i, i ∉ (b.ctx c).waiters → Woken (b.stream i) (q.streams[i]))
    ∧ (∀ x ∈ b.track, x.state = .capturing → x ∈ t)
    ∧ (∀ g, b.events.isPending g = true → v.isPending g = true) ∧ v.isPending (.contextFault c) = true := by
  have hfaulted (y : Blocks) (q : RequestPort) (e : EpochController) (m : MemoryPort) (t : List TrackEntry) (v : EventUnit)
      (hy : y = { b with req := q, epochs := e, mem := m, track := t, events := v }) :
      ∃ q', wakeContext cfg c (raise (.contextFault c) y) =
        { b with req := q', epochs := e, mem := m, track := t, events := v.raise (.contextFault c) }
      ∧ ∀ i : StreamId, Woken (q.streams[i]) (q'.streams[i]) := by
    obtain ⟨q', hq'⟩ := wake_frame (fun i _ cause => cause.ofContext && decide (cfg.bindings[i] = some c))
      (raise (.contextFault c) y)
    have hwoken := wake_woken (fun i _ cause => cause.ofContext && decide (cfg.bindings[i] = some c))
      (raise (.contextFault c) y)
    rw [hq'] at hwoken
    subst hy
    exact ⟨q', hq', hwoken⟩
  obtain ⟨q₀, e₀, h₀⟩ := answerWaiters_frame c .contextFaulted b
  have hone (i : StreamId) (hi : (b.stream i).queue.length ≤ 1) : q₀.streams[i] =
      if i ∈ (b.ctx c).waiters then (b.stream i).answered .contextFaulted none else b.stream i := by
    have h := answerWaiters_stream (c := c) (st := .contextFaulted) hi
    rw [h₀] at h
    exact h
  have hnone (i : StreamId) (hi : i ∉ (b.ctx c).waiters) : q₀.streams[i] = b.stream i := by
    have h : (answerWaiters c .contextFaulted b).stream i = b.stream i := by
      unfold answerWaiters
      rw [Blocks.modCtx_stream]
      exact answerAll_notMem hi b
    rw [h₀] at h
    exact h
  unfold enterFaulted
  dsimp only
  rw [h₀]
  split
  · obtain ⟨q₁, e, m, t, v, hbreak, hwoken₁, hcap, hpending⟩ := breakRollback_frame c
      (Blocks.modCtx { b with req := q₀, epochs := e₀ } c fun x =>
        { x with state := .faulted, idleTimer := none, fault := some f })
    obtain ⟨q', hq', hwoken⟩ := hfaulted _ q₁ e m t v hbreak
    refine ⟨q', e, m, t, _, hq', fun i hi => ?_, fun i hi => ?_, hcap, fun g hg => isPending_raise _ _ _ (hpending g hg),
      raise_pending _ _⟩
    · rw [← hone i hi]
      exact (hwoken₁ i).trans (hwoken i)
    · rw [← hnone i hi]
      exact (hwoken₁ i).trans (hwoken i)
  · obtain ⟨q', hq', hwoken⟩ := hfaulted _ q₀ _ b.mem b.track b.events rfl
    refine ⟨q', _, _, _, _, hq', fun i hi => ?_, fun i hi => ?_, fun x hx _ => hx, fun g hg => isPending_raise _ _ _ hg,
      raise_pending _ _⟩
    · rw [← hone i hi]
      exact hwoken i
    · rw [← hnone i hi]
      exact hwoken i

end Sys2Proof.Rounds


/-! SUPPORT. The failure of the journal (R38, R83). -/

namespace Sys2Proof.Rounds

open Sys2Proof.Machine Sys2Proof.Safety Sys2Proof.Laws Sys2Proof.Arrivals Sys2Proof.Expiries Sys2Proof.Order Sys2Proof.Resets

variable {cfg : Image} {a b b' : Blocks} {c k : CtxId} {i : StreamId} {r r' r'' : StreamRec} {st : Option DownStatus}

/-! ## One context -/

/-- A context that the failure of the journal takes to FAULTED (R38). -/
def liveCtx (x : Context) : Bool := x.epoch.isSome && decide (x.state ≠ .idle) && decide (x.state ≠ .faulted)

theorem liveCtx_iff (x : Context) : liveCtx x = true ↔ x.epoch.isSome = true ∧ x.state ≠ .idle ∧ x.state ≠ .faulted := by
  simp [liveCtx, and_assoc]

/-- The fault record that the failure of the journal leaves (R35, R38). -/
def journalFault (st : Option DownStatus) (x : Context) : FaultRecord := ⟨.journalFailed, x.epoch.getD 0, none, none, st⟩

/-- A context record when the journal has failed (R38). -/
def failedCtx (st : Option DownStatus) (x : Context) : Context :=
  if liveCtx x then faultedCtx (journalFault st x) x else x

theorem liveCtx_failedCtx (st : Option DownStatus) (x : Context) : liveCtx (failedCtx st x) = false := by
  unfold failedCtx
  split
  · simp [liveCtx, faultedCtx]
  · rename_i h
    rwa [Bool.not_eq_true] at h

theorem failedCtx_failedCtx (st : Option DownStatus) (x : Context) : failedCtx st (failedCtx st x) = failedCtx st x :=
  if_neg (by rw [liveCtx_failedCtx]; exact Bool.false_ne_true)

theorem journalFaults_live (h : liveCtx (b.ctx c) = true) :
    journalFaults cfg st b c = enterFaulted cfg c (journalFault st (b.ctx c)) b := by
  obtain ⟨hsome, hidle, hfaulted⟩ := (liveCtx_iff _).1 h
  obtain ⟨e, he⟩ := Option.isSome_iff_exists.1 hsome
  unfold journalFaults journalFault
  dsimp only
  rw [he]
  exact if_neg (by simp [hidle, hfaulted])

theorem journalFaults_dead (h : liveCtx (b.ctx c) = false) : journalFaults cfg st b c = b := by
  unfold journalFaults
  dsimp only
  split
  · rename_i e he
    refine if_pos ?_
    by_contra hlive
    rw [not_or] at hlive
    have hl := (liveCtx_iff (b.ctx c)).2 ⟨by rw [he]; rfl, hlive⟩
    rw [h] at hl
    cases hl
  · rfl

theorem journalFaults_ctx (cfg : Image) (st : Option DownStatus) (b : Blocks) (k c : CtxId) :
    (journalFaults cfg st b k).ctx c = if c = k then failedCtx st (b.ctx c) else b.ctx c := by
  cases h : liveCtx (b.ctx k) with
  | true =>
    rw [journalFaults_live h, enterFaulted_ctx]
    split
    · rename_i hck
      subst hck
      exact (if_pos h).symm
    · rfl
  | false =>
    rw [journalFaults_dead h]
    split
    · rename_i hck
      subst hck
      exact (if_neg (by simp [h])).symm
    · rfl

/-- What the failure of the journal leaves of the part, one context after another. -/
structure Failing (a b : Blocks) : Prop where
  frame : ∃ q e m t v, b = { a with req := q, epochs := e, mem := m, track := t, events := v }
  capturing : ∀ x ∈ a.track, x.state = .capturing → x ∈ b.track
  pending : ∀ f, a.events.isPending f = true → b.events.isPending f = true
  waiters : ∀ c, ∀ i ∈ (b.ctx c).waiters, i ∈ (a.ctx c).waiters
  streams : ∀ i, (∀ c, i ∉ (a.ctx c).waiters) ∨ (a.stream i).queue = [] → Woken (a.stream i) (b.stream i)

theorem Failing.refl (a : Blocks) : Failing a a :=
  ⟨⟨_, _, _, _, _, rfl⟩, fun _ h _ => h, fun _ h => h, fun _ _ h => h, fun _ _ => .refl _⟩

theorem Woken.queue (h : Woken r r') : r'.queue = r.queue := by
  rcases h with rfl | ⟨_, rfl⟩
  · rfl
  · rfl

theorem Failing.trans (h : Failing a b) (k : Failing b b') : Failing a b' := by
  obtain ⟨q, e, m, t, v, hb⟩ := h.frame
  obtain ⟨q', e', m', t', v', hb'⟩ := k.frame
  refine ⟨⟨q', e', m', t', v', hb'.trans (by rw [hb])⟩, fun x hx hc => k.capturing x (h.capturing x hx hc) hc,
    fun f hf => k.pending f (h.pending f hf), fun c i hi => h.waiters c i (k.waiters c i hi), fun i hi => ?_⟩
  refine (h.streams i hi).trans (k.streams i (hi.imp (fun hw c hc => hw c (h.waiters c i hc)) fun hq => ?_))
  rw [(h.streams i (.inr hq)).queue, hq]

theorem failing_journalFaults (cfg : Image) (st : Option DownStatus) (b : Blocks) (k : CtxId) :
    Failing b (journalFaults cfg st b k) := by
  cases h : liveCtx (b.ctx k) with
  | false =>
    rw [journalFaults_dead h]
    exact .refl b
  | true =>
    have hctx := journalFaults_ctx cfg st b k
    rw [journalFaults_live h] at hctx ⊢
    obtain ⟨q, e, m, t, v, hframe, hone, hnone, hcap, hpending, _⟩ :=
      enterFaulted_frame cfg k (journalFault st (b.ctx k)) b
    refine ⟨⟨q, e, m, t, v, hframe⟩, ?_, ?_, fun c i hi => ?_, fun i hi => ?_⟩
    · rw [hframe]
      exact hcap
    · rw [hframe]
      exact hpending
    · rw [hctx] at hi
      unfold failedCtx at hi
      split at hi
      · split at hi
        · cases hi
        · exact hi
      · exact hi
    · rw [hframe]
      rcases hi with hw | hq
      · exact hnone i (hw k)
      · have hwoken := hone i (by rw [hq]; exact Nat.zero_le _)
        rw [answered_empty hq, ite_self] at hwoken
        exact hwoken

/-! ## All contexts -/

theorem failing_foldl (cfg : Image) (st : Option DownStatus) (l : List CtxId) (b : Blocks) :
    Failing b (l.foldl (journalFaults cfg st) b) := by
  induction l generalizing b with
  | nil => exact .refl b
  | cons k l ih => exact (failing_journalFaults cfg st b k).trans (ih _)

theorem foldl_journalFaults_ctx (cfg : Image) (st : Option DownStatus) (l : List CtxId) (b : Blocks) (c : CtxId) :
    (l.foldl (journalFaults cfg st) b).ctx c = if c ∈ l then failedCtx st (b.ctx c) else b.ctx c := by
  induction l generalizing b with
  | nil => rfl
  | cons k l ih =>
    rw [List.foldl_cons, ih, journalFaults_ctx]
    by_cases hck : c = k
    · simp [hck, failedCtx_failedCtx]
    · simp [hck]

/-- Every context that fails raises its flag. -/
theorem foldl_journalFaults_raised (cfg : Image) (st : Option DownStatus) {l : List CtxId} (b : Blocks) (hc : c ∈ l)
    (hlive : liveCtx (b.ctx c) = true) : (l.foldl (journalFaults cfg st) b).events.isPending (.contextFault c) = true := by
  induction l generalizing b with
  | nil => cases hc
  | cons k l ih =>
    rw [List.foldl_cons]
    by_cases hck : c = k
    · refine (failing_foldl cfg st l _).pending _ ?_
      subst hck
      obtain ⟨q, e, m, t, v, hframe, _, _, _, _, hraised⟩ := enterFaulted_frame cfg c (journalFault st (b.ctx c)) b
      rw [journalFaults_live hlive, hframe]
      exact hraised
    · refine ih _ ((List.mem_cons.1 hc).resolve_left hck) ?_
      rw [journalFaults_ctx, if_neg hck]
      exact hlive

theorem answered_notStalled {st : UpStatus} (hq : r.queue.length ≤ 1) (hs : ∀ cause, r.phase ≠ .stalled cause)
    (cause : StallCause) : (r.answered st none).phase ≠ .stalled cause := by
  have hempty := answered_once (st := st) hq
  unfold StreamRec.answered at hempty ⊢
  split
  · exact hs cause
  · rename_i q rest hrest
    rw [hrest] at hempty
    rw [show rest = [] from hempty]
    exact Phase.noConfusion

/-- A stream that waits for the commit of a context that fails is told (R30, R38). -/
theorem foldl_journalFaults_told (cfg : Image) (st : Option DownStatus) {l : List CtxId} (b : Blocks)
    (hq : r.queue.length ≤ 1) (hs : ∀ cause, r.phase ≠ .stalled cause)
    (h : b.stream i = r.answered .contextFaulted none
      ∨ b.stream i = r ∧ c ∈ l ∧ liveCtx (b.ctx c) = true ∧ i ∈ (b.ctx c).waiters) :
    (l.foldl (journalFaults cfg st) b).stream i = r.answered .contextFaulted none := by
  have hempty := answered_once (st := .contextFaulted) hq
  induction l generalizing b with
  | nil => exact h.resolve_right fun h => by cases h.2.1
  | cons k l ih =>
    rw [List.foldl_cons]
    refine ih _ ?_
    rcases h with htold | ⟨hr, hc, hlive, hi⟩
    · refine .inl (((failing_journalFaults cfg st b k).streams i (.inr (by rw [htold, hempty]))).eq ?_ |>.trans htold)
      rw [htold]
      exact answered_notStalled hq hs
    · have hstep (hk : liveCtx (b.ctx k) = true) : (journalFaults cfg st b k).stream i =
          if i ∈ (b.ctx k).waiters then r.answered .contextFaulted none else r := by
        obtain ⟨q, e, m, t, v, hframe, hone, _⟩ := enterFaulted_frame cfg k (journalFault st (b.ctx k)) b
        have hwoken := hone i (by rw [hr]; exact hq)
        rw [hr] at hwoken
        rw [journalFaults_live hk, hframe]
        refine hwoken.eq ?_
        split
        · exact answered_notStalled hq hs
        · exact hs
      by_cases hck : c = k
      · subst hck
        exact .inl ((hstep hlive).trans (if_pos hi))
      · have hctx := journalFaults_ctx cfg st b k c
        rw [if_neg hck] at hctx
        rw [hctx]
        have hl := (List.mem_cons.1 hc).resolve_left hck
        cases hk : liveCtx (b.ctx k) with
        | false =>
          rw [journalFaults_dead hk]
          exact .inr ⟨hr, hl, hlive, hi⟩
        | true =>
          rw [hstep hk]
          split
          · exact .inl rfl
          · exact .inr ⟨rfl, hl, hlive, hi⟩

/-! ## The failure -/

/-- The journal when it has failed (R83). -/
def failedJournal (reason : JournalReason) (b : Blocks) : JournalWriter :=
  { (stopWriting b).journal with state := .failed, reason := some reason, pause := false, formatWaits := false }

/-- The blocks when the journal has stopped and the writes that wait for the log are discarded (R83). -/
def logLost (reason : JournalReason) (b : Blocks) : Blocks :=
  discardHeld (fun h => decide (h.state = .waitLog)) (some .contextFaulted)
    ((withdraw (fun r => r.owner.ofJournal) (stopWriting b)).modJournal fun j =>
      { j with state := .failed, reason := some reason, pause := false, formatWaits := false })

theorem logLost_frame (reason : JournalReason) (b : Blocks) : ∃ q m, logLost reason b = { b with
    req := q
    mem := m
    held := { b.held with entries := b.held.entries.filter fun e => !decide (e.state = .waitLog) }
    journal := failedJournal reason b } := by
  obtain ⟨q, m, hframe, _⟩ := discardHeld_frame (fun h => decide (h.state = .waitLog)) (some .contextFaulted)
    ((withdraw (fun r => r.owner.ofJournal) (stopWriting b)).modJournal fun j =>
      { j with state := .failed, reason := some reason, pause := false, formatWaits := false })
  exact ⟨q, m, hframe⟩

theorem logLost_woken (reason : JournalReason) (b : Blocks) (i : StreamId) : Woken (afterShare (some .contextFaulted)
    (shareOf i ((b.held.entries.filter fun h => decide (h.state = .waitLog)).flatMap fun e => e.contributors)) (b.stream i))
    ((logLost reason b).stream i) :=
  discardHeld_woken (fun h => decide (h.state = .waitLog)) (some .contextFaulted)
    ((withdraw (fun r => r.owner.ofJournal) (stopWriting b)).modJournal fun j =>
      { j with state := .failed, reason := some reason, pause := false, formatWaits := false }) i

/-- The stream records when the writes that wait for the log have been discarded (R97). -/
def lostShare (b : Blocks) (i : StreamId) : StreamRec := afterShare (some .contextFaulted)
  (shareOf i ((b.held.entries.filter fun h => decide (h.state = .waitLog)).flatMap fun e => e.contributors)) (b.stream i)

theorem lostShare_fields (b : Blocks) (i : StreamId) : (lostShare b i).queue = (b.stream i).queue
    ∧ (lostShare b i).sent = (b.stream i).sent ∧ (lostShare b i).phase = (b.stream i).phase
    ∧ (lostShare b i).outstanding ≤ (b.stream i).outstanding := ⟨rfl, rfl, rfl, Nat.sub_le _ _⟩

section Failure

variable (cfg : Image) (reason : JournalReason) (st : Option DownStatus) (b : Blocks)

/-- The blocks when every context has failed, before the stalled requests are classified again. -/
def contextsFailed : Blocks := raise .journalFailed (allCtxs.foldl (journalFaults cfg st) (logLost reason b))

theorem journalFail_eq : journalFail cfg reason st b = wakeAll (contextsFailed cfg reason st b) := rfl

theorem contextsFailed_stream (i : StreamId) : (contextsFailed cfg reason st b).stream i =
    (allCtxs.foldl (journalFaults cfg st) (logLost reason b)).stream i := by
  rw [contextsFailed, raise, Blocks.modEvents_stream]

theorem wakeAll_woken (b : Blocks) (i : StreamId) : Woken (b.stream i) ((wakeAll b).stream i) := wake_woken _ b i

theorem contextsFailed_frame : ∃ q e m t v, contextsFailed cfg reason st b = { b with
      req := q
      epochs := e
      mem := m
      track := t
      events := v
      held := { b.held with entries := b.held.entries.filter fun e => !decide (e.state = .waitLog) }
      journal := failedJournal reason b }
    ∧ (∀ x ∈ b.track, x.state = .capturing → x ∈ t)
    ∧ (∀ f, b.events.isPending f = true → v.isPending f = true) ∧ v.isPending .journalFailed = true := by
  obtain ⟨q₀, m₀, hlost⟩ := logLost_frame reason b
  have hfailing := failing_foldl cfg st allCtxs (logLost reason b)
  unfold contextsFailed
  rw [hlost] at hfailing ⊢
  obtain ⟨q, e, m, t, v, hframe⟩ := hfailing.frame
  have hcap := hfailing.capturing
  have hpending := hfailing.pending
  rw [hframe] at hcap hpending ⊢
  exact ⟨q, e, m, t, _, rfl, hcap, fun f hf => isPending_raise _ _ _ (hpending f hf), raise_pending _ _⟩

theorem contextsFailed_ctx (c : CtxId) : (contextsFailed cfg reason st b).ctx c = failedCtx st (b.ctx c) := by
  obtain ⟨q, m, hlost⟩ := logLost_frame reason b
  unfold contextsFailed
  rw [raise, Blocks.modEvents_ctx, foldl_journalFaults_ctx, if_pos (mem_allCtxs c), hlost]
  rfl

theorem contextsFailed_raised {c : CtxId} (hlive : liveCtx (b.ctx c) = true) :
    (contextsFailed cfg reason st b).events.isPending (.contextFault c) = true := by
  obtain ⟨q, m, hlost⟩ := logLost_frame reason b
  refine isPending_raise _ _ _ (foldl_journalFaults_raised cfg st (logLost reason b) (mem_allCtxs c) ?_)
  rw [hlost]
  exact hlive

theorem contextsFailed_woken {i : StreamId} (hi : (∀ c, i ∉ (b.ctx c).waiters) ∨ (b.stream i).queue = []) :
    Woken (lostShare b i) ((contextsFailed cfg reason st b).stream i) := by
  have hlost := logLost_woken reason b i
  rw [contextsFailed_stream]
  refine hlost.trans ((failing_foldl cfg st allCtxs (logLost reason b)).streams i ?_)
  refine hi.imp (fun hw c => ?_) fun hq => hlost.queue.trans hq
  obtain ⟨q, m, hframe⟩ := logLost_frame reason b
  rw [hframe]
  exact hw c

theorem contextsFailed_told {i : StreamId} {c : CtxId} (hq : (b.stream i).queue.length ≤ 1)
    (hs : ∀ cause, (b.stream i).phase ≠ .stalled cause) (hlive : liveCtx (b.ctx c) = true) (hi : i ∈ (b.ctx c).waiters) :
    (contextsFailed cfg reason st b).stream i = (lostShare b i).answered .contextFaulted none := by
  have hlost := (logLost_woken reason b i).eq hs
  obtain ⟨q, m, hframe⟩ := logLost_frame reason b
  rw [contextsFailed_stream]
  refine foldl_journalFaults_told (c := c) cfg st (logLost reason b) (r := lostShare b i) hq hs
    (.inr ⟨hlost, mem_allCtxs c, ?_, ?_⟩)
  · rw [hframe]
    exact hlive
  · rw [hframe]
    exact hi

/-- What the failure of the journal leaves, but for the stream records and the contexts. -/
theorem journalFail_frame : ∃ q e m t v, journalFail cfg reason st b = { b with
      req := q
      epochs := e
      mem := m
      track := t
      events := v
      held := { b.held with entries := b.held.entries.filter fun e => !decide (e.state = .waitLog) }
      journal := failedJournal reason b }
    ∧ (∀ x ∈ b.track, x.state = .capturing → x ∈ t)
    ∧ (∀ f, b.events.isPending f = true → v.isPending f = true) ∧ v.isPending .journalFailed = true
    ∧ ∀ c, liveCtx (b.ctx c) = true → v.isPending (.contextFault c) = true := by
  obtain ⟨q, e, m, t, v, hframe, hcap, hpending, hfailed⟩ := contextsFailed_frame cfg reason st b
  have hraised (c : CtxId) := contextsFailed_raised cfg reason st b (c := c)
  rw [journalFail_eq]
  obtain ⟨q', hq'⟩ := wake_frame (fun _ _ _ => true) (contextsFailed cfg reason st b)
  refine ⟨q', e, m, t, v, hq'.trans (by rw [hframe]), hcap, hpending, hfailed, fun c hc => ?_⟩
  have h := hraised c hc
  rw [hframe] at h
  exact h

theorem journalFail_ctx (c : CtxId) : (journalFail cfg reason st b).ctx c = failedCtx st (b.ctx c) := by
  rw [journalFail_eq, wakeAll]
  exact ((Frames.untouched_wake _ _).ctx c).trans (contextsFailed_ctx cfg reason st b c)

/-- A stream that is not stalled and waits for no commit, or holds no request. -/
theorem journalFail_aside {i : StreamId} (hi : (∀ c, i ∉ (b.ctx c).waiters) ∨ (b.stream i).queue = [])
    (hs : ∀ cause, (b.stream i).phase ≠ .stalled cause) : (journalFail cfg reason st b).stream i = lostShare b i := by
  have hfailed := (contextsFailed_woken cfg reason st b hi).eq hs
  have hwoken := wakeAll_woken (contextsFailed cfg reason st b) i
  rw [journalFail_eq]
  rw [hfailed] at hwoken
  exact hwoken.eq hs

theorem journalFail_told {i : StreamId} {c : CtxId} (hq : (b.stream i).queue.length ≤ 1)
    (hs : ∀ cause, (b.stream i).phase ≠ .stalled cause) (hlive : liveCtx (b.ctx c) = true) (hi : i ∈ (b.ctx c).waiters) :
    (journalFail cfg reason st b).stream i = (lostShare b i).answered .contextFaulted none := by
  have htold := contextsFailed_told cfg reason st b hq hs hlive hi
  have hwoken := wakeAll_woken (contextsFailed cfg reason st b) i
  rw [journalFail_eq]
  rw [htold] at hwoken
  exact hwoken.eq (answered_notStalled (r := lostShare b i) hq hs)

/-- A stalled request is to be classified again. -/
theorem journalFail_stalled {i : StreamId} {cause : StallCause} (hi : ∀ c, i ∉ (b.ctx c).waiters)
    (hs : (b.stream i).phase = .stalled cause) :
    (journalFail cfg reason st b).stream i = { lostShare b i with phase := .fresh } := by
  have hfailed := contextsFailed_woken cfg reason st b (.inl hi)
  have hwoken := wakeAll_woken (contextsFailed cfg reason st b) i
  have hstalled (cause' : StallCause) := wakeAll_stalled (b := contextsFailed cfg reason st b) (i := i) (cause := cause')
  rw [journalFail_eq]
  generalize contextsFailed cfg reason st b = x at *
  rcases hfailed with h | ⟨_, h⟩
  · rw [hstalled cause (by rw [h]; exact hs), h]
  · rw [h] at hwoken
    exact hwoken.eq fun _ => Phase.noConfusion

end Failure

end Sys2Proof.Rounds


/-! SUPPORT. A record burst or an anchor update that fails the journal (R75, R79, R83). -/

namespace Sys2Proof.Rounds

open Sys2Proof.Machine Sys2Proof.Safety Sys2Proof.Laws Sys2Proof.Arrivals Sys2Proof.Expiries Sys2Proof.Order Sys2Proof.Resets

variable {cfg : Image} {b y : Blocks} {c : CtxId} {i : StreamId} {s : State} {tag : Tag} {a : Addr} {m : ByteMask} {d : LineData}

/-- Blocks that are those of a part but for the Memory Port, the clock, and what the journal writes. -/
structure BesideJournal (b b' : Blocks) : Prop where
  req : b'.req = b.req
  epochs : b'.epochs = b.epochs
  track : b'.track = b.track
  events : b'.events = b.events
  notice : b'.journal.notice = b.journal.notice
  durable : b'.journal.durable = b.journal.durable

/-- A write of the ring or of an anchor copy that fails the journal. -/
theorem journalWrite_fails {cmd : Instr} {st : DownStatus} {reason : JournalReason} {id : OpId} {o : Outstanding}
    (hup : s.pins.resetLow = false) (hs : s.blocks.journal.state = .ready) (hm : s.blocks.mem.matching id = some o)
    (h : ((∃ f bytes, o.op = .slotBurst f bytes) ∧ o.owner = .burst ∧ reason = .recordWriteFailed
        ∧ (cmd = .slotBurstDone id .error ∧ st = .error ∨ cmd = .downstreamTimeout id.slot ∧ st = .timeout))
      ∨ ((∃ l bytes, o.op = .anchorWrite l bytes) ∧ (∃ copy gen head, o.owner = .anchor (.update copy gen head))
        ∧ s.blocks.journal.anchor.failures ≠ 0 ∧ reason = .anchorWriteFailed
        ∧ (cmd = .anchorWriteDone id .error ∧ st = .error ∨ cmd = .downstreamTimeout id.slot ∧ st = .timeout))) :
    ∃ b, BesideJournal s.blocks b
      ∧ exec cmd s = .next (after s (finishEvent s.mgmt.active (journalFail s.mgmt.active reason (some st) b))) := by
  have hends (now : Nat) (he : EndsAs s id o cmd (.failed st) now) : ∃ b, BesideJournal s.blocks b
      ∧ exec cmd s = .next (after s (finishEvent s.mgmt.active (journalFail s.mgmt.active reason (some st) b))) := by
    unfold EndsAs at he
    rcases h with ⟨_, how, rfl, _⟩ | ⟨_, ⟨copy, gen, head, how⟩, hfailures, rfl, _⟩
    · refine ⟨freeBurst (freeSlot id.slot { s.blocks with clock := now }), ⟨rfl, rfl, rfl, rfl, rfl, rfl⟩, he.trans ?_⟩
      unfold handBack
      rw [how]
      dsimp only
      unfold burstEnd
      rw [if_neg (by simpa [RestoreReads.freeSlot_journal] using hs)]
    · refine ⟨anchorIdle (freeSlot id.slot { s.blocks with clock := now }), ⟨rfl, rfl, rfl, rfl, rfl, rfl⟩, he.trans ?_⟩
      unfold handBack
      rw [how]
      dsimp only
      unfold anchorEnd updateEnd anchorFailed
      dsimp only
      rw [if_neg (show ¬(anchorIdle (freeSlot id.slot { s.blocks with clock := now })).journal.state ≠ .ready from
          not_not.2 hs), if_neg (show ¬(anchorIdle (freeSlot id.slot { s.blocks with clock := now })).journal.anchor.failures = 0 from
          hfailures)]
  have herror (k : OpEnd) (he : endOf o.op .error = k) : k = .failed .error := by
    rw [← he]
    cases o.op <;> rfl
  rcases h with ⟨_, _, _, hcmd⟩ | ⟨_, _, _, _, hcmd⟩
  · rcases hcmd with ⟨rfl, rfl⟩ | ⟨rfl, rfl⟩
    · have he := completion_ends hup hm (cmd := .slotBurstDone id .error) rfl
      rw [herror _ rfl] at he
      exact hends _ he
    · exact hends _ (timeout_ends hup hm)
  · rcases hcmd with ⟨rfl, rfl⟩ | ⟨rfl, rfl⟩
    · have he := completion_ends hup hm (cmd := .anchorWriteDone id .error) rfl
      rw [herror _ rfl] at he
      exact hends _ he
    · exact hends _ (timeout_ends hup hm)

/-! ## The contexts after the failure -/

theorem failedCtx_settled {x : Context} (hlaw : ctxLaw x = true) (st : Option DownStatus) : settledCtx (failedCtx st x) := by
  unfold failedCtx
  split
  · exact .inr rfl
  · rename_i hdead
    rw [liveCtx_iff] at hdead
    have hepoch := Tracked.ctxLaw_epoch hlaw
    unfold settledCtx
    by_contra hnot
    rw [not_or] at hnot
    refine hdead ⟨?_, hnot⟩
    rw [Option.isSome_iff_ne_none]
    exact fun h => hnot.1 (hepoch.2 h)

theorem liveCtx_of_epoch {x : Context} (hlaw : ctxLaw x = true) {n : Epoch} (he : x.epoch = some n) (hf : x.state ≠ .faulted) :
    liveCtx x = true := by
  refine (liveCtx_iff x).2 ⟨by rw [he]; rfl, fun hidle => ?_, hf⟩
  rw [(Tracked.ctxLaw_epoch hlaw).1 hidle] at he
  cases he

theorem liveCtx_of_waiter {x : Context} (hlaw : ctxLaw x = true) (hi : i ∈ x.waiters) : liveCtx x = true := by
  obtain ⟨hepoch, _, _, _, hwaiters, _⟩ := (Tracked.ctxLaw_iff x).1 hlaw
  have hstate := hwaiters.resolve_left (List.ne_nil_of_mem hi)
  refine (liveCtx_iff x).2 ⟨?_, ?_, ?_⟩
  · rw [Option.isSome_iff_ne_none]
    intro hnone
    rw [hepoch.2 hnone] at hstate
    simp at hstate
  · rcases hstate with h | h <;> simp [h]
  · rcases hstate with h | h <;> simp [h]

/-! ## A WRITE that is classified again -/

theorem contextStep_settled (h : settledCtx (b.ctx c)) : contextStep cfg b c = b := by
  unfold contextStep
  rcases h with h | h
  · rw [h]
  · rw [h]

theorem classifyWrite_unavailable {i : StreamId} (hw : journaledWrite s i a m c) (hs : b.journal.state = .failed) :
    classifyWrite s.mgmt.active b i (lineOf a) m = .refused .journalUnavailable := by
  obtain ⟨hm, ⟨w, hlookup, hkind, hwriter⟩, hbound, _⟩ := hw
  unfold classifyWrite
  rw [if_neg hm, hlookup]
  dsimp only
  rw [if_neg (by simp [hkind]), if_neg (by simp [hwriter]), if_neg (by simp [hkind])]
  unfold classifyJournaled
  rw [hbound]
  dsimp only
  rw [hs]

/-- A WRITE that the port hands on to a FAILED journal is answered JOURNAL_UNAVAILABLE (R82). -/
theorem handleCurrent_unavailable (hw : journaledWrite s i a m c) (hs : b.journal.state = .failed)
    (hq : (b.stream i).queue = [⟨tag, .write a m d⟩]) (ho : (b.stream i).outstanding < Config.outstandingLimit) :
    handleCurrent s.mgmt.active i b = b.modStream i (goneOn [] (.ack tag .journalUnavailable)) := by
  have hhandle : handleCurrent s.mgmt.active i b = handleWrite s.mgmt.active i (lineOf a) m d b := by
    unfold handleCurrent
    rw [hq]
  rw [hhandle]
  unfold handleWrite
  rw [if_neg (Nat.ne_of_lt ho), classifyWrite_unavailable hw hs]
  exact answer_front hq .journalUnavailable none

/-- The event of a FAILED part in which one WRITE is classified again. -/
theorem finishEvent_unavailable (hs : y.journal.state = .failed) (hn : y.journal.notice = false)
    (hctx : ∀ c, settledCtx (y.ctx c)) (hfresh : (y.stream i).phase = .fresh)
    (hidle : ∀ k, k ≠ i → idleStream (y.stream k) = true) (hw : journaledWrite s i a m c)
    (hq : (y.stream i).queue = [⟨tag, .write a m d⟩]) (ho : (y.stream i).outstanding < Config.outstandingLimit) :
    (finishEvent s.mgmt.active y).stream i = goneOn [] (.ack tag .journalUnavailable) (y.stream i) := by
  have hready : y.journal.state ≠ .ready := by simp [hs]
  obtain ⟨q, hframe, _⟩ := requestReleases_frame y
  have hphase (k : StreamId) : (y.stream k).phase = .fresh ∨ (y.stream k).phase = .idle := by
    by_cases hk : k = i
    · exact .inl (hk ▸ hfresh)
    · exact .inr (phase_of_idleStream (hidle k hk))
  have hprogress : progress s.mgmt.active y = { y with mem := q } := by
    have hbarrier (k : StreamId) : barrierDue { y with mem := q } k = false := by
      have hk : (Blocks.stream { y with mem := q } k).phase = .fresh ∨ (Blocks.stream { y with mem := q } k).phase = .idle := hphase k
      unfold barrierDue
      rcases hk with h | h <;> simp [h]
    have hcount (k : StreamId) : countDue { y with mem := q } k = false := by
      have hk : (Blocks.stream { y with mem := q } k).phase = .fresh ∨ (Blocks.stream { y with mem := q } k).phase = .idle := hphase k
      unfold countDue
      rcases hk with h | h <;> simp [h]
    unfold progress
    rw [foldl_fixed _ _ _ fun c _ => contextStep_settled (hctx c)]
    dsimp only
    rw [serveBuffer_closed (writing_of_notReady hready), hframe, answerBarriers_none hbarrier, handOnCounts_none hcount]
  have hone (k : StreamId) : (Blocks.stream { y with mem := q } k).phase = .fresh ↔ k = i := by
    refine ⟨fun h => ?_, fun h => h ▸ hfresh⟩
    by_contra hk
    have hidle' : (y.stream k).phase = .idle := phase_of_idleStream (hidle k hk)
    exact Phase.noConfusion (hidle'.symm.trans h)
  have hsettle := settle_handles hprogress hone 2047
  rw [handleCurrent_unavailable (b := { y with mem := q }) hw hs hq ho] at hsettle
  have hz (k : StreamId) : (Blocks.modStream { y with mem := q } i (goneOn [] (.ack tag .journalUnavailable))).stream k =
      if k = i then goneOn [] (.ack tag .journalUnavailable) (y.stream i) else y.stream k := Blocks.modStream_stream _ _ _ _
  have hnotReady : (Blocks.modStream { y with mem := q } i (goneOn [] (.ack tag .journalUnavailable))).journal.state ≠ .ready :=
    hready
  have hlive : (Blocks.modStream { y with mem := q } i (goneOn [] (.ack tag .journalUnavailable))).journal.notice = false := hn
  generalize Blocks.modStream { y with mem := q } i (goneOn [] (.ack tag .journalUnavailable)) = z at hsettle hz hnotReady hlive
  have hclosed := (Closed.refl z).settle (cfg := s.mgmt.active) hnotReady 2047
  rw [← hsettle] at hclosed
  have hgrants := arbitrate_frame s.mgmt.active 32 (settle s.mgmt.active (2047 + 1) y)
  have hzi := hz i
  rw [if_pos rfl] at hzi
  have hstream := hclosed.streams i (by rw [hzi]; simp [idleStream, goneOn])
  unfold finishEvent settleBound
  rw [enterSafe_live (by rw [hgrants.journal, hclosed.notice]; exact hlive), Blocks.stream, hgrants.req]
  exact hstream.trans hzi

/-! ## The event of the failure -/

section Failed

variable {x : Blocks} {reason : JournalReason} {st : DownStatus} (hlaw : ctxsLaw s.blocks = true)
  (hn : s.blocks.journal.notice = false) (hb : BesideJournal s.blocks b)
include hb

theorem BesideJournal.ctx (c : CtxId) : b.ctx c = s.blocks.ctx c := by
  simp only [Blocks.ctx, hb.epochs]

theorem BesideJournal.stream (i : StreamId) : b.stream i = s.blocks.stream i := by
  simp only [Blocks.stream, hb.req]

include hlaw hn

omit hn in
theorem journalFailed_settled (c : CtxId) : settledCtx ((journalFail cfg reason (some st) b).ctx c) := by
  rw [journalFail_ctx, hb.ctx]
  exact failedCtx_settled ((Tracked.ctxsLaw_iff _).1 hlaw c) _

omit hlaw in
theorem journalFailed_closed : ∃ x, Closed (journalFail cfg reason (some st) b) x
    ∧ Grown x (finishEvent cfg (journalFail cfg reason (some st) b)) := by
  obtain ⟨q, e, m, t, v, hframe, _⟩ := journalFail_frame cfg reason (some st) b
  refine finishEvent_closed ?_ ?_
  · rw [hframe]
    exact JournalState.noConfusion
  · rw [hframe]
    exact hb.notice.trans hn

/-- What the event of the failure leaves, but for the stream records. -/
theorem journalFailed_leaves (hx : x = finishEvent cfg (journalFail cfg reason (some st) b)) :
    x.journal.state = .failed ∧ x.journal.reason = some reason ∧ x.journal.durable = s.blocks.journal.durable
    ∧ x.events.isPending .journalFailed = true
    ∧ (∀ e ∈ s.blocks.track, e.state = .capturing → e ∈ x.track)
    ∧ ∀ c, x.ctx c = failedCtx (some st) (s.blocks.ctx c) := by
  obtain ⟨q, e, m, t, v, hframe, hcap, _, hfailed, _⟩ := journalFail_frame cfg reason (some st) b
  obtain ⟨z, hclosed, hgrown⟩ := journalFailed_closed (cfg := cfg) (reason := reason) (st := st) hn hb
  have hsettled := journalFailed_settled (cfg := cfg) (reason := reason) (st := st) hlaw hb
  have hctx (c : CtxId) := journalFail_ctx cfg reason (some st) b c
  rw [← hx] at hgrown
  generalize journalFail cfg reason (some st) b = y at *
  obtain ⟨cq, cr, cd, cp, hj, _⟩ := hclosed.journal
  have hgrants := hgrown.grants
  refine ⟨?_, ?_, ?_, ?_, fun e he hc => ?_, fun c => ?_⟩
  · rw [hgrants.journal, hj, hframe]
    rfl
  · rw [hgrants.journal, hj, hframe]
    rfl
  · rw [hgrants.journal, hj, hframe]
    exact hb.durable
  · rw [hgrants.events]
    refine hclosed.pending _ ?_
    rw [hframe]
    exact hfailed
  · rw [hgrants.track, hclosed.track hsettled, hframe]
    exact hcap e (by rw [hb.track]; exact he) hc
  · rw [Blocks.ctx, hgrants.epochs]
    refine (hclosed.ctx c (hsettled c)).trans ?_
    rw [hctx c, hb.ctx]

/-- A stream that waits for a commit is told (R30, R38). -/
theorem journalFailed_tells (hx : x = finishEvent cfg (journalFail cfg reason (some st) b))
    (hi : i ∈ (s.blocks.ctx c).waiters) (hphase : (s.blocks.stream i).phase = .commitWaiter)
    (hq : (s.blocks.stream i).queue = [⟨tag, .commit⟩]) :
    idleStream (x.stream i) = true ∧ (x.stream i).sent = (s.blocks.stream i).sent ++ [.done tag .contextFaulted] := by
  obtain ⟨z, hclosed, hgrown⟩ := journalFailed_closed (cfg := cfg) (reason := reason) (st := st) hn hb
  have hlive := liveCtx_of_waiter ((Tracked.ctxsLaw_iff _).1 hlaw c) hi
  rw [← hb.ctx] at hlive hi
  rw [← hb.stream] at hphase hq ⊢
  have htold := journalFail_told cfg reason (some st) b (i := i) (c := c) (by rw [hq]; rfl)
    (by rw [hphase]; exact fun _ => Phase.noConfusion) hlive hi
  have hanswered : (lostShare b i).answered .contextFaulted none =
      goneOn [] (.done tag .contextFaulted) (lostShare b i) := by
    unfold StreamRec.answered goneOn
    rw [show (lostShare b i).queue = [⟨tag, .commit⟩] from hq]
    rfl
  rw [hanswered] at htold
  rw [← hx] at hgrown
  generalize journalFail cfg reason (some st) b = y at *
  have hstream := hclosed.streams i (by rw [htold]; simp [idleStream, goneOn])
  rw [Blocks.stream, hgrown.grants.req]
  change idleStream (z.stream i) = true ∧ (z.stream i).sent = _
  rw [hstream, htold]
  exact ⟨by simp [idleStream, goneOn], rfl⟩

/-- A stalled journaled WRITE is refused (R82). -/
theorem journalFailed_refuses (hx : x = finishEvent s.mgmt.active (journalFail s.mgmt.active reason (some st) b))
    {cause : StallCause} (halone : stalledAlone s i cause ⟨tag, .write a m d⟩) (hi : ∀ k, i ∉ (s.blocks.ctx k).waiters)
    (hw : journaledWrite s i a m c) :
    idleStream (x.stream i) = true ∧ (x.stream i).sent = (s.blocks.stream i).sent ++ [.ack tag .journalUnavailable] := by
  obtain ⟨hphase, hq, hothers⟩ := halone
  obtain ⟨_, _, _, hout⟩ := id hw
  have hsettled := journalFailed_settled (cfg := s.mgmt.active) (reason := reason) (st := st) hlaw hb
  obtain ⟨q, e, mem, t, v, hframe, _⟩ := journalFail_frame s.mgmt.active reason (some st) b
  rw [← hb.stream] at hphase hq hout ⊢
  have hwoken := journalFail_stalled s.mgmt.active reason (some st) b (i := i) (fun k => by rw [hb.ctx]; exact hi k) hphase
  have hidle (k : StreamId) (hk : k ≠ i) : idleStream ((journalFail s.mgmt.active reason (some st) b).stream k) = true := by
    have hkidle : idleStream (b.stream k) = true := by
      rw [hb.stream]
      exact hothers k hk
    rw [journalFail_aside s.mgmt.active reason (some st) b (.inr ((idleStream_iff _).1 hkidle).1)
      (notStalled_of_idleStream hkidle)]
    exact hkidle
  have hstate : (journalFail s.mgmt.active reason (some st) b).journal.state = .failed
      ∧ (journalFail s.mgmt.active reason (some st) b).journal.notice = false := by
    rw [hframe]
    exact ⟨rfl, hb.notice.trans hn⟩
  generalize journalFail s.mgmt.active reason (some st) b = y at *
  have hfinish := finishEvent_unavailable (y := y) (i := i) (tag := tag) (d := d) hstate.1 hstate.2 hsettled
    (by rw [hwoken]) hidle hw (by rw [hwoken]; exact hq) (by rw [hwoken]; exact lt_of_le_of_lt (Nat.sub_le _ _) hout)
  rw [hx, hfinish, hwoken]
  exact ⟨by simp [idleStream, goneOn], rfl⟩

end Failed

/-- Settles O52. -/
theorem journalWriteFailureFailsTheJournal : Obligations.JournalWriteFailureFailsTheJournal := by
  intro cmd st reason id o s hup hn hs hlaw hm hcmd
  obtain ⟨b, hb, hexec⟩ := journalWrite_fails hup hs hm hcmd
  have hleaves := journalFailed_leaves (cfg := s.mgmt.active) (reason := reason) (st := st) hlaw hn hb rfl
  have htells {c : CtxId} {i : StreamId} {tag : Tag} := journalFailed_tells (cfg := s.mgmt.active) (reason := reason) (st := st)
    (c := c) (i := i) (tag := tag) hlaw hn hb rfl
  have hrefuses {i : StreamId} {tag : Tag} {a : Addr} {m : ByteMask} {d : LineData} {c : CtxId} {cause : StallCause} :=
    journalFailed_refuses (reason := reason) (st := st) (i := i) (tag := tag) (a := a) (m := m) (d := d) (c := c)
      (cause := cause) hlaw hn hb rfl
  generalize finishEvent s.mgmt.active (journalFail s.mgmt.active reason (some st) b) = x at *
  obtain ⟨hstate, hreason, hdurable, hpending, hcap, hctx⟩ := hleaves
  refine ⟨_, hexec, rfl, hstate, hreason, hdurable, hpending, hcap, fun c n he hf => ?_,
    fun c i tag hi hphase hq => htells hi hphase hq, fun i tag a m d c cause halone hi hw => hrefuses halone hi hw⟩
  dsimp only [after]
  rw [hctx, failedCtx, if_pos (liveCtx_of_epoch ((Tracked.ctxsLaw_iff _).1 hlaw c) he hf)]
  refine ⟨rfl, he, ?_⟩
  show some (journalFault (some st) (s.blocks.ctx c)) = _
  rw [journalFault, he]
  rfl

end Sys2Proof.Rounds


/-! SUPPORT. An event in which no context has anything due: the buffer is served, releases are asked for, and one request
at most is handled. -/

namespace Sys2Proof.Rounds

open Sys2Proof.Machine Sys2Proof.Safety Sys2Proof.Laws Sys2Proof.Arrivals Sys2Proof.Expiries

variable {cfg : Image} {a b b' c t y z : Blocks} {i : StreamId}

/-! ## The service of the buffer -/

/-- From one state to another the buffer has been served and operations have been asked for. -/
structure Served (b b' : Blocks) : Prop where
  frame : ∃ j m, b' = { b with journal := j, mem := m }
  state : b'.journal.state = b.journal.state
  reason : b'.journal.reason = b.journal.reason
  pause : b'.journal.pause = b.journal.pause
  notice : b'.journal.notice = b.journal.notice
  durable : b'.journal.durable = b.journal.durable
  anchored : b'.journal.anchored = b.journal.anchored
  anchor : b'.journal.anchor = b.journal.anchor
  slots : b'.mem.slots = b.mem.slots
  waits : ∀ r ∈ b.mem.waiting, r ∈ b'.mem.waiting

theorem Served.refl (b : Blocks) : Served b b :=
  ⟨⟨b.journal, b.mem, rfl⟩, rfl, rfl, rfl, rfl, rfl, rfl, rfl, rfl, fun _ h => h⟩

theorem Served.trans (h : Served a b) (k : Served b c) : Served a c where
  frame := by
    obtain ⟨j, m, hj⟩ := h.frame
    obtain ⟨j', m', hj'⟩ := k.frame
    exact ⟨j', m', by rw [hj', hj]⟩
  state := k.state.trans h.state
  reason := k.reason.trans h.reason
  pause := k.pause.trans h.pause
  notice := k.notice.trans h.notice
  durable := k.durable.trans h.durable
  anchored := k.anchored.trans h.anchored
  anchor := k.anchor.trans h.anchor
  slots := k.slots.trans h.slots
  waits r hr := k.waits r (h.waits r hr)

theorem Served.inPort (h : Served b b') {op : MemOp} {w : Owner} (hp : inPort b.mem op w = true) :
    inPort b'.mem op w = true := inPort_mono h.waits h.slots hp

theorem Served.stream (h : Served b b') (i : StreamId) : b'.stream i = b.stream i := by
  obtain ⟨j, m, hj⟩ := h.frame
  rw [hj]
  rfl

theorem Served.ctx (h : Served b b') (k : CtxId) : b'.ctx k = b.ctx k := by
  obtain ⟨j, m, hj⟩ := h.frame
  rw [hj]
  rfl

theorem Served.epochs (h : Served b b') : b'.epochs = b.epochs := by
  obtain ⟨j, m, hj⟩ := h.frame
  rw [hj]

theorem Served.track (h : Served b b') : b'.track = b.track := by
  obtain ⟨j, m, hj⟩ := h.frame
  rw [hj]

theorem Served.held (h : Served b b') : b'.held = b.held := by
  obtain ⟨j, m, hj⟩ := h.frame
  rw [hj]

theorem Served.events (h : Served b b') : b'.events = b.events := by
  obtain ⟨j, m, hj⟩ := h.frame
  rw [hj]

theorem Served.recovery (h : Served b b') : b'.recovery = b.recovery := by
  obtain ⟨j, m, hj⟩ := h.frame
  rw [hj]

/-- What the port is asked for joins what waits there. -/
theorem served_handOver (op : MemOp) (cls : MemClass) (w : Owner) (b : Blocks) : Served b (handOver op cls w b) := by
  have hwaits : ∀ r ∈ b.mem.waiting, r ∈ (handOver op cls w b).mem.waiting := by
    unfold handOver
    split
    · exact fun r hr => hr
    · exact fun r hr => List.mem_append_left _ hr
  obtain ⟨m, hm, hslots⟩ := handOver_frame op cls w b
  rw [hm] at hwaits ⊢
  exact ⟨⟨b.journal, m, rfl⟩, rfl, rfl, rfl, rfl, rfl, rfl, rfl, hslots, hwaits⟩

/-- A change of the journal's queues, its buffer, its tail and what goes with them. -/
theorem served_modJournal {f : JournalWriter → JournalWriter} (hstate : (f b.journal).state = b.journal.state)
    (hreason : (f b.journal).reason = b.journal.reason) (hpause : (f b.journal).pause = b.journal.pause)
    (hnotice : (f b.journal).notice = b.journal.notice) (hdurable : (f b.journal).durable = b.journal.durable)
    (hanchored : (f b.journal).anchored = b.journal.anchored) (hanchor : (f b.journal).anchor = b.journal.anchor) :
    Served b (b.modJournal f) :=
  ⟨⟨f b.journal, b.mem, rfl⟩, hstate, hreason, hpause, hnotice, hdurable, hanchored, hanchor, rfl, fun _ h => h⟩

theorem served_burstCheck (cfg : Image) (b : Blocks) : Served b (burstCheck cfg b) := by
  unfold burstCheck
  split
  · unfold issueBurst
    dsimp only
    split
    · exact .refl b
    · exact (served_modJournal rfl rfl rfl rfl rfl rfl rfl).trans (served_handOver _ _ _ _)
  · exact .refl b

theorem served_stage (cfg : Image) (slots : List StagedSlot) (e : Epoch) (k : CtxId) (b : Blocks) :
    Served b (stage cfg slots e k b) := served_modJournal rfl rfl rfl rfl rfl rfl rfl

theorem serveOne_served (h : serveOne cfg b = some b') : Served b b' := by
  unfold serveOne at h
  dsimp only at h
  split at h
  · cases h
  · split at h
    · split at h
      · cases h
        unfold stageMarker
        exact ((served_modJournal rfl rfl rfl rfl rfl rfl rfl).trans (served_stage _ _ _ _ _)).trans (served_burstCheck _ _)
      · cases h
    · split at h
      · split at h
        · cases h
          exact (served_modJournal rfl rfl rfl rfl rfl rfl rfl).trans (served_handOver _ _ _ _)
        · cases h
      · cases h

theorem serveBuffer_served (cfg : Image) (n : Nat) (b : Blocks) : Served b (serveBuffer cfg n b) := by
  induction n generalizing b with
  | zero => exact .refl b
  | succ n ih =>
    cases h : serveOne cfg b with
    | none =>
      rw [serveBuffer_none h]
      exact .refl b
    | some b' =>
      rw [serveBuffer, h]
      exact (serveOne_served h).trans (ih b')

theorem requestReleases_served (b : Blocks) : Served b (requestReleases b) := by
  have hwaits := requestReleases_waits b
  obtain ⟨m, hm, hslots⟩ := requestReleases_frame b
  rw [hm] at hwaits ⊢
  exact ⟨⟨b.journal, m, rfl⟩, rfl, rfl, rfl, rfl, rfl, rfl, rfl, hslots, hwaits⟩

/-- While no marker waits, the service of the buffer stages nothing: the tail and what is reserved stay. -/
def spaceKept (b b' : Blocks) : Prop := b.journal.markerQueue = [] → b'.journal.markerQueue = []
  ∧ b'.journal.tail = b.journal.tail ∧ b'.journal.head = b.journal.head ∧ b'.journal.reserved = b.journal.reserved

theorem spaceKept_journal (h : b'.journal = b.journal) : spaceKept b b' := fun hq => by
  rw [h]
  exact ⟨hq, rfl, rfl, rfl⟩

theorem spaceKept_trans (h : spaceKept a b) (k : spaceKept b c) : spaceKept a c := fun hq => by
  obtain ⟨hmarker, htail, hhead, hreserved⟩ := h hq
  obtain ⟨hmarker', htail', hhead', hreserved'⟩ := k hmarker
  exact ⟨hmarker', htail'.trans htail, hhead'.trans hhead, hreserved'.trans hreserved⟩

theorem serveOne_space (h : serveOne cfg b = some b') : spaceKept b b' := by
  intro hq
  unfold serveOne at h
  dsimp only at h
  rw [hq] at h
  split at h
  · cases h
  · dsimp only at h
    split at h
    · split at h
      · cases h
        rw [handOver_journal]
        exact ⟨hq, rfl, rfl, rfl⟩
      · cases h
    · cases h

theorem serveBuffer_space (cfg : Image) (n : Nat) (b : Blocks) : spaceKept b (serveBuffer cfg n b) := by
  induction n generalizing b with
  | zero => exact spaceKept_journal rfl
  | succ n ih =>
    cases h : serveOne cfg b with
    | none =>
      rw [serveBuffer_none h]
      exact spaceKept_journal rfl
    | some b' =>
      rw [serveBuffer, h]
      exact spaceKept_trans (serveOne_space h) (ih b')

/-! ## Quiet contexts -/

theorem firstFrom_none (head : RingPtr) {l : List (Addr × RingPtr)} : firstFrom head l = none ↔ l = [] := by
  cases l with
  | nil => simp [firstFrom]
  | cons x rest =>
    simp only [firstFrom, reduceCtorEq, iff_false]
    split
    · split <;> simp
    · simp

/-- Whether a restore can be started does not depend on where the head is. -/
theorem nextRestore_none {k : CtxId} : nextRestore b k = none ↔ ∀ r, rollbackIn b k .restore = some r →
    b.journal.notice = true ∨ Config.restoreSlots ≤ r.slots.length ∨ unslotted b k r = [] := by
  unfold nextRestore
  cases rollbackIn b k .restore with
  | none => simp
  | some r =>
    dsimp only
    simp only [Option.some.injEq, forall_eq', ← firstFrom_none b.journal.head]
    split
    · rename_i h
      simpa [or_assoc] using Or.imp_right Or.inl (by simpa using h)
    · rename_i h
      simp only [Bool.or_eq_true, decide_eq_true_eq, not_or] at h
      simp [h.1, h.2]

/-- Contexts stay quiet when neither they nor what they hold has changed. -/
theorem ctxQuiet_same {k : CtxId} (h : ctxQuiet b k) (hctx : b'.ctx k = b.ctx k) (hcount : b'.heldCount k = b.heldCount k)
    (htrack : b'.track = b.track) (hout : b'.mem.restoreOutstanding k = b.mem.restoreOutstanding k)
    (hnotice : b'.journal.notice = b.journal.notice) : ctxQuiet b' k := by
  simp only [ctxQuiet, drainDue, quiesceDue, nextRestore_none, retireDue, rollbackIn, unslotted, Blocks.capturing,
    Blocks.entriesOf, hctx, hcount, htrack, hout, hnotice] at h ⊢
  exact h

theorem Served.ctxQuiet (h : Served b b') {k : CtxId} (hk : ctxQuiet b k) : Rounds.ctxQuiet b' k := by
  refine ctxQuiet_same hk (h.ctx k) ?_ h.track (restoreOutstanding_congr h.slots k) h.notice
  unfold Blocks.heldCount
  rw [h.held]

/-! ## The event -/

/-- A stream is not among those that a round answers or hands on. -/
def notDue (b : Blocks) : Prop := ∀ i, barrierDue b i = false ∧ countDue b i = false

theorem Served.notDue (h : Served b b') (hb : notDue b) : Rounds.notDue b' := notDue_congr h.stream hb

theorem progress_quiet (hquiet : ∀ k, ctxQuiet b k) (hdue : notDue b) :
    progress cfg b = requestReleases (serveBuffer cfg Config.stagingCapacity b) := by
  have hcontexts : allCtxs.foldl (contextStep cfg) b = b := foldl_fixed _ _ _ fun k _ => (hquiet k).contextStep
  have hserved := (serveBuffer_served cfg Config.stagingCapacity b).trans (requestReleases_served _)
  have hdue' := hserved.notDue hdue
  unfold progress
  dsimp only
  rw [hcontexts, answerBarriers_none fun i => (hdue' i).1, handOnCounts_none fun i => (hdue' i).2]

/-- A round of an event in which no context has anything due, and no stream that waits. -/
theorem progress_served (hquiet : ∀ k, ctxQuiet b k) (hdue : notDue b) : Served b (progress cfg b) := by
  rw [progress_quiet hquiet hdue]
  exact (serveBuffer_served cfg Config.stagingCapacity b).trans (requestReleases_served _)

/-- The tail, the head and what is reserved are the same. -/
def sameRing (b b' : Blocks) : Prop := b'.journal.tail = b.journal.tail ∧ b'.journal.head = b.journal.head
  ∧ b'.journal.reserved = b.journal.reserved

/-- No marker can be given a buffer slot. -/
def stagesNothing (cfg : Image) (b : Blocks) : Prop := b.journal.markerQueue = [] ∨ serveOne cfg b = none

theorem progress_sameRing (hquiet : ∀ k, ctxQuiet b k) (hdue : notDue b) (h : stagesNothing cfg b) :
    sameRing b (progress cfg b) := by
  have hserved : sameRing b (serveBuffer cfg Config.stagingCapacity b) := by
    rcases h with h | h
    · exact (serveBuffer_space cfg Config.stagingCapacity b h).2
    · rw [serveBuffer_none h]
      exact ⟨rfl, rfl, rfl⟩
  rw [progress_quiet hquiet hdue]
  obtain ⟨m, hm, _⟩ := requestReleases_frame (serveBuffer cfg Config.stagingCapacity b)
  rw [hm]
  exact hserved

/-- An event in which nothing but the service of the buffer goes on. -/
theorem finishEvent_served (hquiet : ∀ k, ctxQuiet b k) (hdue : notDue b) (hf : noFresh b = true)
    (hn : b.journal.notice = false) : ∃ y, Served b y ∧ Grown y (finishEvent cfg b) := by
  have hserved : Served b (progress cfg b) := progress_served hquiet hdue
  refine ⟨_, hserved, ?_⟩
  rw [finishEvent_progressed rfl ((noFresh_iff _).2 fun i => ?_) (hserved.notice.trans hn)]
  · exact grown_arbitrate _ _ _
  · rw [hserved.stream i]
    exact (noFresh_iff b).1 hf i

/-- An event in which one request is handled, beside the service of the buffer. -/
theorem finishEvent_handlesOne {f : Blocks → Blocks} (hquiet : ∀ k, ctxQuiet b k) (hdue : notDue b)
    (hf : ∀ k, (b.stream k).phase = .fresh ↔ k = i) (hz : ∀ y, Served b y → (stagesNothing cfg b → sameRing b y) →
      handleCurrent cfg i y = f y
      ∧ (∀ k, ctxQuiet (f y) k) ∧ notDue (f y) ∧ noFresh (f y) = true ∧ (f y).journal.notice = false) :
    ∃ y x, Served b y ∧ (stagesNothing cfg b → sameRing b y) ∧ Served (f y) x ∧ Grown x (finishEvent cfg b) := by
  have hserved : Served b (progress cfg b) := progress_served hquiet hdue
  have hspace : stagesNothing cfg b → sameRing b (progress cfg b) := progress_sameRing hquiet hdue
  generalize hy : progress cfg b = y at hserved hspace
  obtain ⟨hhandle, hquiet', hdue', hf', hn'⟩ := hz y hserved hspace
  generalize hfy : f y = z at *
  have hagain : Served z (progress cfg z) := progress_served hquiet' hdue'
  generalize hx : progress cfg z = x at hagain
  have hfresh : ∀ k, (y.stream k).phase = .fresh ↔ k = i := fun k => by
    rw [hserved.stream k]
    exact hf k
  have hnone : noFresh x = true := (noFresh_iff x).2 fun k => by
    rw [hagain.stream k]
    exact (noFresh_iff z).1 hf' k
  refine ⟨y, x, hserved, hspace, hfy ▸ hagain, ?_⟩
  rw [finishEvent_handles hy hfresh (by rw [hhandle]; exact hx) hnone (hagain.notice.trans hn')]
  exact grown_arbitrate _ _ _

end Sys2Proof.Rounds


/-! SUPPORT. A journal that becomes READY, and the requests that are classified again with it (R82, R84, R160). -/

namespace Sys2Proof.Rounds

open Sys2Proof.Machine Sys2Proof.Safety Sys2Proof.Laws Sys2Proof.Arrivals Sys2Proof.Expiries

variable {cfg : Image} {a b y : Blocks} {c k : CtxId} {i : StreamId} {s t : State} {id : OpId} {o : Outstanding}
  {cause : StallCause} {q : Request} {p : Phase} {tag : Tag} {addr : Addr} {w : Window}

/-! ## A stalled request is classified again -/

/-- Stream i holds one request, in a phase, and the others hold none. -/
def oneRequest (b : Blocks) (i : StreamId) (p : Phase) (q : Request) : Prop :=
  (b.stream i).phase = p ∧ (b.stream i).queue = [q] ∧ ∀ k, k ≠ i → idleStream (b.stream k) = true

theorem oneRequest.fresh (h : oneRequest b i .fresh q) (k : StreamId) : (b.stream k).phase = .fresh ↔ k = i := by
  obtain ⟨hphase, _, hothers⟩ := h
  constructor
  · intro hfresh
    by_contra hk
    rw [phase_of_idleStream (hothers k hk)] at hfresh
    cases hfresh
  · rintro rfl
    exact hphase

theorem wake_wakes {w : StreamId → StreamRec → StallCause → Bool} (h : (b.stream i).phase = .stalled cause)
    (hw : w i (b.stream i) cause = true) : (wake w b).stream i = { b.stream i with phase := .fresh } := by
  unfold wake
  rw [Blocks.mapStreams_stream, h]
  dsimp only
  rw [if_pos hw]

theorem wakeAll_wakes (h : (b.stream i).phase = .stalled cause) :
    (wakeAll b).stream i = { b.stream i with phase := .fresh } := wake_wakes h rfl

theorem wake_idle {w : StreamId → StreamRec → StallCause → Bool} (h : idleStream (b.stream i) = true) :
    (wake w b).stream i = b.stream i := wake_stream b fun cause hc => by simp [phase_of_idleStream h] at hc

theorem oneRequest.wake {w : StreamId → StreamRec → StallCause → Bool} (h : oneRequest b i (.stalled cause) q)
    (hw : w i (b.stream i) cause = true) : oneRequest (Machine.wake w b) i .fresh q := by
  obtain ⟨hphase, hq, hothers⟩ := h
  refine ⟨?_, ?_, fun k hk => ?_⟩
  · rw [wake_wakes hphase hw]
  · rw [wake_wakes hphase hw]
    exact hq
  · rw [wake_idle (hothers k hk)]
    exact hothers k hk

theorem oneRequest.wakeAll (h : oneRequest b i (.stalled cause) q) : oneRequest (Machine.wakeAll b) i .fresh q := h.wake rfl

theorem oneRequest.notDue {p : Phase} (h : oneRequest b i p q) (hp : p = .fresh ∨ p = .idle ∨ p = .reading) :
    Rounds.notDue b := fun k => by
  obtain ⟨hphase, _, hothers⟩ := h
  have hk : (b.stream k).phase = .fresh ∨ (b.stream k).phase = .idle ∨ (b.stream k).phase = .reading := by
    by_cases hk : k = i
    · rw [hk, hphase]
      exact hp
    · exact .inr (.inl (phase_of_idleStream (hothers k hk)))
  rcases hk with h | h | h <;> simp [barrierDue, countDue, h]

theorem oneRequest.served (h : oneRequest a i p q) (hs : Served a b) : oneRequest b i p q := by
  simp only [oneRequest, hs.stream]
  exact h

theorem wake_quiet (w : StreamId → StreamRec → StallCause → Bool) (h : ctxQuiet b k) : ctxQuiet (wake w b) k := by
  obtain ⟨r, hr⟩ := wake_frame w b
  rw [hr]
  exact ctxQuiet_same h rfl rfl rfl rfl rfl

theorem wakeAll_quiet (h : ctxQuiet b k) : ctxQuiet (wakeAll b) k := wake_quiet _ h

/-! ## What a request that is handled does -/

theorem handleCurrent_commit_idle (hq : (b.stream i).queue = [⟨tag, .commit⟩]) (hbind : cfg.bindings[i] = some c)
    (hs : b.journal.state = .ready) (hc : (b.ctx c).state = .idle) :
    handleCurrent cfg i b = b.modStream i (goneOn [] (.done tag .okay)) := by
  have hclass : classifyCommit cfg b i = .answered .okay := by
    unfold classifyCommit
    rw [hbind, hs]
    dsimp only
    rw [hc]
    rfl
  unfold handleCurrent
  rw [hq]
  dsimp only
  unfold handleCommit
  rw [hclass]
  exact answer_front hq .okay none

/-- A READ of a JOURNALED window goes to memory (R100, R101). -/
def readHanded (i : StreamId) (l : Addr) (b : Blocks) : Blocks :=
  setPhase i .reading (handOver (.lineRead l) .passThrough (.passRead i true) (addOverlay i l b))

theorem handleCurrent_read_journaled (hq : (b.stream i).queue = [⟨tag, .read addr⟩])
    (hw : lookup cfg (lineOf addr) = .window w) (hkind : w.kind = .journaled) (hs : b.journal.state ≠ .recovering)
    (hr : b.lineRestoring (lineOf addr) = false) (hcover : b.held.coverMask (lineOf addr) ≠ fullMask) :
    handleCurrent cfg i b = readHanded i (lineOf addr) b := by
  have hclass : classifyRead cfg b (lineOf addr) = .journaled := by
    unfold classifyRead
    rw [hw]
    dsimp only
    rw [hkind]
    dsimp only
    rw [if_neg hs, if_neg (by simp [hr])]
  unfold handleCurrent
  rw [hq]
  dsimp only
  unfold handleRead
  rw [hclass]
  dsimp only
  unfold journaledRead
  rw [if_neg hcover]
  rfl

theorem readHanded_inPort (hn : b.journal.notice = false) (i : StreamId) (l : Addr) :
    inPort (readHanded i l b).mem (.lineRead l) (.passRead i true) = true :=
  handOver_inPort (b := addOverlay i l b) hn _ _ _

/-! ## The event in which a request is classified again -/

/-- Handling the request of stream i changes its record and what waits at the port, and gives it an overlay record. -/
structure Passed (i : StreamId) (b b' : Blocks) : Prop where
  frame : ∃ q m v, b' = { b with req := q, mem := m, held := { b.held with overlays := v } }
  slots : b'.mem.slots = b.mem.slots
  stream : ∀ k, k ≠ i → b'.stream k = b.stream k
  phase : (b'.stream i).phase = .idle ∨ (b'.stream i).phase = .reading

theorem passed_modStream {g : StreamRec → StreamRec} (hg : (g (b.stream i)).phase = .idle) : Passed i b (b.modStream i g) where
  frame := ⟨_, b.mem, b.held.overlays, rfl⟩
  slots := rfl
  stream k hk := by rw [Blocks.modStream_stream, if_neg hk]
  phase := .inl (by rw [Blocks.modStream_stream, if_pos rfl]; exact hg)

theorem passed_readHanded (i : StreamId) (l : Addr) (b : Blocks) : Passed i b (readHanded i l b) := by
  unfold readHanded
  obtain ⟨m, hm, hslots⟩ := handOver_frame (.lineRead l) .passThrough (.passRead i true) (addOverlay i l b)
  rw [hm]
  refine ⟨⟨_, m, _, rfl⟩, hslots, fun k hk => ?_, .inr ?_⟩
  · rw [setPhase, Blocks.modStream_stream, if_neg hk]
    rfl
  · rw [setPhase, Blocks.modStream_stream, if_pos rfl]

theorem Passed.journal (h : Passed i a b) : b.journal = a.journal := by
  obtain ⟨q, m, v, hb⟩ := h.frame
  rw [hb]

theorem Passed.quiet (h : Passed i a b) (hk : ctxQuiet a k) : ctxQuiet b k := by
  have hslots := h.slots
  obtain ⟨q, m, v, hb⟩ := h.frame
  rw [hb] at hslots ⊢
  exact ctxQuiet_same hk rfl rfl rfl (restoreOutstanding_congr hslots k) rfl

theorem Passed.phase_cases (h : Passed i a b) (ha : oneRequest a i p q) (k : StreamId) :
    (b.stream k).phase = .idle ∨ (b.stream k).phase = .reading := by
  by_cases hk : k = i
  · rw [hk]
    exact h.phase
  · rw [h.stream k hk]
    exact .inl (phase_of_idleStream (ha.2.2 k hk))

/-- The event in which one request is classified again, and goes on by itself. -/
theorem finishEvent_passes {f : Blocks → Blocks} (hn : b.journal.notice = false) (hquiet : ∀ k, ctxQuiet b k)
    (hone : oneRequest b i .fresh q) (hf : ∀ y, Served b y → handleCurrent cfg i y = f y ∧ Passed i y (f y)) :
    ∃ y x, Served b y ∧ Served (f y) x ∧ Grown x (finishEvent cfg b) := by
  obtain ⟨y, x, hy, _, hx⟩ := finishEvent_handlesOne (f := f) hquiet (hone.notDue (.inl rfl)) hone.fresh fun y hy _ => by
    obtain ⟨hhandle, hpassed⟩ := hf y hy
    have hphase := hpassed.phase_cases (hone.served hy)
    refine ⟨hhandle, fun k => hpassed.quiet (hy.ctxQuiet (hquiet k)), fun k => ?_, (noFresh_iff _).2 fun k => ?_, ?_⟩
    · rcases hphase k with h | h <;> simp [barrierDue, countDue, h]
    · rcases hphase k with h | h <;> simp [h]
    · rw [hpassed.journal, hy.notice, hn]
  exact ⟨y, x, hy, hx⟩

/-- The COMMIT of an IDLE context is answered. -/
theorem finishEvent_answersCommit (hs : b.journal.state = .ready) (hn : b.journal.notice = false)
    (hquiet : ∀ k, ctxQuiet b k) (hone : oneRequest b i .fresh ⟨tag, .commit⟩) (hbind : cfg.bindings[i] = some c)
    (hc : (b.ctx c).state = .idle) : (finishEvent cfg b).journal.state = .ready
      ∧ (finishEvent cfg b).stream i = goneOn [] (.done tag .okay) (b.stream i) := by
  obtain ⟨y, x, hy, hx, hgrown⟩ := finishEvent_passes (cfg := cfg) hn hquiet hone fun y hy =>
    ⟨handleCurrent_commit_idle (hone.served hy).2.1 hbind (hy.state.trans hs) (by rw [hy.ctx c, hc]),
      passed_modStream rfl⟩
  rw [hgrown.grants.journal, hgrown.stream i, hx.state, hx.stream i, Blocks.modStream_stream, if_pos rfl, hy.stream i]
  exact ⟨hy.state.trans hs, rfl⟩

/-- A READ of a JOURNALED window goes to memory. -/
theorem finishEvent_reads (hs : b.journal.state ≠ .recovering) (hn : b.journal.notice = false)
    (hquiet : ∀ k, ctxQuiet b k) (hone : oneRequest b i .fresh ⟨tag, .read addr⟩)
    (hw : lookup cfg (lineOf addr) = .window w) (hkind : w.kind = .journaled) (hr : b.lineRestoring (lineOf addr) = false)
    (hcover : b.held.coverMask (lineOf addr) ≠ fullMask) : (finishEvent cfg b).journal.state = b.journal.state
      ∧ ((finishEvent cfg b).stream i).phase = .reading
      ∧ inPort (finishEvent cfg b).mem (.lineRead (lineOf addr)) (.passRead i true) = true := by
  obtain ⟨y, x, hy, hx, hgrown⟩ := finishEvent_passes (cfg := cfg) hn hquiet hone fun y hy => by
    refine ⟨handleCurrent_read_journaled (hone.served hy).2.1 hw hkind (hy.state.symm ▸ hs) ?_ (by rwa [hy.held]),
      passed_readHanded i (lineOf addr) y⟩
    unfold Blocks.lineRestoring Blocks.entryOf at hr ⊢
    rwa [hy.track]
  have hpassed := passed_readHanded i (lineOf addr) y
  refine ⟨?_, ?_, hgrown.port _ _ (fun _ => Owner.noConfusion) (hx.inPort (readHanded_inPort (hy.notice.trans hn) _ _))⟩
  · rw [hgrown.grants.journal, hx.state, hpassed.journal, hy.state]
  · rw [hgrown.stream i, hx.stream i, readHanded, setPhase, Blocks.modStream_stream, if_pos rfl]

end Sys2Proof.Rounds


/-! SUPPORT. The last anchor copies of FORMAT and of recovery's finish (R84, R160). -/

namespace Sys2Proof.Rounds

open Sys2Proof.Machine Sys2Proof.Safety Sys2Proof.Laws Sys2Proof.Arrivals Sys2Proof.Expiries Sys2Proof.Order Sys2Proof.Resets

variable {cfg : Image} {b z x : Blocks} {k : CtxId} {i : StreamId} {s t : State} {id : OpId} {o : Outstanding}
  {cause : StallCause} {q : Request}

/-! ## The journal that has become READY -/

/-- The blocks when FORMAT's copy B has persisted (R84). -/
def formatLaid (b : Blocks) : Blocks :=
  raise .formatDone (b.modJournal fun j => { j with
    state := .ready
    reason := none
    anchor := { j.anchor with genA := 1, genB := 2, suspectA := false, suspectB := false, failures := 0 } })

theorem formatDone_eq (b : Blocks) : formatDone b = wakeAll (formatLaid b) := rfl

/-- The blocks when the second copy of the finish has persisted (R160). -/
def finishLaid (b : Blocks) : Blocks :=
  raise .recoveryDone ((({ b with epochs := { b.epochs with counter := BitVec.ofNat 48 b.recovery.nextEpoch } }.modJournal
    fun j => { j with anchor := finishAnchor b.recovery j.anchor }).modRecovery fun r =>
      { r with phase := .ended, step := .idle, summary := { r.summary with outcome := some .ready } }).modJournal fun j =>
        { j with state := .ready, reason := none, anchor := { j.anchor with busy := false } })

theorem finishDone_eq (hn : b.journal.notice = false) : finishDone b = wakeAll (finishLaid b) := by
  unfold finishDone
  rw [if_neg (by simp [hn])]
  rfl

theorem finishAnchor_gens {r : RecoveryEngine} {ch : ChosenAnchor} (hch : r.chosen = some ch) (x : AnchorState) :
    genOf (finishAnchor r x) ch.copy = ch.generation + 2 ∧ genOf (finishAnchor r x) ch.copy.other = ch.generation + 1 := by
  simp only [finishAnchor, RecoveryEngine.chosenCopy, RecoveryEngine.chosenGen, hch, Option.map_some, Option.getD_some]
  cases hcopy : ch.copy with
  | a => exact ⟨rfl, rfl⟩
  | b => exact ⟨rfl, rfl⟩

/-- From b to z the journal has become READY; contexts, requests and held writes stay. -/
structure Readied (b z : Blocks) : Prop where
  req : z.req = b.req
  held : z.held = b.held
  track : z.track = b.track
  ctx : ∀ k, z.ctx k = b.ctx k
  mem : z.mem = b.mem
  notice : z.journal.notice = b.journal.notice
  state : z.journal.state = .ready
  reason : z.journal.reason = none

theorem readied_formatLaid (b : Blocks) : Readied b (formatLaid (anchorIdle b)) :=
  ⟨rfl, rfl, rfl, fun _ => rfl, rfl, rfl, rfl, rfl⟩

theorem readied_finishLaid (b : Blocks) : Readied b (finishLaid (anchorIdle b)) :=
  ⟨rfl, rfl, rfl, fun _ => rfl, rfl, rfl, rfl, rfl⟩

theorem Readied.stream (h : Readied b z) (i : StreamId) : z.stream i = b.stream i := by
  unfold Blocks.stream
  rw [h.req]

theorem Readied.quiet (h : Readied b z) (hk : ctxQuiet b k) : ctxQuiet z k := by
  refine ctxQuiet_same hk (h.ctx k) ?_ h.track (by rw [h.mem]) h.notice
  unfold Blocks.heldCount
  rw [h.held]

theorem Readied.oneRequest {p : Phase} (h : Readied b z) (hone : Rounds.oneRequest b i p q) : Rounds.oneRequest z i p q := by
  simp only [Rounds.oneRequest, h.stream]
  exact hone

/-- The event in which the journal becomes READY, with no request to classify again. -/
theorem Readied.calm (h : Readied b z) (hst : still cfg b = true) (hf : noFresh b = true) (hstall : noStall b = true)
    (hn : b.journal.notice = false) : ∃ x, Served z x ∧ Grown x (finishEvent cfg (wakeAll z)) := by
  have hnone : noStall z = true := (noStall_iff z).2 fun i c => by
    rw [h.stream i]
    exact (noStall_iff b).1 hstall i c
  rw [wakeAll, wake_noStall hnone]
  obtain ⟨_, _, _, hdue⟩ := (still_iff cfg b).1 hst
  refine finishEvent_served (fun k => h.quiet ((held_of_still hst).context k)) (notDue_congr h.stream hdue)
    ((noFresh_iff z).2 fun i => ?_) (h.notice.trans hn)
  rw [h.stream i]
  exact (noFresh_iff b).1 hf i

/-! ## The ends of the copies -/

theorem anchorEnd_formatA (hs : b.journal.state = .formatting) (hn : b.journal.notice = false) :
    anchorEnd cfg .formatA .persisted b =
      writeAnchor cfg .b (formatFields cfg b.journal.anchor.formatCount 2) .formatB (anchorIdle b) := by
  unfold anchorEnd
  dsimp only
  unfold formatEnd
  rw [if_neg (not_not.2 (show (anchorIdle b).journal.state = .formatting from hs))]
  dsimp only
  unfold formatCopyB
  rw [if_neg (by simp [show (anchorIdle b).journal.notice = false from hn])]
  rfl

theorem anchorEnd_formatB (hs : b.journal.state = .formatting) :
    anchorEnd cfg .formatB .persisted b = wakeAll (formatLaid (anchorIdle b)) := by
  unfold anchorEnd
  dsimp only
  unfold formatEnd
  rw [if_neg (not_not.2 (show (anchorIdle b).journal.state = .formatting from hs))]
  rfl

theorem anchorEnd_finishFirst (hp : b.recovery.phase = .finish) (hn : b.journal.notice = false) :
    anchorEnd cfg .finishFirst .persisted b = writeAnchor cfg b.recovery.chosenCopy
      (finishFields cfg b.recovery (b.recovery.chosenGen + 2)) .finishSecond (anchorIdle b) := by
  unfold anchorEnd
  dsimp only
  unfold finishEnd
  rw [if_neg (not_not.2 (show (anchorIdle b).recovery.phase = .finish from hp))]
  dsimp only
  unfold finishSecond
  rw [if_neg (by simp [show (anchorIdle b).journal.notice = false from hn])]
  rfl

theorem anchorEnd_finishSecond (hp : b.recovery.phase = .finish) (hn : b.journal.notice = false) :
    anchorEnd cfg .finishSecond .persisted b = wakeAll (finishLaid (anchorIdle b)) := by
  unfold anchorEnd
  dsimp only
  unfold finishEnd
  rw [if_neg (not_not.2 (show (anchorIdle b).recovery.phase = .finish from hp))]
  exact finishDone_eq hn

theorem anchorEnd_format_fails {p : AnchorPurpose} (hs : b.journal.state = .formatting) (hp : p = .formatA ∨ p = .formatB) :
    anchorEnd cfg p (.failed .error) b = journalFail cfg .anchorWriteFailed (some .error) (anchorIdle b) := by
  have hnot : ¬(anchorIdle b).journal.state ≠ .formatting := not_not.2 hs
  rcases hp with rfl | rfl
  · unfold anchorEnd
    dsimp only
    unfold formatEnd
    rw [if_neg hnot]
  · unfold anchorEnd
    dsimp only
    unfold formatEnd
    rw [if_neg hnot]

theorem anchorEnd_finish_fails {p : AnchorPurpose} (hs : b.recovery.phase = .finish) (hp : p = .finishFirst ∨ p = .finishSecond) :
    anchorEnd cfg p (.failed .error) b = recoveryFail .recoveryWriteFailed (anchorIdle b) := by
  have hnot : ¬(anchorIdle b).recovery.phase ≠ .finish := not_not.2 hs
  rcases hp with rfl | rfl
  · unfold anchorEnd
    dsimp only
    unfold finishEnd
    rw [if_neg hnot]
  · unfold anchorEnd
    dsimp only
    unfold finishEnd
    rw [if_neg hnot]

/-! ## What the event leaves -/

section Events

variable (hn : b.journal.notice = false)
include hn

theorem formatA_goesOn (hs : b.journal.state = .formatting)
    (hx : x = finishEvent cfg (anchorEnd cfg .formatA .persisted b)) : x.journal.state = .formatting
    ∧ inPort x.mem (.anchorWrite (anchorLine cfg .b) (buildAnchor (formatFields cfg b.journal.anchor.formatCount 2)))
      (.anchor .formatB) = true := by
  rw [anchorEnd_formatA hs hn] at hx
  obtain ⟨_, ⟨q, r, d, hj⟩, _, hport⟩ := anchorWritten_shut (b := anchorIdle b)
    (show b.journal.state ≠ .ready by simp [hs]) hn hx
  exact ⟨(congrArg JournalWriter.state hj).trans hs, hport⟩

theorem finishFirst_goesOn (hs : b.journal.state = .recovering) (hp : b.recovery.phase = .finish)
    (hx : x = finishEvent cfg (anchorEnd cfg .finishFirst .persisted b)) : x.journal.state = .recovering
    ∧ x.recovery.phase = .finish ∧ inPort x.mem (.anchorWrite (anchorLine cfg b.recovery.chosenCopy)
      (buildAnchor (finishFields cfg b.recovery (b.recovery.chosenGen + 2)))) (.anchor .finishSecond) = true := by
  rw [anchorEnd_finishFirst hp hn] at hx
  obtain ⟨hrecovery, ⟨q, r, d, hj⟩, _, hport⟩ := anchorWritten_shut (b := anchorIdle b)
    (show b.journal.state ≠ .ready by simp [hs]) hn hx
  exact ⟨(congrArg JournalWriter.state hj).trans hs, (congrArg RecoveryEngine.phase hrecovery).trans hp, hport⟩

theorem format_fails {p : AnchorPurpose} (hs : b.journal.state = .formatting) (hp : p = .formatA ∨ p = .formatB)
    (hx : x = finishEvent cfg (anchorEnd cfg p (.failed .error) b)) : x.journal.state = .failed
    ∧ x.journal.reason = some .anchorWriteFailed ∧ x.events.isPending .journalFailed = true := by
  rw [anchorEnd_format_fails hs hp] at hx
  obtain ⟨q, e, m, tr, v, hframe, _, _, hpending, _⟩ :=
    journalFail_frame (cfg := cfg) (reason := .anchorWriteFailed) (st := some .error) (b := anchorIdle b)
  have hfailed : (journalFail cfg .anchorWriteFailed (some .error) (anchorIdle b)).journal.state = .failed
      ∧ (journalFail cfg .anchorWriteFailed (some .error) (anchorIdle b)).journal.reason = some .anchorWriteFailed
      ∧ (journalFail cfg .anchorWriteFailed (some .error) (anchorIdle b)).journal.notice = false
      ∧ (journalFail cfg .anchorWriteFailed (some .error) (anchorIdle b)).events.isPending .journalFailed = true := by
    rw [hframe]
    exact ⟨rfl, rfl, hn, hpending⟩
  obtain ⟨hstate, hreason, hnotice, hraised⟩ := hfailed
  generalize journalFail cfg .anchorWriteFailed (some .error) (anchorIdle b) = y at *
  have hshut := finishEvent_shut (cfg := cfg) (y := y) (by simp [hstate]) hnotice
  rw [hx]
  exact ⟨hshut.state.trans hstate, hshut.reason.trans hreason, hshut.pending _ hraised⟩

/-- FORMAT has ended (R84). -/
theorem formatB_ends (hs : b.journal.state = .formatting) (hst : still cfg b = true) (hf : noFresh b = true)
    (hstall : noStall b = true) (hx : x = finishEvent cfg (anchorEnd cfg .formatB .persisted b)) :
    x.journal.state = .ready ∧ x.journal.reason = none ∧ x.events.isPending .formatDone = true
      ∧ x.journal.anchor.genA = 1 ∧ x.journal.anchor.genB = 2 := by
  rw [anchorEnd_formatB hs] at hx
  have hready := readied_formatLaid b
  have hanchor : (formatLaid (anchorIdle b)).journal.anchor.genA = 1 ∧ (formatLaid (anchorIdle b)).journal.anchor.genB = 2
      ∧ (formatLaid (anchorIdle b)).events.isPending .formatDone = true := ⟨rfl, rfl, raise_pending _ _⟩
  generalize formatLaid (anchorIdle b) = z at *
  obtain ⟨hA, hB, hraised⟩ := hanchor
  obtain ⟨y, hserved, hgrown⟩ := hready.calm hst hf hstall hn
  rw [hx, hgrown.grants.journal, hgrown.grants.events, hserved.state, hserved.reason, hserved.anchor, hserved.events]
  exact ⟨hready.state, hready.reason, hraised, hA, hB⟩

/-- Recovery has ended (R160). -/
theorem finishSecond_ends (hp : b.recovery.phase = .finish) (hst : still cfg b = true) (hf : noFresh b = true)
    (hstall : noStall b = true) (hx : x = finishEvent cfg (anchorEnd cfg .finishSecond .persisted b)) :
    x.journal.state = .ready ∧ x.recovery.phase = .ended ∧ x.events.isPending .recoveryDone = true
      ∧ x.epochs.counter = BitVec.ofNat 48 b.recovery.nextEpoch
      ∧ x.journal.anchor = finishAnchor b.recovery b.journal.anchor := by
  rw [anchorEnd_finishSecond hp hn] at hx
  have hready := readied_finishLaid b
  have hleft : (finishLaid (anchorIdle b)).recovery.phase = .ended
      ∧ (finishLaid (anchorIdle b)).events.isPending .recoveryDone = true
      ∧ (finishLaid (anchorIdle b)).epochs.counter = BitVec.ofNat 48 b.recovery.nextEpoch
      ∧ (finishLaid (anchorIdle b)).journal.anchor = finishAnchor b.recovery b.journal.anchor :=
    ⟨rfl, raise_pending _ _, rfl, rfl⟩
  generalize finishLaid (anchorIdle b) = z at *
  obtain ⟨hphase, hraised, hcounter, hanchor⟩ := hleft
  obtain ⟨y, hserved, hgrown⟩ := hready.calm hst hf hstall hn
  rw [hx, hgrown.grants.journal, hgrown.grants.events, hgrown.grants.recovery, hgrown.grants.epochs, hserved.state,
    hserved.recovery, hserved.events, hserved.epochs, hserved.anchor]
  exact ⟨hready.state, hphase, hraised, hcounter, hanchor⟩

/-- A COMMIT that waited for FORMAT is answered (R82, R84). -/
theorem formatB_answers {tag : Tag} {c : CtxId} (hs : b.journal.state = .formatting) (hst : still cfg b = true)
    (hone : oneRequest b i (.stalled cause) ⟨tag, .commit⟩) (hbind : cfg.bindings[i] = some c) (hc : (b.ctx c).state = .idle)
    (hx : x = finishEvent cfg (anchorEnd cfg .formatB .persisted b)) : x.journal.state = .ready
      ∧ idleStream (x.stream i) = true ∧ (x.stream i).sent = (b.stream i).sent ++ [.done tag .okay] := by
  rw [anchorEnd_formatB hs] at hx
  have hready := readied_formatLaid b
  generalize formatLaid (anchorIdle b) = z at *
  have hwaits := (hready.oneRequest hone).wakeAll
  have hquiet (k : CtxId) := wakeAll_quiet (hready.quiet ((held_of_still hst).context k))
  have hsent : ((wakeAll z).stream i).sent = (b.stream i).sent := by
    rw [wakeAll_wakes (hready.oneRequest hone).1, ← hready.stream i]
  obtain ⟨r, hr⟩ := wake_frame (fun _ _ _ => true) z
  have hwoken : (wakeAll z).journal = z.journal ∧ (wakeAll z).ctx c = z.ctx c := by
    rw [wakeAll, hr]
    exact ⟨rfl, rfl⟩
  generalize wakeAll z = y at *
  obtain ⟨hjournal, hctx⟩ := hwoken
  obtain ⟨hstate, hstream⟩ := finishEvent_answersCommit (cfg := cfg) (by rw [hjournal, hready.state])
    (by rw [hjournal, hready.notice, hn]) hquiet hwaits hbind (by rw [hctx, hready.ctx, hc])
  rw [hx, hstream]
  exact ⟨hstate, rfl, congrArg (· ++ _) hsent⟩

/-- A READ that waited for recovery goes to memory (R82, R160). -/
theorem finishSecond_reads {tag : Tag} {addr : Addr} {w : Window} (hp : b.recovery.phase = .finish)
    (hst : still cfg b = true) (hone : oneRequest b i (.stalled cause) ⟨tag, .read addr⟩)
    (hw : lookup cfg (lineOf addr) = .window w) (hkind : w.kind = .journaled) (hr : b.lineRestoring (lineOf addr) = false)
    (hcover : b.held.coverMask (lineOf addr) ≠ fullMask)
    (hx : x = finishEvent cfg (anchorEnd cfg .finishSecond .persisted b)) : x.journal.state = .ready
      ∧ (x.stream i).phase = .reading ∧ inPort x.mem (.lineRead (lineOf addr)) (.passRead i true) = true := by
  rw [anchorEnd_finishSecond hp hn] at hx
  have hready := readied_finishLaid b
  generalize finishLaid (anchorIdle b) = z at *
  have hwaits := (hready.oneRequest hone).wakeAll
  have hquiet (k : CtxId) := wakeAll_quiet (hready.quiet ((held_of_still hst).context k))
  obtain ⟨r, hframe⟩ := wake_frame (fun _ _ _ => true) z
  have hwoken : (wakeAll z).journal = z.journal ∧ (wakeAll z).track = z.track ∧ (wakeAll z).held = z.held := by
    rw [wakeAll, hframe]
    exact ⟨rfl, rfl, rfl⟩
  generalize wakeAll z = y at *
  obtain ⟨hjournal, htrack, hheld⟩ := hwoken
  obtain ⟨hstate, hreads⟩ := finishEvent_reads (cfg := cfg) (b := y) (by simp [hjournal, hready.state])
    (by rw [hjournal, hready.notice, hn]) hquiet hwaits hw hkind
    (by simpa [Blocks.lineRestoring, Blocks.entryOf, htrack, hready.track] using hr) (by rwa [hheld, hready.held])
  rw [hx]
  exact ⟨hstate.trans (by rw [hjournal, hready.state]), hreads⟩

end Events

/-- Settles O54. -/
theorem lastAnchorCopyMakesTheJournalReady : Obligations.LastAnchorCopyMakesTheJournalReady := by
  intro id o s hup hn hm hop
  obtain ⟨l, bytes, hop⟩ := hop
  have hpersisted {p : AnchorPurpose} (how : o.owner = .anchor p) : ∃ t, exec (.anchorWriteDone id .persisted) s = .next t
      ∧ t.blocks = finishEvent s.mgmt.active (anchorEnd s.mgmt.active p .persisted (freeSlot id.slot s.blocks)) := by
    refine ⟨_, exec_completion hup hm (cmd := .anchorWriteDone id .persisted) rfl (e := .persisted) (by rw [hop]; rfl), ?_⟩
    rw [after_blocks]
    unfold handBack
    rw [how]
  have herror {p : AnchorPurpose} (how : o.owner = .anchor p) : ∃ t, exec (.anchorWriteDone id .error) s = .next t
      ∧ t.blocks = finishEvent s.mgmt.active (anchorEnd s.mgmt.active p (.failed .error) (freeSlot id.slot s.blocks)) := by
    refine ⟨_, exec_completion hup hm (cmd := .anchorWriteDone id .error) rfl (e := .failed .error) (by rw [hop]; rfl), ?_⟩
    rw [after_blocks]
    unfold handBack
    rw [how]
  have hstill {p : AnchorPurpose} (how : o.owner = .anchor p) (hs : atRest s = true) :
      still s.mgmt.active (freeSlot id.slot s.blocks) = true :=
    still_freed hs hm (by simp [how, Owner.restoreOf]) s.blocks.clock
  refine ⟨fun i tag c hs how hrest hstalled hbind hc => ?_, fun i tag a w hs hp how hrest hstalled hw hkind hr hcover => ?_,
    fun hs how => ?_, fun hs how hcalm => ?_, fun hp how hcalm => ?_, fun ch q hs hp how hch hq => ?_, fun hs how => ?_,
    fun hp how => ?_⟩
  · obtain ⟨t, hexec, ht⟩ := hpersisted how
    exact ⟨t, hexec, formatB_answers (b := freeSlot id.slot s.blocks) hn hs (hstill how hrest) hstalled hbind hc ht⟩
  · obtain ⟨t, hexec, ht⟩ := hpersisted how
    exact ⟨t, hexec, finishSecond_reads (b := freeSlot id.slot s.blocks) hn hp (hstill how hrest) hstalled hw hkind hr hcover ht⟩
  · obtain ⟨t, hexec, ht⟩ := hpersisted how
    exact ⟨t, hexec, formatA_goesOn (b := freeSlot id.slot s.blocks) hn hs ht⟩
  · obtain ⟨hrest, hstall⟩ := (calm_iff s).1 hcalm
    obtain ⟨_, _, _, hf, _⟩ := (atRest_iff s).1 hrest
    obtain ⟨t, hexec, ht⟩ := hpersisted how
    exact ⟨t, hexec, formatB_ends (b := freeSlot id.slot s.blocks) hn hs (hstill how hrest) hf hstall ht⟩
  · obtain ⟨hrest, hstall⟩ := (calm_iff s).1 hcalm
    obtain ⟨_, _, _, hf, _⟩ := (atRest_iff s).1 hrest
    obtain ⟨t, hexec, ht⟩ := hpersisted how
    obtain ⟨hstate, hphase, hraised, hcounter, hanchor⟩ :=
      finishSecond_ends (b := freeSlot id.slot s.blocks) hn hp (hstill how hrest) hf hstall ht
    refine ⟨t, hexec, hstate, hphase, hraised, hcounter, fun ch hch => ?_⟩
    rw [hanchor]
    exact finishAnchor_gens hch _
  · obtain ⟨t, hexec, ht⟩ := hpersisted how
    obtain ⟨hstate, hphase, hport⟩ := finishFirst_goesOn (b := freeSlot id.slot s.blocks) (cfg := s.mgmt.active) hn hs hp ht
    refine ⟨t, hexec, hstate, hphase, ?_⟩
    have hfields : finishFields s.mgmt.active s.blocks.recovery (s.blocks.recovery.chosenGen + 2) =
        ⟨ch.generation + 2, 0, q.seq, BitVec.ofNat 48 (max ch.nextEpoch.toNat (s.blocks.recovery.largest.toNat + 1)),
          s.mgmt.active.journal.ringSize, ch.formatCount⟩ := by
      simp [finishFields, RecoveryEngine.chosenGen, RecoveryEngine.endSeq, RecoveryEngine.nextEpoch,
        RecoveryEngine.formatCount, hch, hq]
    have hcopy : s.blocks.recovery.chosenCopy = ch.copy := by rw [RecoveryEngine.chosenCopy, hch]; rfl
    rw [← hfields, ← hcopy]
    exact hport
  · have howner : ∃ p, o.owner = .anchor p ∧ (p = .formatA ∨ p = .formatB) := by
      rcases how with how | how
      · exact ⟨_, how, .inl rfl⟩
      · exact ⟨_, how, .inr rfl⟩
    obtain ⟨p, how, hp⟩ := howner
    obtain ⟨t, hexec, ht⟩ := herror how
    exact ⟨t, hexec, format_fails (b := freeSlot id.slot s.blocks) hn hs hp ht⟩
  · have howner : ∃ p, o.owner = .anchor p ∧ (p = .finishFirst ∨ p = .finishSecond) := by
      rcases how with how | how
      · exact ⟨_, how, .inl rfl⟩
      · exact ⟨_, how, .inr rfl⟩
    obtain ⟨p, how, hpurpose⟩ := howner
    have hfails := anchorEnd_finish_fails (cfg := s.mgmt.active) (b := freeSlot id.slot s.blocks) hp hpurpose
    obtain ⟨t, hexec, ht⟩ := herror how
    rw [hfails] at ht
    exact ⟨t, hexec, recoveryFails_of (cfg := s.mgmt.active) (b := anchorIdle (freeSlot id.slot s.blocks)) hn ht⟩

end Sys2Proof.Rounds


/-! SUPPORT. What a READY journal evaluates: the pause flag (R80) and the anchor condition (R77, R78). -/

namespace Sys2Proof.Rounds

open Sys2Proof.Machine Sys2Proof.Safety Sys2Proof.Laws Sys2Proof.Arrivals Sys2Proof.Expiries

variable {cfg : Image} {b x : Blocks} {s t : State} {copy : AnchorCopy}

/-! ## The anchor condition -/

theorem anchorDue_iff (j : JournalWriter) : anchorDue cfg j = true ↔ (j.state = .ready ∧ j.notice = false)
    ∧ j.anchor.busy = false ∧ (cfg.stride ≤ j.anchored.distance j.head ∨ (j.pause = true ∧ j.anchored.distance j.head ≠ 0)) := by
  simp [anchorDue, and_assoc]

theorem target_of_updateTarget {a : AnchorState} (h : updateTarget a copy) : a.target = copy := by
  unfold AnchorState.target
  obtain ⟨hother, hsuspect | ⟨hahead, hbehind⟩⟩ := h
  · cases copy <;> simp_all [suspectOf, AnchorCopy.other]
  · cases copy with
    | a =>
      cases ha : a.suspectA <;> simp_all [suspectOf, genOf, AnchorCopy.other]
    | b =>
      cases hb : a.suspectB <;> simp_all [suspectOf, genOf, AnchorCopy.other]

theorem nextGen_eq (a : AnchorState) (copy : AnchorCopy) : a.nextGen copy = genOf a copy.other + 1 := by
  cases copy <;> rfl

/-- What the evaluation of the anchor condition leaves. -/
theorem anchorCheck_frame (cfg : Image) (b : Blocks) : ∃ m, anchorCheck cfg b = { b with
      mem := m
      journal := { b.journal with
        anchor := { b.journal.anchor with busy := b.journal.anchor.busy || anchorDue cfg b.journal } } }
    ∧ m.slots = b.mem.slots ∧ ∀ r ∈ b.mem.waiting, r ∈ m.waiting := by
  unfold anchorCheck
  split
  · rename_i hdue
    unfold startAnchor writeAnchor
    dsimp only
    generalize MemOp.anchorWrite _ _ = op
    generalize AnchorPurpose.update _ _ _ = p
    have hserved := served_handOver op .anchor (.anchor p)
      (b.modJournal fun j => { j with anchor := { j.anchor with busy := true } })
    obtain ⟨m, hm, hslots⟩ := handOver_frame op .anchor (.anchor p)
      (b.modJournal fun j => { j with anchor := { j.anchor with busy := true } })
    rw [hm] at hserved ⊢
    rw [hdue, Bool.or_true]
    exact ⟨m, rfl, hslots, hserved.waits⟩
  · rename_i hdue
    rw [Bool.eq_false_iff.2 hdue, Bool.or_false]
    exact ⟨b.mem, rfl, rfl, fun _ h => h⟩

theorem anchorCheck_again (cfg : Image) (b : Blocks) : anchorCheck cfg (anchorCheck cfg b) = anchorCheck cfg b := by
  by_cases hdue : anchorDue cfg b.journal = true
  · obtain ⟨m, hm, _⟩ := anchorCheck_frame cfg b
    rw [hdue, Bool.or_true] at hm
    rw [hm, anchorCheck, if_neg]
    rw [anchorDue_iff]
    simp
  · have hsame : anchorCheck cfg b = b := if_neg hdue
    rw [hsame, hsame]

/-- The write of an anchor update stands at the port. -/
theorem anchorCheck_inPort (hdue : anchorDue cfg b.journal = true) :
    let j := b.journal
    inPort (anchorCheck cfg b).mem (.anchorWrite (anchorLine cfg j.anchor.target) (buildAnchor
      ⟨j.anchor.nextGen j.anchor.target, BitVec.ofNat 32 j.head.idx, j.head.seq, b.epochs.counter,
        cfg.journal.ringSize, j.anchor.formatCount⟩))
      (.anchor (.update j.anchor.target (j.anchor.nextGen j.anchor.target) j.head)) = true := by
  obtain ⟨⟨_, hn⟩, _⟩ := (anchorDue_iff _).1 hdue
  unfold anchorCheck
  rw [if_pos hdue]
  exact writeAnchor_inPort hn _ _ _

/-- An update that the condition starts stands at the port at the end of the event (R77, R78). -/
theorem updateEvaluated_of (hs : b.journal.state = .ready) (hn : b.journal.notice = false)
    (hx : Served (anchorCheck cfg b) x) (ht : Grown x t.blocks) :
    updateEvaluated cfg b.journal b.epochs.counter t := by
  have hanchor : t.blocks.journal.anchor = (anchorCheck cfg b).journal.anchor := by
    rw [ht.grants.journal, hx.anchor]
  obtain ⟨m, hm, _⟩ := anchorCheck_frame cfg b
  have hdue := anchorDue_iff (cfg := cfg) b.journal
  rw [and_iff_right ⟨hs, hn⟩] at hdue
  refine ⟨fun h copy hcopy => ?_, fun h => ?_⟩
  · have hport := anchorCheck_inPort (hdue.2 h)
    dsimp only at hport
    rw [target_of_updateTarget hcopy, nextGen_eq] at hport
    refine ⟨ht.port _ _ (fun _ => Owner.noConfusion) (hx.inPort hport), ?_⟩
    rw [hanchor, hm, hdue.2 h, Bool.or_true]
  · have hnot : anchorCheck cfg b = b := if_neg fun hd => h (hdue.1 hd)
    rw [hanchor, hnot]

/-! ## The pause flag -/

/-- The blocks with the pause flag as a READY journal evaluates it, with the event of a change (R80). -/
def pauseSet (cfg : Image) (b : Blocks) : Blocks :=
  { b with
    journal := { b.journal with pause := pauseNow cfg b.journal }
    events := pauseRaises cfg b.journal b.events }

theorem pauseSet_same (h : pauseNow cfg b.journal = b.journal.pause) : pauseSet cfg b = b := by
  unfold pauseSet pauseRaises
  rw [if_pos h, h]

/-- The flag is set. -/
theorem pauseSet_sets (hp : b.journal.pause = false) (hnow : pauseNow cfg b.journal = true) :
    pauseSet cfg b = raise .capturePaused (b.modJournal fun j => { j with pause := true }) := by
  unfold pauseSet pauseRaises
  rw [hnow, hp]
  rfl

/-- The flag is cleared. -/
theorem pauseSet_clears (hp : b.journal.pause = true) (hnow : pauseNow cfg b.journal = false) :
    pauseSet cfg b = raise .captureResumed (b.modJournal fun j => { j with pause := false }) := by
  unfold pauseSet pauseRaises
  rw [hnow, hp]
  rfl

theorem evalPause_eq (hs : b.journal.state = .ready) (hstall : noStall b = true) : evalPause cfg b =
    if pauseNow cfg b.journal = true ∧ b.journal.pause = false then anchorCheck cfg (pauseSet cfg b) else pauseSet cfg b := by
  unfold evalPause
  dsimp only
  rw [if_neg (not_not.2 hs)]
  cases hp : b.journal.pause with
  | false =>
    have hnow : pauseNow cfg b.journal = decide (b.journal.unreserved cfg.ringN < cfg.pauseAt) := by
      rw [pauseNow, hp]
      exact if_neg Bool.false_ne_true
    rw [Bool.not_false, Bool.true_and, ← hnow, Bool.false_and]
    cases hset : pauseNow cfg b.journal with
    | true => rw [if_pos rfl, if_pos ⟨rfl, rfl⟩, pauseSet_sets hp hset]
    | false =>
      rw [if_neg Bool.false_ne_true, if_neg Bool.false_ne_true, if_neg fun h => Bool.false_ne_true h.1]
      exact (pauseSet_same (hset.trans hp.symm)).symm
  | true =>
    have hnow : pauseNow cfg b.journal = !decide (cfg.resumeAt ≤ b.journal.unreserved cfg.ringN) := by
      rw [pauseNow, hp, if_pos rfl]
      exact (decide_eq_decide.2 Nat.not_le.symm).trans decide_not
    have hnot : ¬(pauseNow cfg b.journal = true ∧ true = false) := fun h => Bool.false_ne_true h.2.symm
    rw [Bool.not_true, Bool.false_and, Bool.true_and, if_neg Bool.false_ne_true, if_neg hnot]
    cases hspace : decide (cfg.resumeAt ≤ b.journal.unreserved cfg.ringN) with
    | true =>
      rw [hspace] at hnow
      have hnone : noStall (raise .captureResumed (b.modJournal fun j => { j with pause := false })) = true := by
        rw [noStall_iff] at hstall ⊢
        simpa [raise] using hstall
      rw [if_pos rfl, pauseSet_clears hp hnow, wakeCapture, wake_noStall hnone]
    | false =>
      rw [hspace] at hnow
      rw [if_neg Bool.false_ne_true]
      exact (pauseSet_same (hnow.trans hp.symm)).symm

/-- What the evaluation of the flag leaves. -/
theorem evalPause_frame (hs : b.journal.state = .ready) (hstall : noStall b = true) : ∃ m, evalPause cfg b = { b with
      mem := m
      journal := { b.journal with
        pause := pauseNow cfg b.journal
        anchor := { b.journal.anchor with busy := b.journal.anchor.busy
          || (pauseNow cfg b.journal && !b.journal.pause && anchorDue cfg { b.journal with pause := true }) } }
      events := pauseRaises cfg b.journal b.events }
    ∧ m.slots = b.mem.slots ∧ ∀ r ∈ b.mem.waiting, r ∈ m.waiting := by
  rw [evalPause_eq hs hstall]
  split
  · rename_i hset
    obtain ⟨hnow, hpause⟩ := hset
    obtain ⟨m, hm, hslots, hwaits⟩ := anchorCheck_frame cfg (pauseSet cfg b)
    refine ⟨m, hm.trans ?_, hslots, hwaits⟩
    simp only [pauseSet, hnow, hpause, Bool.not_false, Bool.true_and]
  · rename_i hset
    have hnot : (pauseNow cfg b.journal && !b.journal.pause) = false := by simpa using hset
    refine ⟨b.mem, ?_, rfl, fun _ h => h⟩
    simp only [pauseSet, hnot, Bool.false_and, Bool.or_false]

theorem evalPause_noStall (hs : b.journal.state = .ready) (hstall : noStall b = true) : noStall (evalPause cfg b) = true := by
  obtain ⟨m, hm, _⟩ := evalPause_frame (cfg := cfg) hs hstall
  rw [hm]
  exact hstall

/-- The pause flag is evaluated, and then the anchor condition. -/
theorem anchorCheck_evalPause (hs : b.journal.state = .ready) (hstall : noStall b = true) :
    anchorCheck cfg (evalPause cfg b) = anchorCheck cfg (pauseSet cfg b) := by
  rw [evalPause_eq hs hstall]
  split
  · exact anchorCheck_again _ _
  · rfl

/-- What is evaluated changes the pause flag, the events, and the anchor writes. -/
theorem anchorCheck_pauseSet_stands (cfg : Image) (b : Blocks) : Stands b (anchorCheck cfg (pauseSet cfg b)) := by
  obtain ⟨m, hm, hslots, _⟩ := anchorCheck_frame cfg (pauseSet cfg b)
  rw [hm]
  exact ⟨fun _ => ⟨rfl, rfl⟩, fun _ => rfl, rfl, restoreOutstanding_congr hslots, rfl, rfl, rfl, rfl, rfl, le_rfl⟩

end Sys2Proof.Rounds


/-! SUPPORT. A first touch (R12, R13, R25, R45). -/

namespace Sys2Proof.Rounds

open Sys2Proof.Machine Sys2Proof.Safety Sys2Proof.Laws Sys2Proof.Arrivals Sys2Proof.Expiries

variable {cfg : Image} {b b' x y : Blocks} {s t : State} {i : StreamId} {c k : CtxId} {line : Addr} {m : ByteMask}
  {d : LineData} {tag : Tag} {a : Addr}

/-! ## The classification -/

/-- A WRITE of stream i to a line passes every check and is a first touch of context c (R10, R12). -/
structure Touches (cfg : Image) (b : Blocks) (i : StreamId) (line : Addr) (m : ByteMask) (c : CtxId) : Prop where
  mask : m ≠ 0
  window : ∃ w, lookup cfg line = .window w ∧ w.kind = .journaled ∧ w.writers.getLsbD i.val = true
  binding : cfg.bindings[i] = some c
  ready : b.journal.state = .ready
  state : (b.ctx c).state = .idle ∨ (b.ctx c).state = .opened
  outstanding : (b.stream i).outstanding < Config.outstandingLimit
  untracked : b.entryOf line = none
  quota : b.trackedCount c < cfg.ctxs[c].quota.toNat
  pause : b.journal.pause = false
  space : slotsNeeded (b.ctx c).state ≤ b.journal.unreserved cfg.ringN
  room : b.held.full = false

theorem Touches.classifies (h : Touches cfg b i line m c) : classifyWrite cfg b i line m = .firstTouch c := by
  obtain ⟨w, hw, hkind, hwriter⟩ := h.window
  rw [classifyWrite_journaled h.mask hw hkind hwriter, classifyJournaled_ready h.binding h.ready,
    classifyInContext_collects h.state, classifyTracked_untracked h.untracked, classifyUntracked,
    if_neg (Nat.not_le.2 h.quota), if_neg, if_neg (by simp [h.room])]
  simpa [h.pause] using h.space

theorem Touches.handles (h : Touches cfg b i (lineOf a) m c) (hq : (b.stream i).queue = [⟨tag, .write a m d⟩]) :
    handleCurrent cfg i b = firstTouch cfg i c (lineOf a) m d b := by
  unfold handleCurrent
  rw [hq]
  dsimp only
  unfold handleWrite
  rw [if_neg (Nat.ne_of_lt h.outstanding), h.classifies]

/-! ## What a first touch makes -/

/-- The epoch of a first touch (R25, R26). -/
def touchEpoch (c : CtxId) (b : Blocks) : Option Epoch :=
  if (b.ctx c).state = .idle then some b.epochs.counter else (b.ctx c).epoch

/-- The epoch counter after a first touch (R26, R27). -/
def touchCounter (c : CtxId) (b : Blocks) : Epoch :=
  if (b.ctx c).state = .idle ∧ b.epochs.counter ≠ lastEpoch then b.epochs.counter + 1 else b.epochs.counter

/-- The context record after a first touch (R25, R31). -/
def touchCtx (cfg : Image) (c : CtxId) (b : Blocks) : Context :=
  { b.ctx c with
    state := .opened
    epoch := touchEpoch c b
    undoCount := if (b.ctx c).state = .idle then 0 else (b.ctx c).undoCount
    idleTimer := if cfg.ctxs[c].idleInterval.toNat = 0 then none else some (b.clock + 10 * cfg.ctxs[c].idleInterval.toNat) }

/-- The tracking entry that a first touch makes (R45). -/
def touchEntry (i : StreamId) (c : CtxId) (line : Addr) (b : Blocks) : TrackEntry :=
  ⟨line, c, (touchEpoch c b).getD 0, .capturing, none, b.nextCapture, i⟩

/-- The Journal Writer when a first touch has been taken in (R66, R70). -/
def touchJournal (c : CtxId) (b : Blocks) : JournalWriter :=
  { b.journal with
    captureQueue := b.journal.captureQueue ++ [b.nextCapture]
    reserved := b.journal.reserved + slotsNeeded (b.ctx c).state }

/-- The blocks when a first touch has been taken in, before the pause flag is evaluated (R13). -/
def touched (cfg : Image) (i : StreamId) (c : CtxId) (line : Addr) (m : ByteMask) (d : LineData) (b : Blocks) : Blocks :=
  (acceptJournaled cfg i c (allocHeld i c line m d .waitLog (insertEntry i c line
    (if (b.ctx c).state = .idle then openEpoch c b else b)))).modJournal fun j =>
      { j with reserved := j.reserved + slotsNeeded (b.ctx c).state }

/-- A stream record when its one WRITE has been accepted (R142). -/
def writeAccepted (tag : Tag) (r : StreamRec) : StreamRec :=
  { goneOn [] (.ack tag .okay) r with outstanding := r.outstanding + 1 }

/-- What a first touch has made (R13). -/
structure Touched (cfg : Image) (i : StreamId) (c : CtxId) (line : Addr) (m : ByteMask) (d : LineData) (tag : Tag)
    (b b' : Blocks) : Prop where
  frame : ∃ q e, b' = { b with
    req := q
    epochs := e
    track := b.track ++ [touchEntry i c line b]
    held := { b.held with entries := b.held.entries ++ [⟨i, [(i, 1)], c, line, m, d, .waitLog, false⟩] }
    journal := touchJournal c b
    nextCapture := b.nextCapture + 1 }
  counter : b'.epochs.counter = touchCounter c b
  ctx : b'.ctx c = touchCtx cfg c b
  others : ∀ k, k ≠ c → b'.ctx k = b.ctx k
  stream : b'.stream i = writeAccepted tag (b.stream i)
  streams : ∀ k, k ≠ i → b'.stream k = b.stream k

/-- A context record when a journaled WRITE has been accepted in OPEN (R31). -/
def timerStarted (cfg : Image) (c : CtxId) (now : Nat) (x : Context) : Context :=
  { x with idleTimer := if cfg.ctxs[c].idleInterval.toNat = 0 then none else some (now + 10 * cfg.ctxs[c].idleInterval.toNat) }

theorem acceptWrite_front (hq : (b.stream i).queue = [⟨tag, .write a m d⟩]) :
    acceptWrite i b = b.modStream i (writeAccepted tag) := by
  unfold acceptWrite
  rw [answer_front hq, Blocks.modStream_modStream]
  rfl

theorem acceptJournaled_front (hq : (b.stream i).queue = [⟨tag, .write a m d⟩]) (hopen : (b.ctx c).state = .opened) :
    acceptJournaled cfg i c b = (b.modStream i (writeAccepted tag)).modCtx c (timerStarted cfg c b.clock) := by
  unfold acceptJournaled
  dsimp only
  rw [acceptWrite_front hq, if_pos (by rw [Blocks.modStream_ctx, hopen])]
  rfl

/-- The blocks with context c open for a first touch. -/
def openFor (c : CtxId) (b : Blocks) : Blocks := if (b.ctx c).state = .idle then openEpoch c b else b

theorem openFor_spec (hstate : (b.ctx c).state = .idle ∨ (b.ctx c).state = .opened) : (∃ e, openFor c b = { b with epochs := e })
    ∧ (openFor c b).ctx c = { b.ctx c with
        state := .opened, epoch := touchEpoch c b, undoCount := if (b.ctx c).state = .idle then 0 else (b.ctx c).undoCount }
    ∧ (∀ k, k ≠ c → (openFor c b).ctx k = b.ctx k) ∧ (openFor c b).epochs.counter = touchCounter c b := by
  unfold openFor touchEpoch touchCounter
  rcases hstate with h | h
  · simp only [h, if_true, true_and]
    have hctx := Tracked.openEpoch_ctx c b
    refine ⟨⟨_, rfl⟩, ?_, fun k hk => ?_, ?_⟩
    · rw [hctx, if_pos rfl]
    · rw [hctx, if_neg hk]
    · by_cases hlast : b.epochs.counter = lastEpoch
      · simp [openEpoch, hlast]
      · simp [openEpoch, hlast]
  · simp only [h, reduceCtorEq, if_false, false_and]
    refine ⟨⟨b.epochs, rfl⟩, ?_, fun _ _ => trivial, trivial⟩
    rw [← h]

theorem touched_spec (hstate : (b.ctx c).state = .idle ∨ (b.ctx c).state = .opened)
    (hq : (b.stream i).queue = [⟨tag, .write a m d⟩]) : Touched cfg i c line m d tag b (touched cfg i c line m d b) := by
  obtain ⟨⟨e, hframe⟩, hctx, hothers, hcounter⟩ := openFor_spec hstate
  have hentry : insertEntry i c line (openFor c b) = { openFor c b with
      track := b.track ++ [touchEntry i c line b]
      journal := { b.journal with captureQueue := b.journal.captureQueue ++ [b.nextCapture] }
      nextCapture := b.nextCapture + 1 } := by
    unfold insertEntry touchEntry
    dsimp only
    rw [hctx, hframe]
  have haccept (u : Blocks) (hu : u = { b with
      epochs := e
      track := b.track ++ [touchEntry i c line b]
      held := { b.held with entries := b.held.entries ++ [⟨i, [(i, 1)], c, line, m, d, .waitLog, false⟩] }
      journal := { b.journal with captureQueue := b.journal.captureQueue ++ [b.nextCapture] }
      nextCapture := b.nextCapture + 1 }) :
      acceptJournaled cfg i c u = (u.modStream i (writeAccepted tag)).modCtx c (timerStarted cfg c b.clock) := by
    rw [hframe] at hctx
    rw [acceptJournaled_front (tag := tag) (a := a) (m := m) (d := d) (by rw [hu]; exact hq)
      (by rw [hu]; exact congrArg Context.state hctx), hu]
  have htouched : touched cfg i c line m d b = ((Blocks.modStream { b with
      epochs := e
      track := b.track ++ [touchEntry i c line b]
      held := { b.held with entries := b.held.entries ++ [⟨i, [(i, 1)], c, line, m, d, .waitLog, false⟩] }
      journal := touchJournal c b
      nextCapture := b.nextCapture + 1 } i (writeAccepted tag)).modCtx c (timerStarted cfg c b.clock)) := by
    have htaken := haccept (allocHeld i c line m d .waitLog (insertEntry i c line (openFor c b))) (by rw [hentry, hframe]; rfl)
    rw [touched, ← openFor, htaken, hentry, hframe]
    rfl
  rw [htouched]
  rw [hframe] at hctx hothers hcounter
  refine ⟨⟨_, _, rfl⟩, hcounter, ?_, fun k hk => ?_, ?_, fun k hk => ?_⟩
  · rw [Blocks.modCtx_ctx_same, Blocks.modStream_ctx]
    exact congrArg (timerStarted cfg c b.clock) hctx
  · rw [Blocks.modCtx_ctx, if_neg hk, Blocks.modStream_ctx]
    exact hothers k hk
  · rw [Blocks.modCtx_stream, Blocks.modStream_stream, if_pos rfl]
    rfl
  · rw [Blocks.modCtx_stream, Blocks.modStream_stream, if_neg hk]
    rfl

/-! ## What stands when it has been taken in -/

theorem Touched.ready (h : Touched cfg i c line m d tag b b') (hready : b.journal.state = .ready) : b'.journal.state = .ready := by
  obtain ⟨q, e, hframe⟩ := h.frame
  rw [hframe]
  exact hready


/-- Contexts stay quiet when neither they nor their held writes and their lines have changed. -/
theorem ctxQuiet_entries (h : ctxQuiet b k) (hctx : b'.ctx k = b.ctx k) (hcount : b'.heldCount k = b.heldCount k)
    (hentries : b'.entriesOf k = b.entriesOf k) (hout : b'.mem.restoreOutstanding k = b.mem.restoreOutstanding k)
    (hnotice : b'.journal.notice = b.journal.notice) : ctxQuiet b' k := by
  have hcapturing (x : Blocks) : x.capturing k = (x.entriesOf k).any fun e => decide (e.state = .capturing) := by
    simp [Blocks.capturing, Blocks.entriesOf, List.any_filter]
  simp only [ctxQuiet, drainDue, quiesceDue, nextRestore_none, retireDue, rollbackIn, unslotted, hcapturing, hctx, hcount,
    hentries, hout, hnotice] at h ⊢
  exact h

theorem Touched.quiet (h : Touched cfg i c line m d tag b b') (hquiet : ∀ k, ctxQuiet b k) (k : CtxId) : ctxQuiet b' k := by
  by_cases hk : k = c
  · rw [hk]
    refine ctxQuiet_of_state ?_ ?_
    · rw [h.ctx]
      exact CtxState.noConfusion
    · rw [h.ctx]
      exact CtxState.noConfusion
  · have hctx := h.others k hk
    obtain ⟨q, e, hframe⟩ := h.frame
    have hck : ¬c = k := fun hck => hk hck.symm
    have hcount : b'.heldCount k = b.heldCount k := by
      simp [hframe, Blocks.heldCount, List.filter_append, hck]
    have hentries : b'.entriesOf k = b.entriesOf k := by
      simp [hframe, Blocks.entriesOf, List.filter_append, touchEntry, hck]
    have hmem : b'.mem = b.mem := by rw [hframe]
    have hnotice : b'.journal.notice = b.journal.notice := by rw [hframe]; rfl
    exact ctxQuiet_entries (hquiet k) hctx hcount hentries (by rw [hmem]) hnotice

/-- The blocks of a first touch are the blocks it has taken in, with the flag evaluated, and with the requests of its
context classified again when it opened an epoch. -/
theorem firstTouch_taken (h : (b.ctx c).state = .idle → b.epochs.counter ≠ lastEpoch) (hready : b.journal.state = .ready)
    (hstate : (b.ctx c).state = .idle ∨ (b.ctx c).state = .opened) (hq : (b.stream i).queue = [⟨tag, .write a m d⟩])
    (hstall : noStall (touched cfg i c line m d b) = true) :
    firstTouch cfg i c line m d b = evalPause cfg (touched cfg i c line m d b) := by
  have htaken : evalPause cfg (touched cfg i c line m d b) = reserve cfg (slotsNeeded (b.ctx c).state)
      (acceptJournaled cfg i c (allocHeld i c line m d .waitLog (insertEntry i c line (openFor c b)))) := rfl
  have hnone := evalPause_noStall (cfg := cfg) ((touched_spec (cfg := cfg) (line := line) hstate hq).ready hready) hstall
  rw [htaken] at hnone ⊢
  unfold firstTouch
  dsimp only
  by_cases hidle : (b.ctx c).state = .idle
  · have hexhausted : (decide ((b.ctx c).state = .idle) && decide (b.epochs.counter = lastEpoch)) = false := by
      simp [h hidle]
    rw [hexhausted, if_neg Bool.false_ne_true, if_pos (decide_eq_true hidle), wakeContext]
    simp only [decide_eq_true hidle, if_true]
    unfold openFor at hnone ⊢
    rw [if_pos hidle] at hnone ⊢
    exact wake_noStall hnone _
  · have hexhausted : (decide ((b.ctx c).state = .idle) && decide (b.epochs.counter = lastEpoch)) = false := by
      simp [hidle]
    rw [hexhausted, if_neg Bool.false_ne_true]
    simp only [decide_eq_false hidle, Bool.false_eq_true, if_false]
    unfold openFor
    rw [if_neg hidle]

end Sys2Proof.Rounds


/-! SUPPORT. The event in which a WRITE that waited is accepted as a first touch (R55, R81). -/

namespace Sys2Proof.Rounds

open Sys2Proof.Machine Sys2Proof.Safety Sys2Proof.Laws Sys2Proof.Arrivals Sys2Proof.Expiries

variable {cfg : Image} {b b' x y : Blocks} {s t : State} {i : StreamId} {c k : CtxId} {line : Addr} {m : ByteMask}
  {d : LineData} {tag : Tag} {a : Addr}

/-- A WRITE passes the checks still when the buffer has been served and no marker staged. -/
theorem Touches.served (h : Touches cfg b i line m c) (hy : Served b y) (hring : sameRing b y) : Touches cfg y i line m c where
  mask := h.mask
  window := h.window
  binding := h.binding
  ready := hy.state.trans h.ready
  state := by rw [hy.ctx]; exact h.state
  outstanding := by rw [hy.stream]; exact h.outstanding
  untracked := by rw [Blocks.entryOf, hy.track]; exact h.untracked
  quota := by rw [Blocks.trackedCount, Blocks.entriesOf, hy.track]; exact h.quota
  pause := hy.pause.trans h.pause
  space := by
    obtain ⟨htail, _, hreserved⟩ := hring
    rw [hy.ctx, JournalWriter.unreserved, JournalWriter.freeSpace, JournalWriter.inUse, hy.anchored, htail, hreserved]
    exact h.space
  room := by rw [hy.held]; exact h.room

theorem writeAccepted_idle (tag : Tag) (r : StreamRec) : idleStream (writeAccepted tag r) = true := rfl

/-- The streams when the one request has been accepted as a first touch. -/
theorem Touched.idle {w : Request} {p : Phase} (h : Touched cfg i c line m d tag b b') (hone : oneRequest b i p w)
    (k : StreamId) : idleStream (b'.stream k) = true := by
  by_cases hk : k = i
  · rw [hk, h.stream]
    exact writeAccepted_idle tag _
  · rw [h.streams k hk]
    exact hone.2.2 k hk

theorem noStall_of_idle (h : ∀ k, idleStream (b.stream k) = true) : noStall b = true :=
  (noStall_iff b).2 fun k cause => by
    rw [phase_of_idleStream (h k)]
    exact Phase.noConfusion

theorem noFresh_of_idle (h : ∀ k, idleStream (b.stream k) = true) : noFresh b = true :=
  (noFresh_iff b).2 fun k => by
    rw [phase_of_idleStream (h k)]
    exact Phase.noConfusion

theorem notDue_of_idle (h : ∀ k, idleStream (b.stream k) = true) : notDue b := fun k => by
  have hphase := phase_of_idleStream (h k)
  simp [barrierDue, countDue, hphase]

/-- What the evaluation of the flag changes is no context's business. -/
theorem evalPause_quiet (hs : b.journal.state = .ready) (hstall : noStall b = true) (h : ctxQuiet b k) :
    ctxQuiet (evalPause cfg b) k := by
  obtain ⟨q, hq, hslots, _⟩ := evalPause_frame (cfg := cfg) hs hstall
  rw [hq]
  exact ctxQuiet_same h rfl rfl rfl (restoreOutstanding_congr hslots k) rfl

/-- The event in which the one request, a WRITE, is accepted as a first touch. -/
theorem finishEvent_touches (hn : b.journal.notice = false) (hquiet : ∀ k, ctxQuiet b k)
    (hone : oneRequest b i .fresh ⟨tag, .write a m d⟩) (hstages : stagesNothing cfg b)
    (htouch : Touches cfg b i (lineOf a) m c) (hlast : b.epochs.counter ≠ lastEpoch) :
    ∃ y z x, Served b y ∧ Touched cfg i c (lineOf a) m d tag y z ∧ Served (evalPause cfg z) x ∧ Grown x (finishEvent cfg b) := by
  obtain ⟨y, x, hy, hring, hx, hgrown⟩ := finishEvent_handlesOne (cfg := cfg)
    (f := fun y => evalPause cfg (touched cfg i c (lineOf a) m d y)) hquiet (hone.notDue (.inl rfl)) hone.fresh
    fun y hy hring => by
      have htouch' := htouch.served hy (hring hstages)
      have hone' := hone.served hy
      have hspec : Touched cfg i c (lineOf a) m d tag y (touched cfg i c (lineOf a) m d y) :=
        touched_spec htouch'.state hone'.2.1
      have hidle := hspec.idle hone'
      have hready := hspec.ready htouch'.ready
      have heq := firstTouch_taken (cfg := cfg) (line := lineOf a) (fun _ => by rw [hy.epochs]; exact hlast) htouch'.ready htouch'.state hone'.2.1
        (noStall_of_idle hidle)
      have hquiet' := hspec.quiet fun k => hy.ctxQuiet (hquiet k)
      have hnotice : (touched cfg i c (lineOf a) m d y).journal.notice = false := by
        obtain ⟨q, e, hframe⟩ := hspec.frame
        rw [hframe]
        exact hy.notice.trans hn
      refine ⟨(htouch'.handles hone'.2.1).trans heq, ?_⟩
      generalize touched cfg i c (lineOf a) m d y = z at *
      have hpaused := fun k => evalPause_quiet (cfg := cfg) hready (noStall_of_idle hidle) (hquiet' k)
      obtain ⟨q, hq, _⟩ := evalPause_frame (cfg := cfg) hready (noStall_of_idle hidle)
      refine ⟨hpaused, ?_⟩
      rw [hq]
      exact ⟨notDue_of_idle hidle, noFresh_of_idle hidle, hnotice⟩
  exact ⟨y, _, x, hy, touched_spec (htouch.served hy (hring hstages)).state (hone.served hy).2.1, hx, hgrown⟩

/-- A WRITE accepted as a first touch is answered, its context is OPEN and its line CAPTURING. -/
theorem finishEvent_accepts (hn : b.journal.notice = false) (hquiet : ∀ k, ctxQuiet b k)
    (hone : oneRequest b i .fresh ⟨tag, .write a m d⟩) (hstages : stagesNothing cfg b)
    (htouch : Touches cfg b i (lineOf a) m c) (hlast : b.epochs.counter ≠ lastEpoch) (ht : t.blocks = finishEvent cfg b) :
    idleStream (t.blocks.stream i) = true ∧ (t.blocks.stream i).sent = (b.stream i).sent ++ [.ack tag .okay]
      ∧ (t.blocks.ctx c).state = .opened
      ∧ ∃ e, t.blocks.entryOf (lineOf a) = some e ∧ e.ctx = c ∧ e.state = .capturing ∧ e.stream = i := by
  obtain ⟨y, z, x, hy, hz, hx, hgrown⟩ := finishEvent_touches hn hquiet hone hstages htouch hlast
  have hidle := hz.idle (hone.served hy)
  have htouch' : Touches cfg b i (lineOf a) m c := htouch
  have hready : z.journal.state = .ready := hz.ready (hy.state.trans htouch.ready)
  obtain ⟨q, hq, _⟩ := evalPause_frame (cfg := cfg) hready (noStall_of_idle hidle)
  have hstream : t.blocks.stream i = writeAccepted tag (b.stream i) := by
    rw [ht, hgrown.stream, hx.stream, hq]
    exact hz.stream.trans (by rw [hy.stream])
  have hctx : t.blocks.ctx c = touchCtx cfg c y := by
    rw [ht, hgrown.ctx, hx.ctx, hq]
    exact hz.ctx
  have htrack : t.blocks.track = y.track ++ [touchEntry i c (lineOf a) y] := by
    rw [ht, hgrown.grants.track, hx.track, hq]
    obtain ⟨r, e, hframe⟩ := hz.frame
    rw [hframe]
  rw [hstream, hctx]
  refine ⟨rfl, rfl, rfl, touchEntry i c (lineOf a) y, ?_, rfl, rfl, rfl⟩
  have huntracked : y.track.find? (fun e => e.line = lineOf a) = none := by
    rw [hy.track]
    exact htouch.untracked
  rw [Blocks.entryOf, htrack, List.find?_append, huntracked]
  simp [touchEntry]

end Sys2Proof.Rounds


/-! SUPPORT. An anchor update that ends (R77 to R81). -/

namespace Sys2Proof.Rounds

open Sys2Proof.Machine Sys2Proof.Safety Sys2Proof.Laws Sys2Proof.Arrivals Sys2Proof.Expiries

variable {cfg : Image} {b x y : Blocks} {s t : State} {i : StreamId} {c k : CtxId} {id : OpId} {o : Outstanding}
  {copy : AnchorCopy} {gen : Count32} {head : RingPtr} {now : Nat}

/-! ## The ends -/

/-- The blocks when an update has persisted, before anything is evaluated (R79). -/
def anchorMoved (copy : AnchorCopy) (gen : Count32) (head : RingPtr) (b : Blocks) : Blocks :=
  b.modJournal fun j => { j with anchored := head, anchor := afterWritten j.anchor copy gen }

/-- The blocks when an update has failed for the first time, before anything is evaluated (R79). -/
def anchorSuspect (copy : AnchorCopy) (b : Blocks) : Blocks :=
  b.modJournal fun j => { j with anchor := afterFirstFailure j.anchor copy }

theorem update_persists (hs : b.journal.state = .ready) : anchorEnd cfg (.update copy gen head) .persisted b =
    anchorCheck cfg (spaceRisen cfg (anchorMoved copy gen head b)) := by
  unfold anchorEnd
  dsimp only
  unfold updateEnd
  rw [if_neg (not_not.2 (show (anchorIdle b).journal.state = .ready from hs))]
  dsimp only
  unfold anchorPersisted
  cases copy <;> rfl

theorem update_fails {st : DownStatus} (hs : b.journal.state = .ready) (hf : b.journal.anchor.failures = 0) :
    anchorEnd cfg (.update copy gen head) (.failed st) b = anchorCheck cfg (anchorSuspect copy b) := by
  unfold anchorEnd
  dsimp only
  unfold updateEnd
  rw [if_neg (not_not.2 (show (anchorIdle b).journal.state = .ready from hs))]
  dsimp only
  unfold anchorFailed
  rw [if_pos (show (anchorIdle b).journal.anchor.failures = 0 from hf)]
  cases copy <;> rfl

theorem afterWritten_spec (x : AnchorState) (copy : AnchorCopy) (gen : Count32) :
    genOf (afterWritten x copy gen) copy = gen ∧ suspectOf (afterWritten x copy gen) copy = false
      ∧ (afterWritten x copy gen).failures = 0 ∧ genOf (afterWritten x copy gen) copy.other = genOf x copy.other := by
  cases copy with
  | a => exact ⟨rfl, rfl, rfl, rfl⟩
  | b => exact ⟨rfl, rfl, rfl, rfl⟩

theorem afterFirstFailure_spec (x : AnchorState) (copy : AnchorCopy) :
    suspectOf (afterFirstFailure x copy) copy = true ∧ (afterFirstFailure x copy).failures = 1 := by
  cases copy with
  | a => exact ⟨rfl, rfl⟩
  | b => exact ⟨rfl, rfl⟩

/-- Anchor states that differ at most in whether a write is in flight. -/
theorem sameAnchor {x y : AnchorState} (h : { x with busy := false } = { y with busy := false }) :
    (∀ copy, genOf x copy = genOf y copy) ∧ (∀ copy, suspectOf x copy = suspectOf y copy) ∧ x.failures = y.failures := by
  simp only [AnchorState.mk.injEq] at h
  obtain ⟨hA, hB, hsA, hsB, hf, _⟩ := h
  refine ⟨fun copy => ?_, fun copy => ?_, hf⟩
  · cases copy with
    | a => exact hA
    | b => exact hB
  · cases copy with
    | a => exact hsA
    | b => exact hsB

/-! ## The event of an update that persists -/

/-- What an update that persists leaves, whatever is classified again. -/
theorem update_keeps (hn : b.journal.notice = false)
    (ht : t.blocks = finishEvent cfg (anchorCheck cfg (spaceRisen cfg (anchorMoved copy gen head b)))) :
    t.blocks.journal.anchored = head ∧ genOf t.blocks.journal.anchor copy = gen
      ∧ suspectOf t.blocks.journal.anchor copy = false ∧ t.blocks.journal.anchor.failures = 0
      ∧ genOf t.blocks.journal.anchor copy.other = genOf b.journal.anchor copy.other := by
  have hkept : kept (anchorCheck cfg (spaceRisen cfg (anchorMoved copy gen head b))) = kept (anchorMoved copy gen head b) := by
    unfold spaceRisen
    rw [kept_anchorCheck, kept_evalPause, kept_wakeCapture]
  have hjournal : keptJournal (anchorCheck cfg (spaceRisen cfg (anchorMoved copy gen head b))).journal =
      keptJournal (anchorMoved copy gen head b).journal := congrArg (fun x => x.2.2) hkept
  have hnotice : (anchorCheck cfg (spaceRisen cfg (anchorMoved copy gen head b))).journal.notice = false :=
    (congrArg Prod.fst hjournal).trans hn
  obtain ⟨_, hfinish, _⟩ := finishEvent_kept cfg hnotice
  rw [← ht] at hfinish
  have hleft := hfinish.trans hjournal
  simp only [keptJournal, Prod.mk.injEq] at hleft
  obtain ⟨_, hanchored, hanchor⟩ := hleft
  obtain ⟨hgens, hsuspects, hfailures⟩ := sameAnchor hanchor
  obtain ⟨hgen, hsuspect, hnone, hother⟩ := afterWritten_spec b.journal.anchor copy gen
  exact ⟨hanchored, (hgens copy).trans hgen, (hsuspects copy).trans hsuspect, hfailures.trans hnone, (hgens _).trans hother⟩

/-- With no request stalled, the pause flag and the anchor condition are evaluated, and the buffer is served. -/
theorem update_evaluates (hs : b.journal.state = .ready) (hn : b.journal.notice = false) (hst : still cfg b = true)
    (hf : noFresh b = true) (hstall : noStall b = true)
    (ht : t.blocks = finishEvent cfg (anchorCheck cfg (spaceRisen cfg (anchorMoved copy gen head b)))) :
    let j := { b.journal with anchored := head, anchor := afterWritten b.journal.anchor copy gen }
    t.blocks.journal.pause = pauseNow cfg j ∧ t.blocks.events = pauseRaises cfg j b.events
      ∧ updateEvaluated cfg { j with pause := pauseNow cfg j } b.epochs.counter t := by
  intro j
  have hmoved : anchorCheck cfg (spaceRisen cfg (anchorMoved copy gen head b)) =
      anchorCheck cfg (pauseSet cfg (anchorMoved copy gen head b)) := by
    have hnone : noStall (anchorMoved copy gen head b) = true := hstall
    unfold spaceRisen
    rw [wakeCapture, wake_noStall hnone]
    exact anchorCheck_evalPause hs hnone
  have hstands := (stands_modJournal (b := b) (f := fun j => { j with
    anchored := head, anchor := afterWritten j.anchor copy gen }) rfl rfl rfl rfl rfl le_rfl).trans
      (anchorCheck_pauseSet_stands cfg (anchorMoved copy gen head b))
  obtain ⟨_, _, _, hdue⟩ := (still_iff cfg b).1 hst
  obtain ⟨m, hm, _⟩ := anchorCheck_frame cfg (pauseSet cfg (anchorMoved copy gen head b))
  have hquiet (k : CtxId) := hstands.ctxQuiet ((held_of_still hst).context k)
  obtain ⟨x, hx, hgrown⟩ := finishEvent_served (cfg := cfg) (b := anchorCheck cfg (pauseSet cfg (anchorMoved copy gen head b)))
    hquiet (by rw [hm]; exact hdue) (by rw [hm]; exact hf) (by rw [hm]; exact hn)
  rw [hmoved] at ht
  rw [← ht] at hgrown
  refine ⟨?_, ?_, updateEvaluated_of (b := pauseSet cfg (anchorMoved copy gen head b)) hs hn hx hgrown⟩
  · rw [hgrown.grants.journal, hx.pause, hm]
    rfl
  · rw [hgrown.grants.events, hx.events, hm]
    rfl

theorem wakeCapture_frame (b : Blocks) : ∃ r, wakeCapture b = { b with req := r } := wake_frame _ b

/-- A WRITE in a capture stall is accepted when the space has risen (R81). -/
theorem update_accepts {tag : Tag} {a : Addr} {m : ByteMask} {d : LineData} (hs : b.journal.state = .ready)
    (hn : b.journal.notice = false) (hst : still cfg b = true) (hone : oneRequest b i (.stalled .capture) ⟨tag, .write a m d⟩)
    (hpause : pauseNow cfg { b.journal with anchored := head, anchor := afterWritten b.journal.anchor copy gen } = false)
    (htouch : Touches cfg ((anchorMoved copy gen head b).modJournal fun j => { j with pause := false }) i (lineOf a) m c)
    (hlast : b.epochs.counter ≠ lastEpoch)
    (ht : t.blocks = finishEvent cfg (anchorCheck cfg (spaceRisen cfg (anchorMoved copy gen head b)))) :
    idleStream (t.blocks.stream i) = true ∧ (t.blocks.stream i).sent = (b.stream i).sent ++ [.ack tag .okay]
      ∧ ∃ e, t.blocks.entryOf (lineOf a) = some e ∧ e.ctx = c ∧ e.state = .capturing ∧ e.stream = i := by
  have hone' : oneRequest (wakeCapture (anchorMoved copy gen head b)) i .fresh ⟨tag, .write a m d⟩ :=
    oneRequest.wake (b := anchorMoved copy gen head b) hone rfl
  have hwakes : ((wakeCapture (anchorMoved copy gen head b)).stream i) = { b.stream i with phase := .fresh } :=
    wake_wakes (b := anchorMoved copy gen head b) hone.1 rfl
  have hnone : noStall (wakeCapture (anchorMoved copy gen head b)) = true := (noStall_iff _).2 fun k cause => by
    by_cases hk : k = i
    · rw [hk, hone'.1]
      exact Phase.noConfusion
    · rw [phase_of_idleStream (hone'.2.2 k hk)]
      exact Phase.noConfusion
  have hevaluated := anchorCheck_evalPause (cfg := cfg) (b := wakeCapture (anchorMoved copy gen head b)) hs hnone
  obtain ⟨r, hr⟩ := wakeCapture_frame (anchorMoved copy gen head b)
  rw [spaceRisen, hevaluated] at ht
  rw [hr] at hone' hwakes ht
  have hstands := (stands_modJournal (b := b) (f := fun j => { j with
    anchored := head, anchor := afterWritten j.anchor copy gen }) rfl rfl rfl rfl rfl le_rfl).trans
      (anchorCheck_pauseSet_stands cfg (anchorMoved copy gen head b))
  obtain ⟨q, hq, hslots, _⟩ := anchorCheck_frame cfg (pauseSet cfg { anchorMoved copy gen head b with req := r })
  have hquiet (k : CtxId) : ctxQuiet (anchorCheck cfg (pauseSet cfg { anchorMoved copy gen head b with req := r })) k := by
    rw [hq]
    exact ctxQuiet_same ((held_of_still hst).context k) rfl rfl rfl (restoreOutstanding_congr hslots k) rfl
  have hserve : serveOne cfg (anchorCheck cfg (pauseSet cfg { anchorMoved copy gen head b with req := r })) = none := by
    have hnot := serveOne_none_iff.1 (held_of_still hst).buffer
    rw [serveOne_none_iff, hq]
    exact hnot
  have htouch' : Touches cfg (anchorCheck cfg (pauseSet cfg { anchorMoved copy gen head b with req := r })) i (lineOf a) m c := by
    rw [hq]
    exact { htouch with
      pause := hpause
      outstanding := by
        have h := congrArg StreamRec.outstanding hwakes
        exact h ▸ htouch.outstanding }
  obtain ⟨hidle, hsent, _, hentry⟩ := finishEvent_accepts (by rw [hq]; exact hn) hquiet (by rw [hq]; exact hone') (.inr hserve)
    htouch' (by rw [hq]; exact hlast) ht
  refine ⟨hidle, hsent.trans ?_, hentry⟩
  rw [hq]
  have hrecord : r.streams[i] = { b.stream i with phase := .fresh } := hwakes
  have hkept : (r.streams[i]).sent = (b.stream i).sent := by rw [hrecord]
  exact congrArg (· ++ [Response.ack tag .okay]) hkept

/-! ## The event of a first failure -/

/-- After a first failure the copy is suspect, and the anchor condition is evaluated (R79). -/
theorem failure_evaluates (hs : b.journal.state = .ready) (hn : b.journal.notice = false) (hst : still cfg b = true)
    (hf : noFresh b = true) (ht : t.blocks = finishEvent cfg (anchorCheck cfg (anchorSuspect copy b))) :
    (t.blocks.journal.state = .ready ∧ t.blocks.journal.anchored = b.journal.anchored
      ∧ t.blocks.journal.anchor.failures = 1 ∧ suspectOf t.blocks.journal.anchor copy = true)
    ∧ updateEvaluated cfg { b.journal with anchor := afterFirstFailure b.journal.anchor copy } b.epochs.counter t := by
  obtain ⟨_, _, _, hdue⟩ := (still_iff cfg b).1 hst
  obtain ⟨m, hm, hslots, _⟩ := anchorCheck_frame cfg (anchorSuspect copy b)
  have hquiet (k : CtxId) : ctxQuiet (anchorCheck cfg (anchorSuspect copy b)) k := by
    rw [hm]
    exact ctxQuiet_same ((held_of_still hst).context k) rfl rfl rfl (restoreOutstanding_congr hslots k) rfl
  obtain ⟨x, hx, hgrown⟩ := finishEvent_served (cfg := cfg) (b := anchorCheck cfg (anchorSuspect copy b))
    hquiet (by rw [hm]; exact hdue) (by rw [hm]; exact hf) (by rw [hm]; exact hn)
  rw [← ht] at hgrown
  refine ⟨?_, updateEvaluated_of (b := anchorSuspect copy b) hs hn hx hgrown⟩
  obtain ⟨hsuspect, hfailures⟩ := afterFirstFailure_spec b.journal.anchor copy
  rw [hgrown.grants.journal, hx.state, hx.anchored, hx.anchor, hm]
  refine ⟨hs, rfl, hfailures, ?_⟩
  cases copy with
  | a => exact hsuspect
  | b => exact hsuspect

/-- Settles O53. -/
theorem anchorUpdateMovesTheAnchoredHead : Obligations.AnchorUpdateMovesTheAnchoredHead := by
  intro copy gen head id o s hrest hs hm hop how
  obtain ⟨l, bytes, hop⟩ := hop
  obtain ⟨hup, hn, _, hf, _⟩ := (atRest_iff s).1 hrest
  have hends {cmd : Instr} {e : OpEnd} {now : Nat} (h : EndsAs s id o cmd e now) : ∃ t, exec cmd s = .next t ∧ t.mgmt = s.mgmt
      ∧ t.blocks = finishEvent s.mgmt.active (anchorEnd s.mgmt.active (.update copy gen head) e
        (freeSlot id.slot { s.blocks with clock := now })) := by
    unfold EndsAs handBack at h
    rw [how] at h
    dsimp only at h
    generalize finishEvent s.mgmt.active (anchorEnd s.mgmt.active (.update copy gen head) e
      (freeSlot id.slot { s.blocks with clock := now })) = x at h ⊢
    exact ⟨_, h, rfl, rfl⟩
  have hstill (now : Nat) : still s.mgmt.active (freeSlot id.slot { s.blocks with clock := now }) = true :=
    still_freed hrest hm (by simp [how, Owner.restoreOf]) now
  have hpersisted := completion_ends hup hm (cmd := .anchorWriteDone id .persisted) rfl
  have herror := completion_ends hup hm (cmd := .anchorWriteDone id .error) rfl
  have htimeout := timeout_ends hup hm
  rw [show endOf o.op .persisted = .persisted by rw [hop]; rfl] at hpersisted
  rw [show endOf o.op .error = .failed .error by rw [hop]; rfl] at herror
  obtain ⟨t, hexec, hmgmt, ht⟩ := hends hpersisted
  rw [update_persists (b := freeSlot id.slot { s.blocks with clock := s.blocks.clock }) hs] at ht
  refine ⟨⟨t, hexec, hmgmt, update_keeps (b := freeSlot id.slot { s.blocks with clock := s.blocks.clock }) hn ht⟩, fun hfailures => ?_, ⟨fun hcalm => ?_, ?_⟩, fun hfailures cmd hcmd => ?_⟩
  · obtain ⟨t', hexec', hmgmt', ht'⟩ := hends herror
    rw [update_fails (b := freeSlot id.slot { s.blocks with clock := s.blocks.clock }) hs hfailures] at ht'
    exact ⟨t', hexec', hmgmt', (failure_evaluates (b := freeSlot id.slot { s.blocks with clock := s.blocks.clock }) hs hn (hstill _) hf ht').1⟩
  · obtain ⟨_, hstall⟩ := (calm_iff s).1 hcalm
    exact ⟨t, hexec, update_evaluates (b := freeSlot id.slot { s.blocks with clock := s.blocks.clock }) hs hn (hstill _) hf hstall ht⟩
  · intro i tag a m d c hstalled hreach hentry hquota hpause hspace hfull hlast
    obtain ⟨hmask, hwindow, hbind, _, hstate, hcount⟩ := hreach
    obtain ⟨hidle, hsent, hleft⟩ := update_accepts (b := freeSlot id.slot { s.blocks with clock := s.blocks.clock })
      hs hn (hstill _) hstalled hpause ⟨hmask, hwindow, hbind, hs, hstate, hcount, hentry, hquota, rfl, hspace, hfull⟩ hlast ht
    exact ⟨t, hexec, ⟨hidle, hsent⟩, hleft⟩
  · have hcmd' : ∃ st now, EndsAs s id o cmd (.failed st) now := by
      simp only [List.mem_cons, List.not_mem_nil, or_false] at hcmd
      rcases hcmd with rfl | rfl
      · exact ⟨_, _, herror⟩
      · exact ⟨_, _, htimeout⟩
    obtain ⟨st, now, hfails⟩ := hcmd'
    obtain ⟨t', hexec', _, ht'⟩ := hends hfails
    rw [update_fails (b := freeSlot id.slot { s.blocks with clock := now }) hs hfailures] at ht'
    exact ⟨t', hexec', (failure_evaluates (b := freeSlot id.slot { s.blocks with clock := now }) hs hn (hstill _) hf ht').2⟩

end Sys2Proof.Rounds


/-! SUPPORT. The event of a WRITE that arrives and is a first touch (R13, R45, R66, R70). -/

namespace Sys2Proof.Rounds

open Sys2Proof.Machine Sys2Proof.Safety Sys2Proof.Laws Sys2Proof.Arrivals Sys2Proof.Expiries

variable {cfg : Image} {b b' w x y z : Blocks} {s t : State} {i : StreamId} {c k : CtxId} {line : Addr} {m : ByteMask}
  {d : LineData} {tag : Tag} {a : Addr} {e : Epoch}

/-! ## Grants that are no releases -/

/-- No release waits at the port. -/
def noReleaseWaits (b : Blocks) : Prop := ∀ r ∈ b.mem.waiting, ∀ l, r.owner ≠ .release l

theorem noReleaseWaits_handOver {op : MemOp} {cls : MemClass} {o : Owner} (h : noReleaseWaits b) (ho : ∀ l, o ≠ .release l) :
    noReleaseWaits (handOver op cls o b) := by
  unfold handOver
  split
  · exact h
  · intro r hr
    rcases List.mem_append.1 hr with hr | hr
    · exact h r hr
    · rw [List.mem_singleton.1 hr]
      exact ho

theorem noReleaseWaits_anchorCheck (h : noReleaseWaits b) : noReleaseWaits (anchorCheck cfg b) := by
  unfold anchorCheck
  split
  · exact noReleaseWaits_handOver (b := b.modJournal fun j => { j with anchor := { j.anchor with busy := true } }) h
      fun _ => Owner.noConfusion
  · exact h

theorem noReleaseWaits_evalPause (hs : b.journal.state = .ready) (hstall : noStall b = true) (h : noReleaseWaits b) :
    noReleaseWaits (evalPause cfg b) := by
  rw [evalPause_eq hs hstall]
  split
  · exact noReleaseWaits_anchorCheck (b := pauseSet cfg b) h
  · exact h

theorem heldAtGrant_other {h : HeldQueue} {r : MemRequest} (hr : ∀ l, r.owner ≠ .release l) : heldAtGrant h r = h := by
  unfold heldAtGrant
  split
  · rename_i l hl
    exact absurd hl (hr l)
  · rfl

/-- Grants that are no releases issue no held entry. -/
theorem arbitrate_held (cfg : Image) (n : Nat) {b : Blocks} (h : noReleaseWaits b) : (arbitrate cfg n b).held = b.held := by
  induction n generalizing b with
  | zero => rfl
  | succ n ih =>
    unfold arbitrate
    split
    · rename_i b' hb'
      obtain ⟨_, r, slot, f, hpick, _, rfl⟩ := grantOne_spec hb'
      obtain ⟨before, behind, hwaits, _⟩ := Arbiter.eligibleIn_split (Arbiter.pick_spec hpick).2
      have hmem : r ∈ b.mem.waiting := by
        rw [hwaits]
        exact List.mem_append_right _ List.mem_cons_self
      rw [ih fun x hx => h x (List.mem_of_mem_erase hx)]
      exact heldAtGrant_other (h r hmem)
    · rfl

/-! ## The event -/

/-- The event of a request of an idle stream that is handled at once, and after which the buffer is served. -/
theorem arrival_serves (hs : atRest s = true) (hi : idleStream (s.blocks.stream i) = true) (q : Request)
    (hw : handleCurrent s.mgmt.active i (current i q s.blocks) = w) (hquiet : ∀ k, ctxQuiet w k) (hdue : notDue w)
    (hf : noFresh w = true) (hn : w.journal.notice = false) : s.event (arrive i q) = after s
      (arbitrate s.mgmt.active 32 (requestReleases (serveBuffer s.mgmt.active Config.stagingCapacity w))) := by
  obtain ⟨hup, hlive, hst, hfr, _⟩ := (atRest_iff s).1 hs
  obtain ⟨hq, _⟩ := (idleStream_iff _).1 hi
  have hcurrent : progress s.mgmt.active (current i q s.blocks) = current i q s.blocks :=
    progress_still (still_modStream hst i _ (Laws.notDue_of_phase (by simp) (by simp)))
  have hone (k : StreamId) : ((current i q s.blocks).stream k).phase = .fresh ↔ k = i := by
    rw [current, Blocks.modStream_stream]
    split
    · simp_all
    · rename_i hk
      simp [hk, (noFresh_iff _).1 hfr k]
  have hprogress := progress_quiet (cfg := s.mgmt.active) hquiet hdue
  have hserved := (serveBuffer_served s.mgmt.active Config.stagingCapacity w).trans
    (requestReleases_served (serveBuffer s.mgmt.active Config.stagingCapacity w))
  have hfresh : noFresh (requestReleases (serveBuffer s.mgmt.active Config.stagingCapacity w)) = true :=
    (noFresh_iff _).2 fun k => by
      rw [hserved.stream k]
      exact (noFresh_iff w).1 hf k
  rw [event_up hup, arrive_idle hlive hq]
  exact congrArg (after s) (finishEvent_handles hcurrent hone (by rw [hw]; exact hprogress) hfresh (hserved.notice.trans hn))

/-! ## The capture is asked for -/

/-- From b to b' one more capture waits for the buffer, of which no more is taken. -/
structure CaptureQueued (b b' : Blocks) (id : Nat) : Prop where
  writing : b'.journal.writing = b.journal.writing
  markerQueue : b'.journal.markerQueue = b.journal.markerQueue
  captureQueue : b'.journal.captureQueue = b.journal.captureQueue ++ [id]
  staging : b'.journal.staging = b.journal.staging
  promises : b'.journal.promises = b.journal.promises

/-- The capture at the head of the queue is given two buffer slots (R70). -/
def captureServed (id : Nat) (b : Blocks) : Blocks :=
  handOver (.lineRead (captureLine b id)) .capture (.capture id)
    (b.modJournal fun j => { j with captureQueue := [], promises := j.promises ++ [id] })

theorem serveBuffer_captureQueued {id : Nat} (hw : b.journal.writing = true) (hserve : serveOne cfg b = none)
    (h : CaptureQueued b b' id) : serveBuffer cfg Config.stagingCapacity b' =
      if b.journal.markerQueue = [] ∧ b.journal.captureQueue = [] ∧ 2 ≤ b.journal.freeBuffer then captureServed id b' else b' := by
  have hfree : b'.journal.freeBuffer = b.journal.freeBuffer := by
    simp only [JournalWriter.freeBuffer, h.staging, h.promises]
  have hnone := serveOne_none_iff.1 hserve
  rw [hw] at hnone
  split
  · rename_i hcond
    obtain ⟨hmarker, hcapture, hroom⟩ := hcond
    have hone : serveOne cfg b' = some (captureServed id b') := by
      unfold serveOne
      dsimp only
      rw [if_neg (by simp [h.writing, hw]), h.markerQueue, hmarker, h.captureQueue, hcapture]
      exact if_pos (hfree.symm ▸ hroom)
    have hjournal : (captureServed id b').journal.markerQueue = [] ∧ (captureServed id b').journal.captureQueue = [] := by
      unfold captureServed
      rw [handOver_journal]
      exact ⟨h.markerQueue.trans hmarker, rfl⟩
    have hrest : serveOne cfg (captureServed id b') = none :=
      serveOne_none_iff.2 (.inr (.inr ⟨hjournal.1, .inl hjournal.2⟩))
    show serveBuffer cfg (15 + 1) b' = _
    rw [serveBuffer, hone]
    exact serveBuffer_none hrest 15
  · rename_i hcond
    refine serveBuffer_none (serveOne_none_iff.2 (.inr ?_)) _
    rw [h.markerQueue, hfree]
    rcases hnone with hnot | ⟨hmarker, hfull⟩ | ⟨hmarker, hcapture⟩
    · cases hnot
    · exact .inl ⟨hmarker, hfull⟩
    · refine .inr ⟨hmarker, .inr ?_⟩
      by_contra hroom
      rcases hcapture with hcapture | hfull
      · exact hcond ⟨hmarker, hcapture, Nat.not_lt.1 hroom⟩
      · exact hroom hfull

/-- Whether the capture is given its buffer slots or waits, the rest of the part is the same. -/
theorem serveBuffer_captureQueued_frame {id : Nat} (hw : b.journal.writing = true) (hserve : serveOne cfg b = none)
    (h : CaptureQueued b b' id) : ∃ q p mem, serveBuffer cfg Config.stagingCapacity b' =
      { b' with journal := { b'.journal with captureQueue := q, promises := p }, mem := mem } := by
  rw [serveBuffer_captureQueued hw hserve h]
  split
  · unfold captureServed
    obtain ⟨mem, hmem, _⟩ := handOver_frame (.lineRead (captureLine b' id)) .capture (.capture id)
      (b'.modJournal fun j => { j with captureQueue := [], promises := j.promises ++ [id] })
    exact ⟨_, _, mem, hmem⟩
  · exact ⟨_, _, _, rfl⟩

theorem noReleaseWaits_captureQueued {id : Nat} (hw : b.journal.writing = true) (hserve : serveOne cfg b = none)
    (h : CaptureQueued b b' id) (hb : noReleaseWaits b') : noReleaseWaits (serveBuffer cfg Config.stagingCapacity b') := by
  rw [serveBuffer_captureQueued hw hserve h]
  split
  · exact noReleaseWaits_handOver
      (b := b'.modJournal fun j => { j with captureQueue := [], promises := j.promises ++ [id] }) hb fun _ => Owner.noConfusion
  · exact hb

/-- The entry of a capture whose number no other has. -/
theorem captureLine_touched {b : Blocks} (hlaw : captureLaw s.blocks = true)
    (htrack : b.track = s.blocks.track ++ [⟨line, c, e, .capturing, none, s.blocks.nextCapture, i⟩]) :
    captureLine b s.blocks.nextCapture = line := by
  have hnone : s.blocks.track.find? (fun e => e.capture = s.blocks.nextCapture) = none := by
    rw [List.find?_eq_none]
    intro e he
    unfold captureLaw at hlaw
    simp only [Bool.and_eq_true, List.all_eq_true, decide_eq_true_eq] at hlaw
    obtain ⟨⟨_, hbelow⟩, _⟩ := hlaw
    have hlt := hbelow e he
    simp only [decide_eq_true_eq]
    omega
  rw [captureLine, htrack, List.find?_append, hnone]
  simp

end Sys2Proof.Rounds


/-! SUPPORT. A first touch in a part with no other request (R13, R25, R27, R66, R80). -/

namespace Sys2Proof.Rounds

open Sys2Proof.Machine Sys2Proof.Safety Sys2Proof.Laws Sys2Proof.Arrivals Sys2Proof.Expiries

variable {cfg : Image} {b w x y z : Blocks} {s t : State} {i : StreamId} {c k : CtxId} {line : Addr} {m : ByteMask}
  {d : LineData} {tag : Tag} {a : Addr} {e : Epoch}

/-! ## The arrival -/

theorem touches_of_reaches (hreach : reachesContext s i a m c) (hentry : s.blocks.entryOf (lineOf a) = none)
    (hquota : s.blocks.trackedCount c < s.mgmt.active.ctxs[c].quota.toNat) (hpause : s.blocks.journal.pause = false)
    (hspace : slotsNeeded (s.blocks.ctx c).state ≤ s.blocks.journal.unreserved s.mgmt.active.ringN)
    (hroom : s.blocks.held.full = false) : Touches s.mgmt.active s.blocks i (lineOf a) m c := by
  obtain ⟨hmask, hwindow, hbind, hready, hstate, hcount⟩ := hreach
  exact ⟨hmask, hwindow, hbind, hready, hstate, hcount, hentry, hquota, hpause, hspace, hroom⟩

theorem Touches.current (h : Touches cfg b i line m c) (q : Request) : Touches cfg (current i q b) i line m c :=
  { h with outstanding := (by rw [current_stream]; exact h.outstanding) }

/-- The streams of a part with no request but the one that has arrived. -/
theorem oneRequest_current (hidle : ∀ k, idleStream (b.stream k) = true) (q : Request) :
    oneRequest (current i q b) i .fresh q := by
  refine ⟨by rw [current_stream], by rw [current_stream], fun k hk => ?_⟩
  rw [Laws.current, Blocks.modStream_stream, if_neg hk]
  exact hidle k

theorem current_quiet (q : Request) (h : ctxQuiet b k) : ctxQuiet (current i q b) k := (stands_modStream i _ b).ctxQuiet h

/-- The blocks in which a first touch has been taken in, and those after its event. -/
structure FirstTouchEvent (s : State) (i : StreamId) (c : CtxId) (a : Addr) (m : ByteMask) (d : LineData) (tag : Tag)
    (z : Blocks) (t : State) : Prop where
  mgmt : t.mgmt = s.mgmt
  taken : Touched s.mgmt.active i c (lineOf a) m d tag (current i ⟨tag, .write a m d⟩ s.blocks) z
  ready : z.journal.state = .ready
  notice : z.journal.notice = false
  stall : noStall z = true
  grown : Grown (serveBuffer s.mgmt.active Config.stagingCapacity (evalPause s.mgmt.active z)) t.blocks
  held : t.blocks.held = z.held

theorem evalPause_captureQueued (hz : Touched cfg i c line m d tag b z) (hready : z.journal.state = .ready)
    (hstall : noStall z = true) : CaptureQueued b (evalPause cfg z) b.nextCapture := by
  obtain ⟨q, hq, _⟩ := evalPause_frame (cfg := cfg) hready hstall
  obtain ⟨r, e, hframe⟩ := hz.frame
  rw [hq, hframe]
  exact ⟨rfl, rfl, rfl, rfl, rfl⟩

/-- No release is due when a first touch has been taken in: its held entry waits for the log. -/
theorem Touched.noRelease (h : Touched cfg i c line m d tag b z) (hb : NoRelease b) : NoRelease z := by
  obtain ⟨r, e, hframe⟩ := h.frame
  rw [hframe]
  intro l x hx hready
  have hx' : (b.held.entries ++ [(⟨i, [(i, 1)], c, line, m, d, .waitLog, false⟩ : HeldEntry)]).find? (fun e => decide (e.line = l)) = some x := hx
  rw [List.find?_append, Option.or_eq_some_iff] at hx'
  rcases hx' with hold | ⟨_, hnew⟩
  · exact hb l x hold hready
  · have hmem := List.mem_of_find?_eq_some hnew
    rw [List.mem_singleton] at hmem
    rw [hmem] at hready
    cases hready

/-- What stands in the blocks in which a first touch has been taken in. -/
structure TakenIn (z : Blocks) : Prop where
  ready : z.journal.state = .ready
  notice : z.journal.notice = false
  idle : ∀ k, idleStream (z.stream k) = true
  quiet : ∀ k, ctxQuiet z k
  release : NoRelease z

theorem firstTouch_takenIn (hn : b.journal.notice = false) (hquiet : ∀ k, ctxQuiet b k) (hrelease : NoRelease b)
    (hone : oneRequest b i .fresh ⟨tag, .write a m d⟩) (htouch : Touches cfg b i (lineOf a) m c) :
    ∃ z, Touched cfg i c (lineOf a) m d tag b z ∧ TakenIn z ∧ z = touched cfg i c (lineOf a) m d b := by
  have hz : Touched cfg i c (lineOf a) m d tag b (touched cfg i c (lineOf a) m d b) := touched_spec htouch.state hone.2.1
  generalize touched cfg i c (lineOf a) m d b = z at hz
  have hnotice : z.journal.notice = false := by
    obtain ⟨r, e, hframe⟩ := hz.frame
    rw [hframe]
    exact hn
  exact ⟨z, hz, ⟨hz.ready htouch.ready, hnotice, hz.idle hone, hz.quiet hquiet, hz.noRelease hrelease⟩, rfl⟩

/-- The rest of the event, when the flag has been evaluated. -/
theorem TakenIn.event (h : TakenIn z) (halone : alone s = true) (q : Request)
    (hhandle : handleCurrent s.mgmt.active i (current i q s.blocks) = evalPause s.mgmt.active z)
    (hserved : x = serveBuffer s.mgmt.active Config.stagingCapacity (evalPause s.mgmt.active z))
    (hheld : x.held = z.held) (hwait : noReleaseWaits x) :
    ∃ t, s.event (arrive i q) = t ∧ t.mgmt = s.mgmt ∧ Grown x t.blocks ∧ t.blocks.held = z.held := by
  obtain ⟨hs, hidles⟩ := (alone_iff s).1 halone
  have hstall := noStall_of_idle h.idle
  obtain ⟨mem, hw, _, hkept⟩ := evalPause_frame (cfg := s.mgmt.active) h.ready hstall
  have hquiet (k : CtxId) := evalPause_quiet (cfg := s.mgmt.active) h.ready hstall (h.quiet k)
  have hfacts : notDue (evalPause s.mgmt.active z) ∧ noFresh (evalPause s.mgmt.active z) = true
      ∧ (evalPause s.mgmt.active z).journal.notice = false
      ∧ ∀ r ∈ z.mem.waiting, r ∈ (evalPause s.mgmt.active z).mem.waiting := by
    rw [hw]
    exact ⟨notDue_of_idle h.idle, noFresh_of_idle h.idle, h.notice, hkept⟩
  generalize evalPause s.mgmt.active z = w at *
  obtain ⟨hdue, hfresh, hlive, hwaits⟩ := hfacts
  have hexec := arrival_serves hs (hidles i) q hhandle hquiet hdue hfresh hlive
  have hsame := serveBuffer_served s.mgmt.active Config.stagingCapacity w
  rw [← hserved] at hexec hsame
  have hnorelease : NoRelease x := h.release.of (fun l e he => ⟨e, by rwa [hheld] at he, fun h => h⟩)
    (fun l h => by rwa [hheld]) (by rw [hsame.notice, hlive, h.notice]) fun r hr => hsame.waits r (hwaits r hr)
  rw [requestReleases_none (noRelease_iff.1 hnorelease)] at hexec
  exact ⟨_, hexec, rfl, grown_arbitrate s.mgmt.active 32 x, (arbitrate_held s.mgmt.active 32 hwait).trans hheld⟩

/-- A WRITE that is handled as a first touch, and the service of the buffer after it. -/
theorem firstTouch_serves (hn : b.journal.notice = false) (hquiet : ∀ k, ctxQuiet b k) (hrelease : NoRelease b)
    (hserve : serveOne cfg b = none) (hwaits : noReleaseWaits b) (hlast : b.epochs.counter ≠ lastEpoch)
    (hone : oneRequest b i .fresh ⟨tag, .write a m d⟩) (htouch : Touches cfg b i (lineOf a) m c) :
    ∃ z, Touched cfg i c (lineOf a) m d tag b z ∧ TakenIn z ∧ handleCurrent cfg i b = evalPause cfg z
      ∧ (serveBuffer cfg Config.stagingCapacity (evalPause cfg z)).held = z.held
      ∧ noReleaseWaits (serveBuffer cfg Config.stagingCapacity (evalPause cfg z)) := by
  obtain ⟨z, hz, hin, heq⟩ := firstTouch_takenIn hn hquiet hrelease hone htouch
  have hstall := noStall_of_idle hin.idle
  have hhandle := (htouch.handles hone.2.1).trans
    (firstTouch_taken (d := d) (fun _ => hlast) htouch.ready htouch.state hone.2.1 (by rw [← heq]; exact hstall))
  rw [← heq] at hhandle
  have hnone : noReleaseWaits z := by
    obtain ⟨r, e, hframe⟩ := hz.frame
    rw [hframe]
    exact hwaits
  have hqueued := evalPause_captureQueued hz hin.ready hstall
  have hwriting : b.journal.writing = true := by simp [JournalWriter.writing, htouch.ready, hn]
  obtain ⟨q, p, mem, hx⟩ := serveBuffer_captureQueued_frame hwriting hserve hqueued
  obtain ⟨mem', hw, _⟩ := evalPause_frame (cfg := cfg) hin.ready hstall
  refine ⟨z, hz, hin, hhandle, ?_,
    noReleaseWaits_captureQueued hwriting hserve hqueued (noReleaseWaits_evalPause hin.ready hstall hnone)⟩
  rw [hx, hw]

/-- The event of a WRITE that is a first touch, while the epochs are not used up. -/
theorem firstTouch_event (halone : alone s = true) (hwaits : s.blocks.mem.waiting = [])
    (htouch : Touches s.mgmt.active s.blocks i (lineOf a) m c) (hlast : s.blocks.epochs.counter ≠ lastEpoch) :
    ∃ z t, exec (.write i tag a m d) s = .next t ∧ FirstTouchEvent s i c a m d tag z t := by
  obtain ⟨hs, hidles⟩ := (alone_iff s).1 halone
  obtain ⟨_, hn, hst, _, _⟩ := (atRest_iff s).1 hs
  have hnone : noReleaseWaits s.blocks := fun r hr => by
    rw [hwaits] at hr
    cases hr
  have hrelease : NoRelease (current i ⟨tag, .write a m d⟩ s.blocks) := (noRelease_of_still hst).of
    (fun _ e he => ⟨e, he, id⟩) (fun _ h => h) rfl fun _ h => h
  have hserve := (stands_modStream i (fun r => { r with queue := [⟨tag, .write a m d⟩], phase := .fresh }) s.blocks).serveOne
    (held_of_still hst).buffer
  have hquiet (k : CtxId) := current_quiet (i := i) (k := k) ⟨tag, .write a m d⟩ ((held_of_still hst).context k)
  have hone := oneRequest_current hidles ⟨tag, .write a m d⟩ (i := i)
  have hnone' : noReleaseWaits (current i ⟨tag, .write a m d⟩ s.blocks) := hnone
  have hn' : (current i ⟨tag, .write a m d⟩ s.blocks).journal.notice = false := hn
  have hlast' : (current i ⟨tag, .write a m d⟩ s.blocks).epochs.counter ≠ lastEpoch := hlast
  obtain ⟨z, hz, hin, hhandle, hheld, hwait⟩ := firstTouch_serves hn' hquiet hrelease hserve hnone' hlast' hone
    (htouch.current ⟨tag, .write a m d⟩)
  obtain ⟨t, hexec, hmgmt, hgrown, hsame⟩ := hin.event halone ⟨tag, .write a m d⟩ hhandle rfl hheld hwait
  have hexec' : exec (.write i tag a m d) s = .next (s.event (arrive i ⟨tag, .write a m d⟩)) := rfl
  rw [hexec] at hexec'
  refine ⟨z, t, hexec', ?_⟩
  exact ⟨hmgmt, hz, hin.ready, hin.notice, noStall_of_idle hin.idle, hgrown, hsame⟩

end Sys2Proof.Rounds


/-! SUPPORT. What a first touch leaves, and one that uses up the epochs (R13, R26, R27, R38). -/

namespace Sys2Proof.Rounds

open Sys2Proof.Machine Sys2Proof.Safety Sys2Proof.Laws Sys2Proof.Arrivals Sys2Proof.Expiries

variable {cfg : Image} {b w x y z : Blocks} {s t : State} {i : StreamId} {c k : CtxId} {line : Addr} {m : ByteMask}
  {d : LineData} {tag : Tag} {a : Addr} {e : Epoch}

/-! ## What the event leaves -/

section Left

variable (h : FirstTouchEvent s i c a m d tag z t)
include h

theorem FirstTouchEvent.parts : t.blocks.track = z.track ∧ t.blocks.epochs = z.epochs ∧ t.blocks.req = z.req
    ∧ t.blocks.events = pauseRaises s.mgmt.active z.journal z.events
    ∧ t.blocks.journal.pause = pauseNow s.mgmt.active z.journal
    ∧ (pauseNow s.mgmt.active z.journal = false → t.blocks.journal.anchor = z.journal.anchor) := by
  obtain ⟨mem, hw, _⟩ := evalPause_frame (cfg := s.mgmt.active) h.ready h.stall
  have hserved := serveBuffer_served s.mgmt.active Config.stagingCapacity (evalPause s.mgmt.active z)
  have hgrants := h.grown.grants
  generalize serveBuffer s.mgmt.active Config.stagingCapacity (evalPause s.mgmt.active z) = x at hserved hgrants
  obtain ⟨j, mem', hx⟩ := hserved.frame
  rw [hgrants.track, hgrants.epochs, hgrants.req, hgrants.events, hgrants.journal, hserved.pause, hserved.anchor, hx, hw]
  refine ⟨rfl, rfl, rfl, rfl, rfl, fun hnow => ?_⟩
  rw [hnow, Bool.false_and, Bool.false_and, Bool.or_false]

/-- The pause flag has been set: the anchor condition has been evaluated with it. -/
theorem FirstTouchEvent.evaluated (hpause : z.journal.pause = false) (hnow : pauseNow s.mgmt.active z.journal = true) :
    updateEvaluated s.mgmt.active { z.journal with pause := true } z.epochs.counter t := by
  have hset : evalPause s.mgmt.active z = anchorCheck s.mgmt.active (pauseSet s.mgmt.active z) := by
    rw [evalPause_eq h.ready h.stall, if_pos ⟨hnow, hpause⟩]
  have hserved := serveBuffer_served s.mgmt.active Config.stagingCapacity (evalPause s.mgmt.active z)
  have hgrown := h.grown
  generalize serveBuffer s.mgmt.active Config.stagingCapacity (evalPause s.mgmt.active z) = x at hserved hgrown
  rw [hset] at hserved
  have heval := updateEvaluated_of (b := pauseSet s.mgmt.active z) h.ready h.notice hserved hgrown
  have hjournal : (pauseSet s.mgmt.active z).journal = { z.journal with pause := true } := by rw [pauseSet, hnow]
  rw [hjournal] at heval
  exact heval

end Left

theorem captureServed_inPort {id : Nat} (hn : w.journal.notice = false) (hl : captureLine w id = line) :
    inPort (captureServed id w).mem (.lineRead line) (.capture id) = true := by
  unfold captureServed
  rw [hl]
  exact handOver_inPort (b := w.modJournal fun j => { j with captureQueue := [], promises := j.promises ++ [id] }) hn _ _ _

/-- The capture of a first touch is given its buffer slots, or waits for them (R70). -/
theorem FirstTouchEvent.capture (h : FirstTouchEvent s i c a m d tag z t) (hs : atRest s = true)
    (hready : s.blocks.journal.state = .ready) : captureAsked s (lineOf a) t
      ∧ t.blocks.journal.reserved = z.journal.reserved := by
  obtain ⟨_, hn, hst, _, _⟩ := (atRest_iff s).1 hs
  have hwriting : (current i ⟨tag, .write a m d⟩ s.blocks).journal.writing = true := by
    simp [JournalWriter.writing, hready, hn]
  have hserve := (stands_modStream i (fun r => { r with queue := [⟨tag, .write a m d⟩], phase := .fresh }) s.blocks).serveOne
    (held_of_still hst).buffer
  have hqueued := evalPause_captureQueued h.taken h.ready h.stall
  have hserved := serveBuffer_captureQueued hwriting hserve hqueued
  obtain ⟨mem, hw, _⟩ := evalPause_frame (cfg := s.mgmt.active) h.ready h.stall
  obtain ⟨r, e, hz⟩ := h.taken.frame
  have hfree (j : JournalWriter) : 2 ≤ j.freeBuffer ↔ bufferHas 2 j := freeBuffer_iff j Nat.two_pos
  have hgrown := h.grown
  rw [hserved] at hgrown
  by_cases hcond : (current i ⟨tag, .write a m d⟩ s.blocks).journal.markerQueue = []
      ∧ (current i ⟨tag, .write a m d⟩ s.blocks).journal.captureQueue = []
      ∧ 2 ≤ (current i ⟨tag, .write a m d⟩ s.blocks).journal.freeBuffer
  · rw [if_pos hcond] at hgrown
    obtain ⟨hmarker, hcapture, hroom⟩ := hcond
    have hlive : (evalPause s.mgmt.active z).journal.notice = false := by
      rw [hw]
      exact h.notice
    have hpromises : (evalPause s.mgmt.active z).journal.promises = s.blocks.journal.promises
        ∧ (evalPause s.mgmt.active z).journal.reserved = z.journal.reserved := by
      rw [hw, hz]
      exact ⟨rfl, rfl⟩
    have htrack : (evalPause s.mgmt.active z).track = s.blocks.track ++ [touchEntry i c (lineOf a)
        (current i ⟨tag, .write a m d⟩ s.blocks)] := by
      rw [hw, hz]
      rfl
    generalize evalPause s.mgmt.active z = w at *
    have hjournal := hgrown.grants.journal
    rw [captureServed, handOver_journal] at hjournal
    rw [captureAsked, hjournal]
    refine ⟨⟨fun _ _ _ hlaw => ⟨hgrown.port _ _ (fun _ => Owner.noConfusion) ?_, ?_, rfl⟩, fun hnot => ?_⟩, hpromises.2⟩
    · exact captureServed_inPort hlive (captureLine_touched hlaw htrack)
    · exact congrArg (· ++ [s.blocks.nextCapture]) hpromises.1
    · rcases hnot with hnot | hnot | hnot
      · exact absurd hmarker hnot
      · exact absurd hcapture hnot
      · exact absurd ((hfree _).1 hroom) hnot
  · rw [if_neg hcond] at hgrown
    rw [captureAsked, hgrown.grants.journal, hw]
    refine ⟨⟨fun hmarker hcapture hroom _ => absurd ⟨hmarker, hcapture, (hfree _).2 hroom⟩ hcond, fun _ => ?_⟩, rfl⟩
    rw [hz]
    rfl

/-! ## The epochs are used up -/

theorem answerWaiters_counter (c : CtxId) (st : UpStatus) (b : Blocks) :
    (answerWaiters c st b).epochs.counter = b.epochs.counter := by
  obtain ⟨q, hq⟩ := answerAll_frame st (b.ctx c).waiters b
  unfold answerWaiters
  rw [hq]
  rfl

theorem breakRollback_counter (c : CtxId) (b : Blocks) : (breakRollback c b).epochs.counter = b.epochs.counter := by
  unfold breakRollback dropRestoring
  dsimp only
  generalize List.filter _ _ = gone
  generalize hy : updateEntries _ _ _ = y
  obtain ⟨q, hq, _⟩ := wakeLines_frame gone y
  rw [hq, ← hy]
  rfl

theorem enterFaulted_counter (cfg : Image) (c : CtxId) (f : FaultRecord) (b : Blocks) :
    (enterFaulted cfg c f b).epochs.counter = b.epochs.counter := by
  unfold enterFaulted
  dsimp only
  rw [wakeContext, (Frames.untouched_wake _ _).epochs, raise, Blocks.modEvents_epochs]
  have hkept : ((answerWaiters c .contextFaulted b).modCtx c fun x =>
      { x with state := .faulted, idleTimer := none, fault := some f }).epochs.counter = b.epochs.counter :=
    answerWaiters_counter c .contextFaulted b
  split
  · rw [breakRollback_counter, hkept]
  · exact hkept

theorem journalFail_counter (cfg : Image) (reason : JournalReason) (st : Option DownStatus) (b : Blocks) :
    (journalFail cfg reason st b).epochs.counter = b.epochs.counter := by
  have hfold (l : List CtxId) (b : Blocks) : (l.foldl (journalFaults cfg st) b).epochs.counter = b.epochs.counter := by
    induction l generalizing b with
    | nil => rfl
    | cons k l ih =>
      rw [List.foldl_cons, ih]
      cases h : liveCtx (b.ctx k) with
      | true => rw [journalFaults_live h, enterFaulted_counter]
      | false => rw [journalFaults_dead h]
  obtain ⟨q, mem, hlost⟩ := logLost_frame reason b
  rw [journalFail_eq, wakeAll, (Frames.untouched_wake _ _).epochs, contextsFailed, raise, Blocks.modEvents_epochs, hfold, hlost]

/-- A first touch that opens an epoch at the last number fails the journal (R27). -/
theorem firstTouch_exhausts (hidle : (b.ctx c).state = .idle) (hlast : b.epochs.counter = lastEpoch)
    (hready : b.journal.state = .ready) (hq : (b.stream i).queue = [⟨tag, .write a m d⟩])
    (hstall : noStall (touched cfg i c line m d b) = true) : firstTouch cfg i c line m d b =
      journalFail cfg .epochExhausted none (evalPause cfg (touched cfg i c line m d b)) := by
  have htaken : evalPause cfg (touched cfg i c line m d b) = reserve cfg (slotsNeeded (b.ctx c).state)
      (acceptJournaled cfg i c (allocHeld i c line m d .waitLog (insertEntry i c line (openFor c b)))) := rfl
  have hnone := evalPause_noStall (cfg := cfg)
    ((touched_spec (cfg := cfg) (line := line) (.inl hidle) hq).ready hready) hstall
  rw [htaken] at hnone ⊢
  unfold firstTouch
  dsimp only
  rw [decide_eq_true hidle, decide_eq_true hlast, Bool.and_self, if_pos rfl, if_pos rfl, if_pos rfl]
  unfold openFor at hnone ⊢
  rw [if_pos hidle] at hnone ⊢
  rw [wakeContext, wake_noStall hnone]

end Sys2Proof.Rounds


/-! SUPPORT. First touches (R13, R27). -/

namespace Sys2Proof.Rounds

open Sys2Proof.Machine Sys2Proof.Safety Sys2Proof.Laws Sys2Proof.Arrivals Sys2Proof.Expiries

variable {cfg : Image} {b v w x y z : Blocks} {s t : State} {i : StreamId} {c k : CtxId} {line : Addr} {m : ByteMask}
  {d : LineData} {tag : Tag} {a : Addr} {e : Epoch} {r : StreamRec}

theorem touchCtx_live (hidle : (b.ctx c).state = .idle) : liveCtx (touchCtx cfg c b) = true := by
  simp [liveCtx, touchCtx, touchEpoch, hidle]

theorem failedCtx_live (st : Option DownStatus) {x : Context} {n : Epoch} (h : liveCtx x = true) (he : x.epoch = some n) :
    (failedCtx st x).state = .faulted ∧ (failedCtx st x).epoch = some n
      ∧ (failedCtx st x).fault = some ⟨.journalFailed, n, none, none, st⟩ := by
  rw [failedCtx, if_pos h]
  refine ⟨rfl, he, ?_⟩
  simp [faultedCtx, journalFault, he]

/-- What the failure of the journal makes of a first touch that has been taken in (R27, R38). -/
structure Exhausted (z v : Blocks) : Prop where
  state : v.journal.state = .failed
  reason : v.journal.reason = some .epochExhausted
  notice : v.journal.notice = false
  counter : v.epochs.counter = z.epochs.counter
  ctx : ∀ k, v.ctx k = failedCtx none (z.ctx k)
  stream : ∀ k, v.stream k = lostShare z k
  track : ∀ e ∈ z.track, e.state = .capturing → e ∈ v.track
  failed : v.events.isPending .journalFailed = true
  raised : ∀ k, liveCtx (z.ctx k) = true → v.events.isPending (.contextFault k) = true

theorem TakenIn.exhausted (h : TakenIn z) :
    Exhausted z (journalFail cfg .epochExhausted none (evalPause cfg z)) := by
  obtain ⟨mem, hw, _⟩ := evalPause_frame (cfg := cfg) h.ready (noStall_of_idle h.idle)
  have hctx := fun k => journalFail_ctx cfg .epochExhausted none (evalPause cfg z) k
  have hcounter := journalFail_counter cfg .epochExhausted none (evalPause cfg z)
  have hstream (k : StreamId) : (journalFail cfg .epochExhausted none (evalPause cfg z)).stream k = lostShare (evalPause cfg z) k := by
    have hidle : idleStream ((evalPause cfg z).stream k) = true := by
      rw [hw]
      exact h.idle k
    obtain ⟨hqueue, hphase, _⟩ := (idleStream_iff _).1 hidle
    exact journalFail_aside cfg _ _ _ (.inr hqueue) fun cause => by simp [hphase]
  obtain ⟨q, e, m, tr, ev, hframe, hcap, _, hfailed, hraised⟩ :=
    journalFail_frame cfg .epochExhausted none (evalPause cfg z)
  have hevents : (journalFail cfg .epochExhausted none (evalPause cfg z)).events = ev := by rw [hframe]
  have htrack : (journalFail cfg .epochExhausted none (evalPause cfg z)).track = tr := by rw [hframe]
  have hjournal : (journalFail cfg .epochExhausted none (evalPause cfg z)).journal.state = .failed
      ∧ (journalFail cfg .epochExhausted none (evalPause cfg z)).journal.reason = some .epochExhausted
      ∧ (journalFail cfg .epochExhausted none (evalPause cfg z)).journal.notice = (evalPause cfg z).journal.notice := by
    rw [hframe]
    exact ⟨rfl, rfl, rfl⟩
  generalize journalFail cfg .epochExhausted none (evalPause cfg z) = v at *
  obtain ⟨hstate, hreason, hnotice⟩ := hjournal
  rw [hw] at hctx hcounter hstream hcap hraised hnotice
  exact ⟨hstate, hreason, hnotice.trans h.notice, hcounter, hctx, hstream, htrack ▸ hcap, hevents ▸ hfailed, hevents ▸ hraised⟩

theorem idleStream_lostShare (h : idleStream (z.stream i) = true) : idleStream (lostShare z i) = true := h

/-- The event of a first touch that uses up the epochs. -/
theorem exhausted_event (halone : alone s = true) (hlaw : ctxsLaw s.blocks = true)
    (htouch : Touches s.mgmt.active s.blocks i (lineOf a) m c) (hidle : (s.blocks.ctx c).state = .idle)
    (hlast : s.blocks.epochs.counter = lastEpoch) : ∃ z v x t, exec (.write i tag a m d) s = .next t ∧ t.mgmt = s.mgmt
      ∧ Touched s.mgmt.active i c (lineOf a) m d tag (current i ⟨tag, .write a m d⟩ s.blocks) z ∧ Exhausted z v
      ∧ Served v x ∧ Grown x t.blocks := by
  obtain ⟨hs, hidles⟩ := (alone_iff s).1 halone
  obtain ⟨_, hn, hst, _, _⟩ := (atRest_iff s).1 hs
  have hn' : (current i ⟨tag, .write a m d⟩ s.blocks).journal.notice = false := hn
  have hlast' : (current i ⟨tag, .write a m d⟩ s.blocks).epochs.counter = lastEpoch := hlast
  have hidle' : ((current i ⟨tag, .write a m d⟩ s.blocks).ctx c).state = .idle := hidle
  have hrelease : NoRelease (current i ⟨tag, .write a m d⟩ s.blocks) := (noRelease_of_still hst).of
    (fun _ e he => ⟨e, he, id⟩) (fun _ h => h) rfl fun _ h => h
  have hquiet (k : CtxId) := current_quiet (i := i) (k := k) ⟨tag, .write a m d⟩ ((held_of_still hst).context k)
  have hone := oneRequest_current hidles ⟨tag, .write a m d⟩ (i := i)
  have htouch' := htouch.current ⟨tag, .write a m d⟩
  obtain ⟨z, hz, hin, heq⟩ := firstTouch_takenIn hn' hquiet hrelease hone htouch'
  have hhandle := (htouch'.handles hone.2.1).trans (firstTouch_exhausts (d := d) hidle' hlast' htouch'.ready hone.2.1
    (by rw [← heq]; exact noStall_of_idle hin.idle))
  rw [← heq] at hhandle
  have hv := hin.exhausted (cfg := s.mgmt.active)
  generalize journalFail s.mgmt.active .epochExhausted none (evalPause s.mgmt.active z) = v at hhandle hv
  have hsettled (k : CtxId) : settledCtx (v.ctx k) := by
    rw [hv.ctx]
    by_cases hk : k = c
    · rw [hk, hz.ctx, failedCtx, if_pos (touchCtx_live hidle')]
      exact .inr rfl
    · rw [hz.others k hk]
      exact failedCtx_settled ((Tracked.ctxsLaw_iff _).1 hlaw k) none
  have hstreams (k : StreamId) : idleStream (v.stream k) = true := by
    rw [hv.stream]
    exact idleStream_lostShare (hin.idle k)
  have hquiet' (k : CtxId) : ctxQuiet v k := by
    rcases hsettled k with h | h
    · exact ctxQuiet_of_state (by simp [h]) (by simp [h])
    · exact ctxQuiet_of_state (by simp [h]) (by simp [h])
  have hexec := arrival_serves hs (hidles i) _ hhandle hquiet' (notDue_of_idle hstreams) (noFresh_of_idle hstreams) hv.notice
  have hserved := (serveBuffer_served s.mgmt.active Config.stagingCapacity v).trans
    (requestReleases_served (serveBuffer s.mgmt.active Config.stagingCapacity v))
  generalize requestReleases (serveBuffer s.mgmt.active Config.stagingCapacity v) = x at hexec hserved
  have hgrown := grown_arbitrate s.mgmt.active 32 x
  generalize arbitrate s.mgmt.active 32 x = u at hexec hgrown
  have hexec' : exec (.write i tag a m d) s = .next (s.event (arrive i ⟨tag, .write a m d⟩)) := rfl
  rw [hexec] at hexec'
  exact ⟨z, v, x, after s u, hexec', rfl, hz, hv, hserved, hgrown⟩

theorem writeAccepted_current (hi : idleStream (b.stream i) = true) (q : Request) :
    writeAccepted tag ((current i q b).stream i) = { b.stream i with
      outstanding := (b.stream i).outstanding + 1, sent := (b.stream i).sent ++ [.ack tag .okay] } := by
  have hrecord (r : StreamRec) (hr : idleStream r = true) : writeAccepted tag { r with queue := [q], phase := .fresh } =
      { r with outstanding := r.outstanding + 1, sent := r.sent ++ [.ack tag .okay] } := by
    obtain ⟨queue, phase, conflict, captureStall, outstanding, loss, sent⟩ := r
    obtain ⟨hqueue, hphase, hconflict, hcapture⟩ := (idleStream_iff _).1 hr
    dsimp only at hqueue hphase hconflict hcapture
    subst hqueue hphase hconflict hcapture
    rfl
  rw [current_stream]
  exact hrecord _ hi

/-- The stream of a first touch whose write is lost at once, with those that wait for the log (R27, R34). -/
theorem lostShare_touched (h : Touched cfg i c line m d tag b z) : lostShare z i =
    { afterDiscard i (b.held.entries.filter fun h => decide (h.state = .waitLog)) (writeAccepted tag (b.stream i)) with
      outstanding := (b.stream i).outstanding
        - ((writesOf i (b.held.entries.filter fun h => decide (h.state = .waitLog))).map (·.2)).sum
      loss := (b.stream i).loss.or (some .contextFaulted) } := by
  obtain ⟨q, e, hframe⟩ := h.frame
  have hshare : shareOf i ((z.held.entries.filter fun h => decide (h.state = .waitLog)).flatMap fun e => e.contributors) =
      writesOf i (b.held.entries.filter fun h => decide (h.state = .waitLog)) ++ [(i, 1)] := by
    rw [hframe]
    simp [shareOf, writesOf, List.filter_append, List.flatMap_append]
  unfold lostShare
  rw [hshare, h.stream]
  unfold afterShare writeAccepted goneOn
  simp only [List.map_append, List.sum_append, List.append_eq_nil_iff]
  simp [afterDiscard, afterLoss]

/-- What a first touch leaves in a part with no other request (R13). -/
theorem FirstTouchEvent.leaves (h : FirstTouchEvent s i c a m d tag z t) (halone : alone s = true)
    (hstate : (s.blocks.ctx c).state = .idle ∨ (s.blocks.ctx c).epoch.isSome) (hlast : s.blocks.epochs.counter ≠ lastEpoch) :
    let opens := decide ((s.blocks.ctx c).state = .idle)
    let epoch := if opens then s.blocks.epochs.counter else (s.blocks.ctx c).epoch.getD 0
    t.blocks.track = s.blocks.track ++ [⟨lineOf a, c, epoch, .capturing, none, s.blocks.nextCapture, i⟩]
    ∧ t.blocks.held.entries = s.blocks.held.entries ++ [⟨i, [(i, 1)], c, lineOf a, m, d, .waitLog, false⟩]
    ∧ t.blocks.epochs.counter = (if opens then s.blocks.epochs.counter + 1 else s.blocks.epochs.counter)
    ∧ t.blocks.ctx c = { s.blocks.ctx c with
        state := .opened
        epoch := some epoch
        undoCount := if opens then 0 else (s.blocks.ctx c).undoCount
        idleTimer := timerAfterAcceptance s c }
    ∧ (∀ k, k ≠ c → t.blocks.ctx k = s.blocks.ctx k)
    ∧ t.blocks.stream i = { s.blocks.stream i with
        outstanding := (s.blocks.stream i).outstanding + 1
        sent := (s.blocks.stream i).sent ++ [.ack tag .okay] }
    ∧ (∀ k, k ≠ i → t.blocks.stream k = s.blocks.stream k) := by
  obtain ⟨_, hidles⟩ := (alone_iff s).1 halone
  obtain ⟨htrack, hepochs, hreq, _⟩ := h.parts
  have hz := h.taken
  have hctx (k : CtxId) : t.blocks.ctx k = z.ctx k := by rw [Blocks.ctx, hepochs]; rfl
  have hstream (k : StreamId) : t.blocks.stream k = z.stream k := by rw [Blocks.stream, hreq]; rfl
  have hepoch : touchEpoch c (current i ⟨tag, .write a m d⟩ s.blocks) =
      some (if decide ((s.blocks.ctx c).state = .idle) then s.blocks.epochs.counter else (s.blocks.ctx c).epoch.getD 0) := by
    unfold touchEpoch
    rw [Blocks.modStream_ctx, Blocks.modStream_epochs]
    by_cases hidle : (s.blocks.ctx c).state = .idle
    · simp [hidle]
    · obtain ⟨n, hn⟩ := Option.isSome_iff_exists.1 (hstate.resolve_left hidle)
      simp [hidle, hn]
  obtain ⟨r, e, hframe⟩ := hz.frame
  intro opens epoch
  refine ⟨?_, ?_, ?_, ?_, fun k hk => ?_, ?_, fun k hk => ?_⟩
  · rw [htrack, hframe]
    unfold touchEntry
    rw [hepoch]
    rfl
  · rw [h.held, hframe]
    rfl
  · rw [hepochs, hz.counter]
    unfold touchCounter
    rw [Blocks.modStream_ctx, Blocks.modStream_epochs]
    simp [opens, hlast]
  · rw [hctx, hz.ctx]
    unfold touchCtx
    rw [hepoch, ← timer_eq]
    simp only [Blocks.modStream_ctx, opens, epoch, decide_eq_true_eq]
    rfl
  · rw [hctx, hz.others k hk, Blocks.modStream_ctx]
  · rw [hstream, hz.stream, writeAccepted_current (hidles i)]
  · rw [hstream, hz.streams k hk, Blocks.modStream_stream, if_neg hk]

/-- Settles O22. -/
theorem firstTouchIsAccepted : Obligations.FirstTouchIsAccepted := by
  refine ⟨fun i tag a m d c s halone hwaits hreach hentry hquota hpause hspace hroom hlast hepoch => ?_,
    fun i tag a m d c s halone hlaw hreach hentry hquota hpause hspace hroom hlast hidle => ?_⟩
  · obtain ⟨hs, hidles⟩ := (alone_iff s).1 halone
    have htouch := touches_of_reaches hreach hentry hquota hpause hspace hroom
    obtain ⟨z, t, hexec, h⟩ := firstTouch_event (d := d) (tag := tag) halone hwaits htouch hlast
    obtain ⟨hasked, hreserved⟩ := h.capture hs htouch.ready
    obtain ⟨_, hepochs, _, hevents, hpauses, hanchor⟩ := h.parts
    obtain ⟨htrack, hheld, hcounter, hctx, hothers, hstream, hstreams⟩ := h.leaves halone hepoch hlast
    have heval := h.evaluated
    obtain ⟨r, e, hframe⟩ := h.taken.frame
    have hjournal : z.journal = touchJournal c (current i ⟨tag, .write a m d⟩ s.blocks) := by rw [hframe]
    have hzevents : z.events = s.blocks.events := by rw [hframe]; rfl
    rw [hjournal, ← hepochs] at heval
    rw [hjournal, hzevents] at hevents
    rw [hjournal] at hreserved hpauses hanchor
    exact ⟨t, hexec, h.mgmt, htrack, hheld, hreserved, hcounter, hctx, hothers, hstream, hstreams, hasked, hpauses, hevents,
      fun hnow => heval hpause hnow, hanchor⟩
  · obtain ⟨_, hidles⟩ := (alone_iff s).1 halone
    have htouch := touches_of_reaches hreach hentry hquota hpause (by rw [hidle]; exact hspace) hroom
    obtain ⟨z, v, x, t, hexec, hmgmt, hz, hv, hserved, hgrown⟩ :=
      exhausted_event (d := d) (tag := tag) halone hlaw htouch hidle hlast
    have hctx (k : CtxId) : t.blocks.ctx k = failedCtx none (z.ctx k) := by rw [hgrown.ctx, hserved.ctx, hv.ctx]
    have hevents : t.blocks.events = v.events := hgrown.grants.events.trans hserved.events
    have htrack : t.blocks.track = v.track := hgrown.grants.track.trans hserved.track
    refine ⟨t, hexec, hmgmt, ?_, ?_, ?_, ?_, fun k n hn hf => ?_, ?_, ?_⟩
    · rw [hgrown.grants.journal, hserved.state, hv.state]
    · rw [hgrown.grants.journal, hserved.reason, hv.reason]
    · rw [hevents]
      exact hv.failed
    · rw [hgrown.grants.epochs, hserved.epochs, hv.counter, hz.counter]
      simp [touchCounter, hlast]
    · have hcases : liveCtx (z.ctx k) = true ∧ (z.ctx k).epoch = some n := by
        by_cases hk : k = c
        · rw [hk, hz.ctx]
          refine ⟨touchCtx_live hidle, ?_⟩
          have hlastEpoch : n = lastEpoch := by
            refine hn.elim (fun hepoch => ?_) fun h => h.2
            rw [hk, (Tracked.ctxLaw_epoch ((Tracked.ctxsLaw_iff _).1 hlaw c)).1 hidle] at hepoch
            cases hepoch
          simp [touchCtx, touchEpoch, hidle, hlast, hlastEpoch]
        · have hepoch := hn.resolve_right fun h => hk h.1
          rw [hz.others k hk]
          exact ⟨liveCtx_of_epoch ((Tracked.ctxsLaw_iff _).1 hlaw k) hepoch hf, hepoch⟩
      obtain ⟨hlive, hepoch⟩ := hcases
      obtain ⟨hfaulted, hkept, hfault⟩ := failedCtx_live none hlive hepoch
      rw [hctx, hevents]
      exact ⟨hfaulted, hkept, hfault, hv.raised k hlive⟩
    · refine ⟨touchEntry i c (lineOf a) (current i ⟨tag, .write a m d⟩ s.blocks), ?_, rfl, rfl, ?_, rfl⟩
      · rw [htrack]
        refine hv.track _ ?_ rfl
        obtain ⟨r, e, hframe⟩ := hz.frame
        rw [hframe]
        exact List.mem_append_right _ (List.mem_singleton.2 rfl)
      · simp [touchEntry, touchEpoch, hidle, hlast]
    · rw [hgrown.stream, hserved.stream, hv.stream, lostShare_touched hz, writeAccepted_current (hidles i), current_stream]
      rfl

end Sys2Proof.Rounds


/-! SUPPORT. A marker that becomes durable (R69, R74, R108, R118). -/

namespace Sys2Proof.Rounds

open Sys2Proof.Machine Sys2Proof.Safety Sys2Proof.Laws Sys2Proof.Arrivals Sys2Proof.Expiries

variable {cfg : Image} {b v w x y z : Blocks} {s t : State} {i : StreamId} {c k : CtxId} {n : Epoch} {r : StreamRec}
  {l : Addr} {slot : StagedSlot} {p : TrackEntry → Bool}

/-! ## Streams when lines are freed (R49, R54) -/

/-- A stream record whose conflict wait has ended. -/
def conflictEnded (r : StreamRec) : StreamRec := { r with phase := .fresh, conflict := none }

/-- A stream record when a line has been freed, but for a READ that is stalled on it (R49). -/
def freedRecord (l : Addr) (r : StreamRec) : StreamRec :=
  match r.conflict with
  | some w =>
    if w.line = l then { r with phase := if r.phase = .stalled .conflict then .fresh else r.phase, conflict := none } else r
  | none => r

theorem lineFreed_eq (l : Addr) (b : Blocks) : lineFreed l b = wakeRestoring l (b.mapStreams fun _ => freedRecord l) := rfl

theorem freedRecord_some {u : ConflictWait} (hp : r.phase = .stalled .conflict) (hu : r.conflict = some u) :
    freedRecord l r = if u.line = l then conflictEnded r else r := by
  unfold freedRecord conflictEnded
  rw [hu]
  dsimp only
  rw [hp, if_pos rfl]

theorem freedRecord_keeps (hs : ∀ cause, r.phase ≠ .stalled cause) : ∃ u, freedRecord l r = { r with conflict := u } := by
  unfold freedRecord
  split
  · split
    · rw [if_neg (hs _)]
      exact ⟨none, rfl⟩
    · exact ⟨_, rfl⟩
  · exact ⟨_, rfl⟩

/-- A READ that is not stalled on the line goes on as the freed line leaves it. -/
theorem lineFreed_record (h : ∀ cause, (freedRecord l (b.stream i)).phase = .stalled cause → cause ≠ .restoring) :
    (lineFreed l b).stream i = freedRecord l (b.stream i) := by
  rw [lineFreed_eq, wakeRestoring, wake_stream, Blocks.mapStreams_stream]
  intro cause hc
  rw [Blocks.mapStreams_stream] at hc
  simp [h cause hc]

theorem lineFreed_ends {u : ConflictWait} (hp : (b.stream i).phase = .stalled .conflict) (hu : (b.stream i).conflict = some u) :
    (lineFreed l b).stream i = if u.line = l then conflictEnded (b.stream i) else b.stream i := by
  have hrecord := freedRecord_some (l := l) hp hu
  rw [lineFreed_record, hrecord]
  intro cause hc
  rw [hrecord] at hc
  split at hc
  · cases hc
  · rw [hp] at hc
    cases hc
    exact StallCause.noConfusion

theorem lineFreed_ended (hb : b.stream i = conflictEnded r) : (lineFreed l b).stream i = conflictEnded r := by
  rw [lineFreed_stream (by rw [hb]; rfl) fun cause => by rw [hb]; exact Phase.noConfusion]
  exact hb

theorem removeEntries_ends {u : ConflictWait} (hp : (b.stream i).phase = .stalled .conflict)
    (hu : (b.stream i).conflict = some u) (he : ∃ e ∈ b.track, p e = true ∧ e.line = u.line) :
    (removeEntries p b).stream i = conflictEnded (b.stream i) := by
  have hall (es : List TrackEntry) (y : Blocks) (hy : y.stream i = conflictEnded (b.stream i)
      ∨ y.stream i = b.stream i ∧ ∃ e ∈ es, e.line = u.line) :
      (es.foldl (fun b e => lineFreed e.line b) y).stream i = conflictEnded (b.stream i) := by
    induction es generalizing y with
    | nil =>
      rcases hy with hy | ⟨_, e, he, _⟩
      · exact hy
      · cases he
    | cons e es ih =>
      refine ih _ ?_
      rcases hy with hy | ⟨hy, e', he', hline⟩
      · exact .inl (lineFreed_ended hy)
      · have hfreed := lineFreed_ends (b := y) (l := e.line) (by rw [hy]; exact hp) (by rw [hy]; exact hu)
        rw [hy] at hfreed
        by_cases hl : u.line = e.line
        · rw [if_pos hl] at hfreed
          exact .inl hfreed
        · rw [if_neg hl] at hfreed
          rcases List.mem_cons.1 he' with rfl | he'
          · exact absurd hline.symm hl
          · exact .inr ⟨hfreed, e', he', hline⟩
  obtain ⟨e, he, hpe, hline⟩ := he
  exact hall _ _ (.inr ⟨rfl, e, List.mem_filter.2 ⟨he, hpe⟩, hline⟩)

/-- A stream record but for its conflict-wait record. -/
def sameButConflict (r r' : StreamRec) : Prop := ∃ u, r' = { r with conflict := u }

theorem lineFreed_keeps (hs : ∀ cause, (b.stream i).phase ≠ .stalled cause) :
    sameButConflict (b.stream i) ((lineFreed l b).stream i) := by
  obtain ⟨u, hu⟩ := freedRecord_keeps (l := l) hs
  rw [lineFreed_record]
  · exact ⟨u, hu⟩
  · intro cause hc
    rw [hu] at hc
    exact absurd hc (hs cause)

theorem removeEntries_keeps (hs : ∀ cause, (b.stream i).phase ≠ .stalled cause) :
    sameButConflict (b.stream i) ((removeEntries p b).stream i) := by
  have hall (es : List TrackEntry) (y : Blocks) (hy : sameButConflict (b.stream i) (y.stream i)) :
      sameButConflict (b.stream i) ((es.foldl (fun b e => lineFreed e.line b) y).stream i) := by
    induction es generalizing y with
    | nil => exact hy
    | cons e es ih =>
      obtain ⟨u, hu⟩ := hy
      obtain ⟨u', hu'⟩ := lineFreed_keeps (b := y) (i := i) (l := e.line) fun cause => by rw [hu]; exact hs cause
      exact ih _ ⟨u', by rw [hu', hu]⟩
  exact hall _ _ ⟨_, rfl⟩

end Sys2Proof.Rounds


/-! SUPPORT. The event of a burst with one marker (R69, R74, R77, R108, R118). -/

namespace Sys2Proof.Rounds

open Sys2Proof.Machine Sys2Proof.Safety Sys2Proof.Laws Sys2Proof.Arrivals Sys2Proof.Expiries

variable {cfg : Image} {b v w x y z : Blocks} {s t : State} {i : StreamId} {c k : CtxId} {n : Epoch} {r : Rollback}
  {slot : StagedSlot} {kind : RecordKind} {tag : Tag}

/-! ## The end of an epoch -/

/-- The Journal Writer when an epoch has left the list of live epochs (R68). -/
def retiredJournal (n : Epoch) (j : JournalWriter) : JournalWriter :=
  { j with
    live := j.live.filter fun l => decide (l.epoch ≠ n)
    head := ((j.live.filter fun l => decide (l.epoch ≠ n)).head?.map (·.first)).getD j.tail }

/-- The blocks when the entries of a context have gone and its epoch has left the list (R69). -/
def epochRetired (c : CtxId) (n : Epoch) (b : Blocks) : Blocks :=
  answerWaiters c .okay ((removeEntries (fun t => decide (t.ctx = c)) b).modJournal (retiredJournal n))

/-- The outcome of a rollback whose marker is durable (R118). -/
def rollbackOutcome : RollbackMode → AbortOutcome
  | .restore => .restored
  | .retireOnly => .forced

/-- The outcome that a durable marker leaves in its context (R108, R118). -/
def markerOutcome (x : Context) : Option AbortOutcome :=
  match x.rollback with
  | some r => some (rollbackOutcome r.mode)
  | none => x.abortOutcome

/-- The events that a durable marker raises (R108, R118). -/
def markerRaises (x : Context) (e : EventUnit) : EventUnit :=
  if x.rollback.isSome then e.raise .abortDone else if x.mgmtWaiter then e.raise .commitDone else e

/-- The blocks when the marker of a context is durable, before the anchor condition is evaluated. -/
def markerEnded (c : CtxId) (n : Epoch) (b : Blocks) : Blocks :=
  ((epochRetired c n b).modCtx c fun _ => Context.ended (markerOutcome (b.ctx c))).modEvents (markerRaises (b.ctx c))

theorem markerDurable_eq (he : (b.ctx c).epoch = some n) (hs : (b.ctx c).state = .marking ∨ (b.ctx c).state = .rollback) :
    markerDurable cfg c n b = anchorCheck cfg (wakeContext cfg c (markerEnded c n b)) := by
  unfold markerDurable
  dsimp only
  rw [if_neg (by simp [he]), if_pos hs]
  congr 2
  unfold markerEnded markerOutcome markerRaises
  cases (b.ctx c).rollback with
  | some r => rfl
  | none =>
    cases (b.ctx c).mgmtWaiter with
    | true => rfl
    | false => rfl

theorem epochRetired_frame (c : CtxId) (n : Epoch) (b : Blocks) : ∃ q e, epochRetired c n b = { b with
    req := q
    epochs := e
    track := b.track.filter fun t => decide (t.ctx ≠ c)
    journal := retiredJournal n b.journal } := by
  obtain ⟨q, hq⟩ := removeEntries_frame (fun t => decide (t.ctx = c)) b
  obtain ⟨q', e, hframe⟩ := answerWaiters_frame c .okay ((removeEntries (fun t => decide (t.ctx = c)) b).modJournal (retiredJournal n))
  refine ⟨q', e, hframe.trans ?_⟩
  rw [hq]
  simp only [Blocks.modJournal, decide_not]

theorem markerEnded_frame (c : CtxId) (n : Epoch) (b : Blocks) : ∃ q e, markerEnded c n b = { b with
    req := q
    epochs := e
    track := b.track.filter fun t => decide (t.ctx ≠ c)
    journal := retiredJournal n b.journal
    events := markerRaises (b.ctx c) b.events } := by
  obtain ⟨q, e, hframe⟩ := epochRetired_frame c n b
  unfold markerEnded
  rw [hframe]
  exact ⟨q, _, rfl⟩

theorem markerEnded_ctx (c k : CtxId) (n : Epoch) (b : Blocks) : (markerEnded c n b).ctx k =
    if k = c then Context.ended (markerOutcome (b.ctx c)) else b.ctx k := by
  unfold markerEnded epochRetired
  rw [Blocks.modEvents_ctx, Blocks.modCtx_ctx]
  split
  · rfl
  · rename_i hk
    rw [Frames.answerWaiters_ctx, if_neg hk]
    obtain ⟨q, hq⟩ := removeEntries_frame (fun t => decide (t.ctx = c)) b
    rw [hq]
    rfl

theorem markerEnded_counter (c : CtxId) (n : Epoch) (b : Blocks) : (markerEnded c n b).epochs.counter = b.epochs.counter := by
  have hcounter : (epochRetired c n b).epochs.counter = b.epochs.counter := by
    unfold epochRetired
    rw [answerWaiters_counter]
    obtain ⟨q, hq⟩ := removeEntries_frame (fun t => decide (t.ctx = c)) b
    rw [hq]
    rfl
  exact hcounter

theorem markerEnded_aside (h : i ∉ (b.ctx c).waiters) :
    (markerEnded c n b).stream i = (removeEntries (fun t => decide (t.ctx = c)) b).stream i := by
  have hsame : (markerEnded c n b).stream i = (epochRetired c n b).stream i := rfl
  rw [hsame]
  unfold epochRetired answerWaiters
  rw [Blocks.modCtx_stream, answerAll_notMem, Blocks.modJournal_stream]
  obtain ⟨q, hq⟩ := removeEntries_frame (fun t => decide (t.ctx = c)) b
  rw [hq]
  exact h

theorem markerEnded_told (h : i ∈ (b.ctx c).waiters) (hq : (b.stream i).queue = [⟨tag, .commit⟩])
    (hs : ∀ cause, (b.stream i).phase ≠ .stalled cause) :
    (markerEnded c n b).stream i = goneOn [] (.done tag .okay) (b.stream i) := by
  obtain ⟨u, hu⟩ := removeEntries_keeps (p := fun t => decide (t.ctx = c)) hs
  obtain ⟨q, hframe⟩ := removeEntries_frame (fun t => decide (t.ctx = c)) b
  have hsame : (markerEnded c n b).stream i = (epochRetired c n b).stream i := rfl
  have hrecord : ((removeEntries (fun t => decide (t.ctx = c)) b).modJournal (retiredJournal n)).stream i =
      { b.stream i with conflict := u } := hu
  have hwaits : (((removeEntries (fun t => decide (t.ctx = c)) b).modJournal (retiredJournal n)).ctx c).waiters =
      (b.ctx c).waiters := by
    rw [hframe]
    rfl
  rw [hsame, epochRetired, answerWaiters_stream (by rw [hrecord, hq]; exact le_rfl), if_pos (by rw [hwaits]; exact h), hrecord]
  unfold StreamRec.answered
  dsimp only
  rw [hq]
  rfl

/-! ## The burst -/

/-- The blocks when a burst of one marker has persisted, before the marker is reported (R74). -/
def markerPassed (cfg : Image) (slot : StagedSlot) (b : Blocks) : Blocks := durableAdvance cfg [slot] b

theorem markerPassed_frame (cfg : Image) (slot : StagedSlot) (b : Blocks) : ∃ d l, markerPassed cfg slot b = { b with
    journal := { b.journal with durable := slot.pos.advance cfg.ringN 1, demands := d, staging := l } } := ⟨_, _, rfl⟩

theorem burstEnd_marker (hs : b.journal.state = .ready) (hburst : b.journal.staging.filter (fun s => s.inFlight) = [slot])
    (huse : slot.use = .marker kind c n) : burstEnd cfg .persisted b = burstCheck cfg
      (serveBuffer cfg Config.stagingCapacity (markerDurable cfg c n (markerPassed cfg slot b))) := by
  unfold burstEnd
  rw [if_neg (not_not.2 hs)]
  dsimp only
  unfold burstPersisted
  rw [hburst]
  dsimp only [List.foldl_cons, List.foldl_nil]
  rw [slotLogged, slotMarked, huse]
  rfl

end Sys2Proof.Rounds


/-! SUPPORT. A marker that becomes durable: what its event leaves (R54, R55, R69, R77, R108, R118). -/

namespace Sys2Proof.Rounds

open Sys2Proof.Machine Sys2Proof.Safety Sys2Proof.Laws Sys2Proof.Arrivals Sys2Proof.Expiries

variable {cfg : Image} {b v w x y z : Blocks} {s t : State} {i : StreamId} {c c' k : CtxId} {n : Epoch} {r : Rollback}
  {slot : StagedSlot} {kind : RecordKind} {tag : Tag} {a : Addr} {m : ByteMask} {d : LineData}

/-! ## The blocks of the event -/

theorem markerPassed_quiet (h : ctxQuiet b k) : ctxQuiet (markerPassed cfg slot b) k := by
  obtain ⟨d, l, hframe⟩ := markerPassed_frame cfg slot b
  rw [hframe]
  exact ctxQuiet_same h rfl rfl rfl rfl rfl

theorem entriesOf_removed {b' : Blocks} (htrack : b'.track = b.track.filter fun e => decide (e.ctx ≠ c)) (hk : k ≠ c) :
    b'.entriesOf k = b.entriesOf k := by
  rw [Blocks.entriesOf, htrack, List.filter_filter]
  refine List.filter_congr fun e _ => ?_
  by_cases hek : e.ctx = k
  · simp [hek, hk]
  · simp [hek]

theorem markerEnded_quiet (h : ∀ k, ctxQuiet b k) (k : CtxId) : ctxQuiet (markerEnded c n b) k := by
  have hctx := markerEnded_ctx c k n b
  by_cases hk : k = c
  · rw [if_pos hk] at hctx
    exact ctxQuiet_of_state (by rw [hctx]; exact CtxState.noConfusion) (by rw [hctx]; exact CtxState.noConfusion)
  · rw [if_neg hk] at hctx
    obtain ⟨q, e, hframe⟩ := markerEnded_frame c n b
    refine ctxQuiet_entries (h k) hctx ?_ (entriesOf_removed (by rw [hframe]) hk) ?_ ?_
    · rw [hframe]
      rfl
    · rw [hframe]
    · rw [hframe]
      rfl

theorem anchorCheck_quiet (h : ctxQuiet b k) : ctxQuiet (anchorCheck cfg b) k := by
  obtain ⟨mem, hm, hslots, _⟩ := anchorCheck_frame cfg b
  rw [hm]
  exact ctxQuiet_same h rfl rfl rfl (restoreOutstanding_congr hslots k) rfl

theorem anchorCheck_stream (i : StreamId) : (anchorCheck cfg b).stream i = b.stream i := by
  obtain ⟨mem, hm, _⟩ := anchorCheck_frame cfg b
  rw [hm]
  rfl

/-- The buffer is served and a burst issued: what the burst that has ended frees is given out (R70, R72). -/
theorem served_burst (cfg : Image) (b : Blocks) :
    Served b (burstCheck cfg (serveBuffer cfg Config.stagingCapacity b)) :=
  (serveBuffer_served cfg Config.stagingCapacity b).trans (served_burstCheck cfg _)

theorem sameRing_burst (h : b.journal.markerQueue = []) :
    (burstCheck cfg (serveBuffer cfg Config.stagingCapacity b)).journal.markerQueue = []
      ∧ sameRing b (burstCheck cfg (serveBuffer cfg Config.stagingCapacity b)) := by
  obtain ⟨hmarker, hring⟩ := serveBuffer_space cfg Config.stagingCapacity b h
  obtain ⟨staging, timer, mem, hframe, _⟩ := burstCheck_frame cfg (serveBuffer cfg Config.stagingCapacity b)
  rw [hframe]
  exact ⟨hmarker, hring⟩

/-! ## With no request stalled -/

/-- A stream that is answered has no request left; another keeps its request. -/
theorem markerEnded_streams (hstall : noStall b = true)
    (hw : ∀ i ∈ (b.ctx c).waiters, ∃ tag, (b.stream i).queue = [⟨tag, .commit⟩]) (i : StreamId) :
    (∃ tag, (markerEnded c n b).stream i = goneOn [] (.done tag .okay) (b.stream i))
    ∨ sameButConflict (b.stream i) ((markerEnded c n b).stream i) := by
  have hs (cause : StallCause) := (noStall_iff b).1 hstall i cause
  by_cases hi : i ∈ (b.ctx c).waiters
  · obtain ⟨tag, hq⟩ := hw i hi
    exact .inl ⟨tag, markerEnded_told hi hq hs⟩
  · rw [markerEnded_aside hi]
    exact .inr (removeEntries_keeps hs)

/-- The streams of a part in which nothing is to go on. -/
structure Settled (b : Blocks) : Prop where
  stall : noStall b = true
  fresh : noFresh b = true
  due : notDue b

theorem Settled.of (h : Settled b) (hs : ∀ i, (∃ x, y.stream i = goneOn [] x (b.stream i))
    ∨ sameButConflict (b.stream i) (y.stream i)) : Settled y := by
  have hphase (i : StreamId) : (y.stream i).phase = .idle
      ∨ (y.stream i).phase = (b.stream i).phase ∧ (y.stream i).outstanding = (b.stream i).outstanding := by
    rcases hs i with ⟨x, hx⟩ | ⟨u, hu⟩
    · rw [hx]
      exact .inl rfl
    · rw [hu]
      exact .inr ⟨rfl, rfl⟩
  refine ⟨(noStall_iff y).2 fun i cause => ?_, (noFresh_iff y).2 fun i => ?_, fun i => ?_⟩
  · rcases hphase i with hp | ⟨hp, _⟩
    · simp [hp]
    · rw [hp]
      exact (noStall_iff b).1 h.stall i cause
  · rcases hphase i with hp | ⟨hp, _⟩
    · simp [hp]
    · rw [hp]
      exact (noFresh_iff b).1 h.fresh i
  · rcases hphase i with hp | ⟨hp, ho⟩
    · simp [barrierDue, countDue, hp]
    · have hdue := h.due i
      unfold barrierDue countDue at hdue ⊢
      rw [hp, ho]
      exact hdue

theorem Settled.congr (h : Settled b) (hs : ∀ i, y.stream i = b.stream i) : Settled y :=
  h.of fun i => .inr ⟨_, by rw [hs i]⟩

/-- The event of a burst of one marker, with no request stalled. -/
theorem marker_event (hs : b.journal.state = .ready) (hn : b.journal.notice = false) (hquiet : ∀ k, ctxQuiet b k)
    (hstreams : Settled b) (he : (b.ctx c).epoch = some n)
    (hstate : (b.ctx c).state = .marking ∨ (b.ctx c).state = .rollback)
    (hw : ∀ i ∈ (b.ctx c).waiters, ∃ tag, (b.stream i).queue = [⟨tag, .commit⟩])
    (hburst : b.journal.staging.filter (fun s => s.inFlight) = [slot]) (huse : slot.use = .marker kind c n) :
    ∃ x, Served (anchorCheck cfg (markerEnded c n (markerPassed cfg slot b))) x
      ∧ Grown x (finishEvent cfg (burstEnd cfg .persisted b)) := by
  rw [burstEnd_marker hs hburst huse]
  have hpassed (k : CtxId) := markerPassed_quiet (cfg := cfg) (slot := slot) (hquiet k)
  obtain ⟨dm, l, hframe⟩ := markerPassed_frame cfg slot b
  have hfacts : ((markerPassed cfg slot b).ctx c).epoch = some n
      ∧ (((markerPassed cfg slot b).ctx c).state = .marking ∨ ((markerPassed cfg slot b).ctx c).state = .rollback)
      ∧ (∀ i ∈ ((markerPassed cfg slot b).ctx c).waiters, ∃ tag, ((markerPassed cfg slot b).stream i).queue = [⟨tag, .commit⟩])
      ∧ (markerPassed cfg slot b).journal.notice = false ∧ ∀ i, (markerPassed cfg slot b).stream i = b.stream i := by
    rw [hframe]
    exact ⟨he, hstate, hw, hn, fun _ => rfl⟩
  generalize markerPassed cfg slot b = u at *
  obtain ⟨he', hstate', hw', hn', hsame⟩ := hfacts
  have hsettled := hstreams.congr hsame
  have hended : Settled (markerEnded c n u) := hsettled.of fun i =>
    (markerEnded_streams hsettled.stall hw' i).imp (fun ⟨tag, h⟩ => ⟨_, h⟩) id
  have hnotice : (markerEnded c n u).journal.notice = false := by
    obtain ⟨q, e, hq⟩ := markerEnded_frame c n u
    rw [hq]
    exact hn'
  rw [markerDurable_eq he' hstate', wakeContext, wake_noStall hended.stall]
  have hquiet' := markerEnded_quiet (c := c) (n := n) hpassed
  generalize markerEnded c n u = v at *
  have hserved := served_burst cfg (anchorCheck cfg v)
  have hgiven := hended.congr fun i => (hserved.stream i).trans (anchorCheck_stream i)
  have hlive : (anchorCheck cfg v).journal.notice = false := by
    obtain ⟨mem, hm, _⟩ := anchorCheck_frame cfg v
    rw [hm]
    exact hnotice
  have hgivenQuiet (k : CtxId) := hserved.ctxQuiet (anchorCheck_quiet (cfg := cfg) (hquiet' k))
  generalize burstCheck cfg (serveBuffer cfg Config.stagingCapacity (anchorCheck cfg v)) = y at *
  obtain ⟨x, hx, hgrown⟩ := finishEvent_served (cfg := cfg) hgivenQuiet hgiven.due hgiven.fresh (hserved.notice.trans hlive)
  exact ⟨x, hserved.trans hx, hgrown⟩

/-! ## With one WRITE in a conflict wait -/

theorem markerEnded_waits {q : Request} {u : ConflictWait} (hone : oneRequest b i (.stalled .conflict) q)
    (hu : (b.stream i).conflict = some u) (hw : (b.ctx c).waiters = []) (he : ∃ e ∈ b.track, e.ctx = c ∧ e.line = u.line) :
    (markerEnded c n b).stream i = conflictEnded (b.stream i) ∧ oneRequest (markerEnded c n b) i .fresh q := by
  obtain ⟨hphase, hq, hothers⟩ := hone
  obtain ⟨e, hmem, hec, hline⟩ := he
  have hended : (markerEnded c n b).stream i = conflictEnded (b.stream i) := by
    rw [markerEnded_aside (by rw [hw]; exact List.not_mem_nil),
      removeEntries_ends hphase hu ⟨e, hmem, decide_eq_true hec, hline⟩]
  refine ⟨hended, ?_, ?_, fun k hk => ?_⟩
  · rw [hended]
    rfl
  · rw [hended]
    exact hq
  · obtain ⟨_, hidle, hconflict, _⟩ := (idleStream_iff _).1 (hothers k hk)
    rw [markerEnded_aside (by rw [hw]; exact List.not_mem_nil), removeEntries_stream _ hconflict fun cause => by simp [hidle]]
    exact hothers k hk

end Sys2Proof.Rounds


/-! SUPPORT. Durable markers (R54, R55, R69, R77, R108, R118). -/

namespace Sys2Proof.Rounds

open Sys2Proof.Machine Sys2Proof.Safety Sys2Proof.Laws Sys2Proof.Arrivals Sys2Proof.Expiries

variable {cfg : Image} {b u v w x y z : Blocks} {s t : State} {i : StreamId} {c c' k : CtxId} {n : Epoch} {r : Rollback}
  {slot : StagedSlot} {kind : RecordKind} {tag : Tag} {a : Addr} {m : ByteMask} {d : LineData} {line : Addr}

/-- A WRITE passes every check when the lines of the epoch that ends have gone. -/
structure TouchesAfter (cfg : Image) (b : Blocks) (i : StreamId) (line : Addr) (m : ByteMask) (c c' : CtxId) : Prop where
  mask : m ≠ 0
  window : ∃ w, lookup cfg line = .window w ∧ w.kind = .journaled ∧ w.writers.getLsbD i.val = true
  binding : cfg.bindings[i] = some c'
  ready : b.journal.state = .ready
  state : (b.ctx c').state = .idle ∨ (b.ctx c').state = .opened
  outstanding : (b.stream i).outstanding < Config.outstandingLimit
  other : c' ≠ c
  line : ∀ e ∈ b.track, e.line = line → e.ctx = c
  quota : b.trackedCount c' < cfg.ctxs[c'].quota.toNat
  pause : b.journal.pause = false
  space : slotsNeeded (b.ctx c').state ≤ b.journal.unreserved cfg.ringN
  room : b.held.full = false

theorem TouchesAfter.ended (h : TouchesAfter cfg b i line m c c')
    (hi : (markerEnded c n b).stream i = conflictEnded (b.stream i)) : Touches cfg (markerEnded c n b) i line m c' := by
  have hctx : (markerEnded c n b).ctx c' = b.ctx c' := (markerEnded_ctx c c' n b).trans (if_neg h.other)
  obtain ⟨q, e, hframe⟩ := markerEnded_frame c n b
  have htrack : (markerEnded c n b).track = b.track.filter fun e => decide (e.ctx ≠ c) := by rw [hframe]
  have hjournal : (markerEnded c n b).journal = retiredJournal n b.journal := by rw [hframe]
  have hheld : (markerEnded c n b).held = b.held := by rw [hframe]
  refine ⟨h.mask, h.window, h.binding, by rw [hjournal]; exact h.ready, by rw [hctx]; exact h.state, by rw [hi]; exact h.outstanding,
    ?_, ?_, by rw [hjournal]; exact h.pause, by rw [hctx, hjournal]; exact h.space, by rw [hheld]; exact h.room⟩
  · rw [Blocks.entryOf, htrack, List.find?_eq_none]
    intro e he hline
    obtain ⟨he, hec⟩ := List.mem_filter.1 he
    exact of_decide_eq_true hec (h.line e he (of_decide_eq_true hline))
  · rw [Blocks.trackedCount, entriesOf_removed htrack h.other]
    exact h.quota

theorem Touches.anchorCheck (h : Touches cfg b i line m c) : Touches cfg (anchorCheck cfg b) i line m c := by
  obtain ⟨mem, hm, _⟩ := anchorCheck_frame cfg b
  rw [hm]
  exact { h with }

/-- The event of a burst of one marker in which a WRITE in a conflict wait is accepted as a first touch. -/
theorem marker_accepts {cw : ConflictWait} (hn : b.journal.notice = false) (hquiet : ∀ k, ctxQuiet b k)
    (he : (b.ctx c).epoch = some n) (hstate : (b.ctx c).state = .marking ∨ (b.ctx c).state = .rollback)
    (hw : (b.ctx c).waiters = []) (hmarker : b.journal.markerQueue = [])
    (hone : oneRequest b i (.stalled .conflict) ⟨tag, .write a m d⟩) (hu : (b.stream i).conflict = some cw)
    (hline : cw.line = lineOf a) (hentry : ∃ e ∈ b.track, e.line = lineOf a)
    (htouch : TouchesAfter cfg b i (lineOf a) m c c') (hlast : b.epochs.counter ≠ lastEpoch)
    (hburst : b.journal.staging.filter (fun s => s.inFlight) = [slot]) (huse : slot.use = .marker kind c n)
    (ht : t.blocks = finishEvent cfg (burstEnd cfg .persisted b)) :
    idleStream (t.blocks.stream i) = true ∧ (t.blocks.stream i).sent = (b.stream i).sent ++ [.ack tag .okay]
      ∧ (t.blocks.ctx c').state = .opened
      ∧ ∃ e, t.blocks.entryOf (lineOf a) = some e ∧ e.ctx = c' ∧ e.state = .capturing ∧ e.stream = i := by
  rw [burstEnd_marker htouch.ready hburst huse] at ht
  have hpassed (k : CtxId) := markerPassed_quiet (cfg := cfg) (slot := slot) (hquiet k)
  obtain ⟨dm, l, hframe⟩ := markerPassed_frame cfg slot b
  obtain ⟨e, hmem, hel⟩ := hentry
  have hended := markerEnded_waits (b := markerPassed cfg slot b) (n := n) (c := c) (by rw [hframe]; exact hone)
    (by rw [hframe]; exact hu) (by rw [hframe]; exact hw)
    ⟨e, by rw [hframe]; exact hmem, htouch.line e hmem hel, by rw [hel, hline]⟩
  have hafter : TouchesAfter cfg (markerPassed cfg slot b) i (lineOf a) m c c' := by
    rw [hframe]
    exact { htouch with }
  have hfacts : ((markerPassed cfg slot b).ctx c).epoch = some n
      ∧ (((markerPassed cfg slot b).ctx c).state = .marking ∨ ((markerPassed cfg slot b).ctx c).state = .rollback)
      ∧ (markerPassed cfg slot b).journal.notice = false ∧ (markerPassed cfg slot b).stream i = b.stream i
      ∧ (markerPassed cfg slot b).journal.markerQueue = []
      ∧ (markerPassed cfg slot b).epochs.counter ≠ lastEpoch := by
    rw [hframe]
    exact ⟨he, hstate, hn, rfl, hmarker, hlast⟩
  generalize markerPassed cfg slot b = u at *
  obtain ⟨he', hstate', hn', hsame, hmarker', hlast'⟩ := hfacts
  obtain ⟨hconflict, hone'⟩ := hended
  have htouches := (hafter.ended hconflict).anchorCheck
  have hcounter := markerEnded_counter c n u
  have hquiet' := markerEnded_quiet (c := c) (n := n) hpassed
  have hstall : noStall (markerEnded c n u) = true := (noStall_iff _).2 fun k cause => by
    by_cases hk : k = i
    · rw [hk, hone'.1]
      exact Phase.noConfusion
    · rw [phase_of_idleStream (hone'.2.2 k hk)]
      exact Phase.noConfusion
  obtain ⟨q, ep, hq⟩ := markerEnded_frame c n u
  have hjournal : (markerEnded c n u).journal.notice = false ∧ (markerEnded c n u).journal.markerQueue = [] := by
    rw [hq]
    exact ⟨hn', hmarker'⟩
  rw [markerDurable_eq he' hstate', wakeContext, wake_noStall hstall] at ht
  generalize markerEnded c n u = v at *
  obtain ⟨mem, hm, _⟩ := anchorCheck_frame cfg v
  have hchecked : (anchorCheck cfg v).journal.notice = false ∧ (anchorCheck cfg v).journal.markerQueue = []
      ∧ (anchorCheck cfg v).epochs.counter = v.epochs.counter := by
    rw [hm]
    exact ⟨hjournal.1, hjournal.2, rfl⟩
  have hgivenQuiet (k : CtxId) := anchorCheck_quiet (cfg := cfg) (hquiet' k)
  have hchecks (k : StreamId) : (anchorCheck cfg v).stream k = v.stream k := anchorCheck_stream k
  generalize anchorCheck cfg v = w at *
  obtain ⟨hnotice, hnone, hkept⟩ := hchecked
  have hserved := served_burst cfg w
  obtain ⟨hmarkers, hring⟩ := sameRing_burst (cfg := cfg) hnone
  generalize burstCheck cfg (serveBuffer cfg Config.stagingCapacity w) = y at *
  have hstreams (k : StreamId) : y.stream k = v.stream k := (hserved.stream k).trans (hchecks k)
  have hone'' : oneRequest y i .fresh ⟨tag, .write a m d⟩ := by
    simp only [oneRequest, hstreams]
    exact hone'
  obtain ⟨hidle, hsent, hopened, hentry⟩ := finishEvent_accepts (hserved.notice.trans hnotice)
    (fun k => hserved.ctxQuiet (hgivenQuiet k)) hone'' (.inl hmarkers) (htouches.served hserved hring)
    (by rw [hserved.epochs, hkept, hcounter]; exact hlast') ht
  refine ⟨hidle, hsent.trans ?_, hopened, hentry⟩
  rw [hstreams, hconflict, hsame]
  rfl

theorem markerOutcome_none {x : Context} (h : x.rollback = none) : markerOutcome x = x.abortOutcome := by
  unfold markerOutcome
  rw [h]

theorem markerOutcome_some {x : Context} (h : x.rollback = some r) : markerOutcome x = some (rollbackOutcome r.mode) := by
  unfold markerOutcome
  rw [h]

theorem markerRaises_commit {x : Context} (h : x.rollback = none) (hw : x.mgmtWaiter = true) (e : EventUnit) :
    (markerRaises x e).isPending .commitDone = true := by
  unfold markerRaises
  rw [h, if_neg (by simp), if_pos hw]
  exact raise_pending _ _

theorem markerRaises_abort {x : Context} (h : x.rollback = some r) (e : EventUnit) :
    (markerRaises x e).isPending .abortDone = true := by
  unfold markerRaises
  rw [h, if_pos (by simp)]
  exact raise_pending _ _

/-- What the event of a burst of one marker leaves, with no request stalled. -/
theorem marker_leaves (hs : b.journal.state = .ready) (hn : b.journal.notice = false) (hquiet : ∀ k, ctxQuiet b k)
    (hstreams : Settled b) (he : (b.ctx c).epoch = some n)
    (hstate : (b.ctx c).state = .marking ∨ (b.ctx c).state = .rollback)
    (hw : ∀ i ∈ (b.ctx c).waiters, ∃ tag, (b.stream i).queue = [⟨tag, .commit⟩])
    (hburst : b.journal.staging.filter (fun s => s.inFlight) = [slot]) (huse : slot.use = .marker kind c n)
    (ht : t.blocks = finishEvent cfg (burstEnd cfg .persisted b)) :
    t.blocks.ctx c = Context.ended (markerOutcome (b.ctx c))
      ∧ t.blocks.track = b.track.filter (fun e => decide (e.ctx ≠ c))
      ∧ t.blocks.journal.durable = slot.pos.advance cfg.ringN 1
      ∧ (∀ i ∈ (b.ctx c).waiters, ∀ tag, (b.stream i).queue = [⟨tag, .commit⟩] →
        t.blocks.stream i = goneOn [] (.done tag .okay) (b.stream i))
      ∧ t.blocks.events = markerRaises (b.ctx c) b.events
      ∧ updateEvaluated cfg (retiredJournal n b.journal) b.epochs.counter t := by
  obtain ⟨x, hx, hgrown⟩ := marker_event (cfg := cfg) hs hn hquiet hstreams he hstate hw hburst huse
  rw [← ht] at hgrown
  obtain ⟨dm, l, hframe⟩ := markerPassed_frame cfg slot b
  have hstall (i : StreamId) (cause : StallCause) := (noStall_iff b).1 hstreams.stall i cause
  rw [hframe] at hx
  have hctx := markerEnded_ctx c c n (markerPassed cfg slot b)
  have hcounter := markerEnded_counter c n (markerPassed cfg slot b)
  have htold (i : StreamId) (hi : i ∈ (b.ctx c).waiters) (tag : Tag) (hq : (b.stream i).queue = [⟨tag, .commit⟩]) :=
    markerEnded_told (b := markerPassed cfg slot b) (n := n) (i := i) (tag := tag) (by rw [hframe]; exact hi)
      (by rw [hframe]; exact hq) (by rw [hframe]; exact hstall i)
  obtain ⟨q, e, hq⟩ := markerEnded_frame c n (markerPassed cfg slot b)
  rw [if_pos rfl] at hctx
  rw [hframe] at hctx hcounter htold hq
  generalize markerEnded c n { b with
    journal := { b.journal with durable := slot.pos.advance cfg.ringN 1, demands := dm, staging := l } } = v at *
  have hready : v.journal.state = .ready := by rw [hq]; exact hs
  have hnotice : v.journal.notice = false := by rw [hq]; exact hn
  have heval := updateEvaluated_of hready hnotice hx hgrown
  obtain ⟨mem, hm, _⟩ := anchorCheck_frame cfg v
  refine ⟨?_, ?_, ?_, fun i hi tag hqueue => ?_, ?_, ?_⟩
  · rw [hgrown.ctx, hx.ctx, hm]
    exact hctx
  · rw [hgrown.grants.track, hx.track, hm, hq]
  · rw [hgrown.grants.journal, hx.durable, hm, hq]
    rfl
  · rw [hgrown.stream, hx.stream, hm]
    exact htold i hi tag hqueue
  · rw [hgrown.grants.events, hx.events, hm, hq]
    rfl
  · rw [hcounter, hq] at heval
    exact heval

/-- Settles O51. -/
theorem durableMarkerEndsTheEpoch : Obligations.DurableMarkerEndsTheEpoch := by
  have hexec {s : State} {id : OpId} {o : Outstanding} (hrest : atRest s = true) (hm : s.blocks.mem.matching id = some o)
      (hop : ∃ f bytes, o.op = .slotBurst f bytes) (how : o.owner = .burst) :
      ∃ t, exec (.slotBurstDone id .persisted) s = .next t ∧ t.mgmt = s.mgmt
        ∧ t.blocks = finishEvent s.mgmt.active (burstEnd s.mgmt.active .persisted (freeSlot id.slot s.blocks)) := by
    obtain ⟨f, bytes, hop⟩ := hop
    obtain ⟨hup, _⟩ := (atRest_iff s).1 hrest
    have hends := exec_completion hup hm (cmd := .slotBurstDone id .persisted) rfl (e := .persisted) (by rw [hop]; rfl)
    unfold handBack at hends
    rw [how] at hends
    dsimp only at hends
    generalize finishEvent s.mgmt.active (burstEnd s.mgmt.active .persisted (freeSlot id.slot s.blocks)) = x at hends ⊢
    exact ⟨_, hends, rfl, rfl⟩
  have hstill {s : State} {id : OpId} {o : Outstanding} (hrest : atRest s = true) (hm : s.blocks.mem.matching id = some o)
      (how : o.owner = .burst) : still s.mgmt.active (freeSlot id.slot s.blocks) = true :=
    still_freed hrest hm (by simp [how, Owner.restoreOf]) s.blocks.clock
  refine ⟨fun slot kind c c' n i tag a m d cw id o s hrest hm hop how hburst huse he hstate hmarker hstalled hw hcw hline
    hentry hall hreach hother hquota hpause hspace hroom hlast => ?_,
    fun slot kind c n tag id o s hcalm hs hm hop how hburst huse he hnodup hw => ?_⟩
  · obtain ⟨_, hn, _, _, _⟩ := (atRest_iff s).1 hrest
    obtain ⟨t, hx, _, ht⟩ := hexec hrest hm hop how
    obtain ⟨hmask, hwindow, hbind, hready, hcstate, hcount⟩ := hreach
    obtain ⟨hidle, hsent, hleft⟩ := marker_accepts (b := freeSlot id.slot s.blocks) hn
      (held_of_still (hstill hrest hm how)).context he hstate hw hmarker hstalled hcw hline hentry
      ⟨hmask, hwindow, hbind, hready, hcstate, hcount, hother, hall, hquota, hpause, hspace, hroom⟩ hlast hburst huse ht
    exact ⟨t, hx, ⟨hidle, hsent⟩, hleft⟩
  · obtain ⟨hrest, hstall⟩ := (calm_iff s).1 hcalm
    obtain ⟨_, hn, _, hf, _⟩ := (atRest_iff s).1 hrest
    obtain ⟨t, hx, hmgmt, ht⟩ := hexec hrest hm hop how
    have hfreed := hstill hrest hm how
    obtain ⟨_, _, _, hdue⟩ := (still_iff _ _).1 hfreed
    have hleaves (hstate : (s.blocks.ctx c).state = .marking ∨ (s.blocks.ctx c).state = .rollback) :=
      marker_leaves (b := freeSlot id.slot s.blocks) hs hn (held_of_still hfreed).context ⟨hstall, hf, hdue⟩ he hstate
        (fun i hi => ⟨tag i, (hw i hi).2⟩) hburst huse ht
    refine ⟨fun hstate hnone => ?_, fun r hstate hsome => ?_⟩
    · obtain ⟨hctx, htrack, hdurable, hwaiters, hevents, heval⟩ := hleaves (.inl hstate)
      refine ⟨t, hx, hmgmt, ?_, htrack, hdurable, fun i hi => ?_, fun hraised => ?_, heval⟩
      · rw [hctx]
        exact congrArg Context.ended (markerOutcome_none hnone)
      · rw [hwaiters i hi (tag i) (hw i hi).2]
        exact ⟨rfl, rfl⟩
      · rw [hevents]
        exact markerRaises_commit hnone hraised _
    · obtain ⟨hctx, htrack, hdurable, hwaiters, hevents, heval⟩ := hleaves (.inr hstate)
      refine ⟨t, hx, hmgmt, ?_, htrack, hdurable, fun i hi => ?_, fun _ => ?_, heval⟩
      · rw [hctx]
        exact congrArg Context.ended (markerOutcome_some hsome)
      · rw [hwaiters i hi (tag i) (hw i hi).2]
        exact ⟨rfl, rfl⟩
      · rw [hevents]
        exact markerRaises_abort hsome _

end Sys2Proof.Rounds


/-! SUPPORT. Records that become durable (R47, R74, R93). -/

namespace Sys2Proof.Rounds

open Sys2Proof.Machine Sys2Proof.Safety Sys2Proof.Laws Sys2Proof.Arrivals Sys2Proof.Expiries

variable {cfg : Image} {b u v w x y z : Blocks} {s t : State} {i : StreamId} {c c' k : CtxId} {n : Epoch} {id : Nat}
  {slots : List StagedSlot} {e : TrackEntry} {l : List TrackEntry} {p : Nat → Bool} {q : Addr → Bool}

/-! ## Entries and held writes -/

/-- A tracking entry when the records of some captures are durable (R47). -/
def loggedEntry (p : Nat → Bool) (e : TrackEntry) : TrackEntry :=
  if e.state = .capturing ∧ p e.capture = true then { e with state := .logged } else e

/-- A held entry when some lines have become LOGGED (R93). -/
def loggedHeld (p : Addr → Bool) (h : HeldEntry) : HeldEntry :=
  if p h.line = true ∧ h.state = .waitLog then { h with state := .ready } else h

theorem loggedEntry_ctx (p : Nat → Bool) (e : TrackEntry) : (loggedEntry p e).ctx = e.ctx := by
  unfold loggedEntry
  split <;> rfl

theorem loggedEntry_capture (p : Nat → Bool) (e : TrackEntry) : (loggedEntry p e).capture = e.capture := by
  unfold loggedEntry
  split <;> rfl

theorem loggedEntry_line (p : Nat → Bool) (e : TrackEntry) : (loggedEntry p e).line = e.line := by
  unfold loggedEntry
  split <;> rfl

theorem loggedHeld_ctx (p : Addr → Bool) (h : HeldEntry) : (loggedHeld p h).ctx = h.ctx := by
  unfold loggedHeld
  split <;> rfl

theorem loggedEntry_twice (p q : Nat → Bool) (e : TrackEntry) :
    loggedEntry q (loggedEntry p e) = loggedEntry (fun id => p id || q id) e := by
  unfold loggedEntry
  by_cases hs : e.state = .capturing
  · cases hp : p e.capture with
    | true => simp [hs, hp]
    | false => simp [hs, hp]
  · simp [hs]

theorem loggedHeld_twice (p q : Addr → Bool) (h : HeldEntry) :
    loggedHeld q (loggedHeld p h) = loggedHeld (fun l => p l || q l) h := by
  unfold loggedHeld
  by_cases hs : h.state = .waitLog
  · cases hp : p h.line with
    | true => simp [hs, hp]
    | false => simp [hs, hp]
  · simp [hs]

/-- An entry is the only one with its capture number. -/
theorem capture_unique (hnodup : (l.map (·.capture)).Nodup) {x y : TrackEntry} (hx : x ∈ l) (hy : y ∈ l)
    (h : x.capture = y.capture) : x = y := List.inj_on_of_nodup_map hnodup hx hy h

/-- The blocks when the records of some captures are durable. -/
def recordsLogged (p : Nat → Bool) (q : Addr → Bool) (b : Blocks) : Blocks :=
  { b with track := b.track.map (loggedEntry p), held := { b.held with entries := b.held.entries.map (loggedHeld q) } }

theorem recordsLogged_none (h : ∀ e ∈ b.track, e.state = .capturing → p e.capture = false) :
    recordsLogged p (fun _ => false) b = b := by
  have htrack : b.track.map (loggedEntry p) = b.track := by
    rw [List.map_congr_left (g := id), List.map_id]
    intro e he
    unfold loggedEntry
    rw [if_neg fun hc => by simp [h e he hc.1] at hc]
    rfl
  have hheld : b.held.entries.map (loggedHeld fun _ => false) = b.held.entries := by
    rw [List.map_congr_left (g := id), List.map_id]
    intro e _
    unfold loggedHeld
    rw [if_neg (by simp)]
    rfl
  unfold recordsLogged
  rw [htrack, hheld]

theorem restoreLogged_none {l : Addr} (h : (b.ctx c).rollback = none) : restoreLogged c l b = b := by
  unfold restoreLogged slotOf rollbackIn
  rw [h]

/-- The record of one capture is durable, in a part without a rollback. -/
theorem recordDurable_eq (hroll : ∀ c, (b.ctx c).rollback = none) (hnodup : (b.track.map (·.capture)).Nodup) (id : Nat) :
    ∃ q : Addr → Bool, recordDurable id b = recordsLogged (fun n => decide (n = id)) q b
      ∧ ∀ e ∈ b.track, e.capture = id → e.state = .capturing → q e.line = true := by
  unfold recordDurable
  split
  · rename_i e hfound
    have hmem := List.mem_of_find?_eq_some hfound
    obtain ⟨hcapture, hstate⟩ : e.capture = id ∧ e.state = .capturing := by simpa using List.find?_some hfound
    refine ⟨fun l => decide (l = e.line), ?_, fun x hx hxc _ => ?_⟩
    · dsimp only
      rw [restoreLogged_none]
      · have htrack : (b.track.map fun x => if decide (x.capture = id) then { x with state := .logged } else x) =
            b.track.map (loggedEntry fun n => decide (n = id)) := by
          refine List.map_congr_left fun x hx => ?_
          by_cases hxc : x.capture = id
          · rw [capture_unique hnodup hx hmem (hxc.trans hcapture.symm)]
            simp [loggedEntry, hcapture, hstate]
          · simp [loggedEntry, hxc]
        have hheld : (b.held.entries.map fun h => if h.line = e.line ∧ h.state = .waitLog then { h with state := .ready } else h) =
            b.held.entries.map (loggedHeld fun l => decide (l = e.line)) := by
          refine List.map_congr_left fun h _ => ?_
          simp [loggedHeld]
        unfold recordsLogged
        rw [← htrack, ← hheld]
        rfl
      · exact hroll e.ctx
    · rw [capture_unique hnodup hx hmem (hxc.trans hcapture.symm)]
      exact decide_eq_true rfl
  · rename_i hnone
    refine ⟨fun _ => false, (recordsLogged_none fun x hx hs => ?_).symm, fun x hx hxc hs => ?_⟩
    · have hnot := List.find?_eq_none.1 hnone x hx
      simpa [hs] using hnot
    · have hnot := List.find?_eq_none.1 hnone x hx
      simp [hs, hxc] at hnot

/-- The captures whose data slots are among some slots. -/
def carries (slots : List StagedSlot) (n : Nat) : Bool := slots.any fun x => decide (x.use = .undoData n)

/-- The records of a burst without a marker are durable, in a part without a rollback (R47, R93). -/
theorem slotsLogged_eq (hroll : ∀ c, (b.ctx c).rollback = none) (hnodup : (b.track.map (·.capture)).Nodup)
    (slots : List StagedSlot) : ∃ q : Addr → Bool, slots.foldl slotLogged b = recordsLogged (carries slots) q b
      ∧ ∀ e ∈ b.track, carries slots e.capture = true → e.state = .capturing → q e.line = true := by
  induction slots generalizing b with
  | nil =>
    refine ⟨fun _ => false, (recordsLogged_none fun _ _ _ => rfl).symm, fun _ _ h => ?_⟩
    cases h
  | cons x slots ih =>
    have hstep : ∃ p q, slotLogged b x = recordsLogged p q b ∧ (∀ n, p n = decide (x.use = .undoData n))
        ∧ ∀ e ∈ b.track, p e.capture = true → e.state = .capturing → q e.line = true := by
      unfold slotLogged
      split
      · rename_i n huse
        obtain ⟨q, hq, hlines⟩ := recordDurable_eq hroll hnodup n
        refine ⟨_, q, hq, fun n' => ?_, fun e he hc hs => hlines e he (of_decide_eq_true hc) hs⟩
        simp [huse, eq_comm]
      · rename_i hnot
        refine ⟨fun _ => false, fun _ => false, (recordsLogged_none fun _ _ _ => rfl).symm, fun n => ?_, fun _ _ h => ?_⟩
        · exact (decide_eq_false fun huse => hnot n huse).symm
        · cases h
    obtain ⟨p, q, hstep, hp, hlines⟩ := hstep
    have hnodup' : ((recordsLogged p q b).track.map (·.capture)).Nodup := by
      have hsame : (recordsLogged p q b).track.map (·.capture) = b.track.map (·.capture) := by
        simp [recordsLogged, List.map_map, Function.comp_def, loggedEntry_capture]
      rw [hsame]
      exact hnodup
    obtain ⟨q', hq', hlines'⟩ := ih (b := recordsLogged p q b) hroll hnodup'
    refine ⟨fun l => q l || q' l, ?_, fun e he hc hs => ?_⟩
    · rw [List.foldl_cons, hstep, hq']
      have hcarries : carries (x :: slots) = fun n => p n || carries slots n := by
        funext n
        rw [hp, carries, List.any_cons]
        rfl
      unfold recordsLogged
      rw [hcarries]
      simp only [List.map_map, Function.comp_def, loggedEntry_twice, loggedHeld_twice]
    · rw [carries, List.any_cons, Bool.or_eq_true] at hc
      cases hpe : p e.capture with
      | true =>
        dsimp only
        rw [hlines e he hpe hs, Bool.true_or]
      | false =>
        have hrest : carries slots e.capture = true := hc.resolve_left fun h => by rw [← hp, hpe] at h; cases h
        have hkept : loggedEntry p e = e := if_neg fun h => by rw [hpe] at h; exact Bool.false_ne_true h.2
        have hmem : e ∈ (recordsLogged p q b).track := List.mem_map.2 ⟨e, he, hkept⟩
        dsimp only
        rw [hlines' e hmem hrest hs, Bool.or_true]

end Sys2Proof.Rounds


/-! SUPPORT. Contexts whose drains end together, and their markers (R70 to R72, R106, R107). -/

namespace Sys2Proof.Rounds

open Sys2Proof.Machine Sys2Proof.Safety Sys2Proof.Laws Sys2Proof.Arrivals Sys2Proof.Expiries

variable {cfg : Image} {b b' x y : Blocks} {s t : State} {c k : CtxId} {n : Epoch} {kind : RecordKind}

/-! ## A marker in the queue or in the buffer -/

/-- A marker waits in the queue, or it is staged and a burst is in flight. -/
def markerHeld (kind : RecordKind) (c : CtxId) (n : Epoch) (b : Blocks) : Prop :=
  ⟨kind, c⟩ ∈ b.journal.markerQueue ∨ burstBusy b = true ∧ ∃ x ∈ b.journal.staging, x.use = .marker kind c n
    ∧ x.bytes = buildHeader b.journal.anchor.formatCount kind c x.pos.seq n 0 none

theorem markerHeld_staged (hbusy : burstBusy b = true) {x : StagedSlot} (hx : ∃ y ∈ b.journal.staging,
    { y with inFlight := false } = { x with inFlight := false }) (huse : x.use = .marker kind c n)
    (hbytes : x.bytes = buildHeader b.journal.anchor.formatCount kind c x.pos.seq n 0 none) : markerHeld kind c n b := by
  obtain ⟨y, hy, hsame⟩ := hx
  refine .inr ⟨hbusy, y, hy, ?_, ?_⟩
  · exact (congrArg StagedSlot.use hsame).trans huse
  · have hpos : y.pos = x.pos := (StagedSlot.mk.inj hsame).2.1
    rw [hpos]
    exact (congrArg StagedSlot.bytes hsame).trans hbytes

/-- The blocks with the oldest waiting marker taken out. -/
def popMarker (b : Blocks) (rest : List MarkerRequest) : Blocks := b.modJournal fun j => { j with markerQueue := rest }

/-- Staging a marker keeps those that are staged. -/
theorem stageMarker_keeps (hw : b.journal.writing = true) {c' : CtxId} {kind' : RecordKind} (h : markerHeld kind c n b) : markerHeld kind c n (stageMarker cfg kind' c' b) := by
  obtain ⟨hstaged, hbusy, _⟩ := stageMarker_staged (cfg := cfg) (k := kind') (c := c') hw rfl
  have hanchor : (stageMarker cfg kind' c' b).journal.anchor = b.journal.anchor := by
    rw [stageMarker_eq rfl]
    exact (served_burstCheck cfg _).anchor
  rcases h with hqueue | ⟨_, x, hx, huse, hbytes⟩
  · exact .inl (by rwa [hstaged.markerQueue])
  · refine markerHeld_staged hbusy (x := x) ?_ huse (by rw [hanchor]; exact hbytes)
    rw [stageMarker_eq rfl]
    exact burstCheck_staging cfg _ (List.mem_append_left _ hx)

/-- The marker that is staged is held. -/
theorem stageMarker_held (hw : b.journal.writing = true) (he : (b.ctx c).epoch.getD 0 = n) :
    markerHeld kind c n (stageMarker cfg kind c b) := by
  obtain ⟨hstaged, hbusy, _⟩ := stageMarker_staged (cfg := cfg) (k := kind) hw he
  obtain ⟨y, hy, hsame⟩ := hstaged.member
  have hanchor : (stageMarker cfg kind c b).journal.anchor = b.journal.anchor := by
    rw [stageMarker_eq he]
    exact (served_burstCheck cfg _).anchor
  refine markerHeld_staged hbusy (x := markerSlot b.journal kind c n) ⟨y, hy, hsame⟩ rfl ?_
  rw [hanchor]
  rfl

/-! ## The service of the buffer -/

/-- What a step of the service gives: a slot to the oldest marker, or two to a capture when no marker waits. -/
theorem serveOne_cases (h : serveOne cfg b = some b') : b.journal.writing = true ∧
    ((∃ m rest, b.journal.markerQueue = m :: rest ∧ 1 ≤ b.journal.freeBuffer
      ∧ b' = stageMarker cfg m.kind m.ctx (popMarker b rest))
    ∨ b.journal.markerQueue = [] ∧ 2 ≤ b.journal.freeBuffer ∧ ∃ id rest, b' = handOver (.lineRead (captureLine b id)) .capture (.capture id)
      (b.modJournal fun j => { j with captureQueue := rest, promises := j.promises ++ [id] })) := by
  unfold serveOne at h
  dsimp only at h
  split at h
  · cases h
  · rename_i hw
    refine ⟨by simpa using hw, ?_⟩
    split at h
    · rename_i m rest hq
      split at h
      · rename_i hfree
        cases h
        exact .inl ⟨m, rest, hq, hfree, rfl⟩
      · cases h
    · rename_i hq
      split at h
      · rename_i id rest _
        split at h
        · rename_i hfree
          cases h
          exact .inr ⟨hq, hfree, id, rest, rfl⟩
        · cases h
      · cases h

theorem handOver_busy (op : MemOp) (cls : MemClass) (w : Owner) (b : Blocks) : burstBusy (handOver op cls w b) = burstBusy b := by
  obtain ⟨m, hm, hslots⟩ := handOver_frame op cls w b
  rw [hm]
  unfold burstBusy MemoryPort.ops
  rw [hslots]

theorem serveOne_markers (he : (b.ctx c).epoch.getD 0 = n) (h : serveOne cfg b = some b') :
    (markerHeld kind c n b → markerHeld kind c n b')
      ∧ b'.journal.freeBuffer < b.journal.freeBuffer := by
  obtain ⟨hw, ⟨m, rest, hq, hfree, rfl⟩ | ⟨hq, hfree, id, rest, rfl⟩⟩ := serveOne_cases h
  · obtain ⟨hstaged, _⟩ := stageMarker_staged (cfg := cfg) (k := m.kind) (c := m.ctx) (b := popMarker b rest) hw rfl
    refine ⟨fun hheld => ?_, ?_⟩
    · by_cases hm : m = ⟨kind, c⟩
      · subst hm
        exact stageMarker_held hw he
      · refine stageMarker_keeps (b := popMarker b rest) hw (hheld.imp_left fun hmem => ?_)
        rw [hq] at hmem
        exact (List.mem_cons.1 hmem).resolve_left (Ne.symm hm)
    · have hpromises : (popMarker b rest).journal.promises = b.journal.promises := rfl
      have hstaging : (popMarker b rest).journal.staging = b.journal.staging := rfl
      unfold JournalWriter.freeBuffer at hfree ⊢
      rw [hstaged.length, hstaged.promises, hpromises, hstaging]
      omega
  · refine ⟨fun hheld => ?_, ?_⟩
    · unfold markerHeld at hheld ⊢
      rw [handOver_busy, handOver_journal]
      exact hheld
    · unfold JournalWriter.freeBuffer at hfree ⊢
      rw [handOver_journal]
      simp only [Blocks.modJournal_journal, List.length_append, List.length_singleton]
      omega

/-- A marker that waits is in the buffer when it has been served, or waits for room there. -/
theorem serveBuffer_markers {size : Nat} (hw : b.journal.writing = true)
    (he : (b.ctx c).epoch.getD 0 = n) (hheld : markerHeld kind c n b) (hsize : b.journal.freeBuffer ≤ size) :
    markerHeld kind c n (serveBuffer cfg size b)
      ∧ ((serveBuffer cfg size b).journal.markerQueue ≠ [] → (serveBuffer cfg size b).journal.freeBuffer = 0) := by
  induction size generalizing b with
  | zero => exact ⟨hheld, fun _ => Nat.le_zero.1 hsize⟩
  | succ size ih =>
    cases h : serveOne cfg b with
    | none =>
      rw [serveBuffer_none h]
      refine ⟨hheld, fun hq => ?_⟩
      have hnone := serveOne_none_iff.1 h
      simp only [hw, Bool.true_eq_false, hq, ne_eq, not_false_eq_true, true_and, false_and, or_false, false_or] at hnone
      omega
    | some b' =>
      rw [serveBuffer, h]
      obtain ⟨hheld', hfree⟩ := serveOne_markers (kind := kind) he h
      have hserved := serveOne_served h
      have hw' : b'.journal.writing = true := by
        unfold JournalWriter.writing at hw ⊢
        rw [hserved.state, hserved.notice]
        exact hw
      have he' : (b'.ctx c).epoch.getD 0 = n := by rw [hserved.ctx]; exact he
      exact ih hw' he' (hheld' hheld) (by omega)

/-! ## Contexts that go on -/

/-- From one state to another the contexts of a list whose drains are over have gone to MARKING, with their markers
asked for. -/
structure Drained (b b' : Blocks) (l : List CtxId) : Prop where
  frame : ∃ e q, b' = { b with epochs := e, journal := { b.journal with markerQueue := b.journal.markerQueue ++ q } }
  asked : ∀ m ∈ b'.journal.markerQueue, m ∈ b.journal.markerQueue ∨ ∃ k ∈ l, m = ⟨.commit, k⟩ ∧ drainDue b k = true
  waits : ∀ k ∈ l, drainDue b k = true → ⟨.commit, k⟩ ∈ b'.journal.markerQueue
  ctx : ∀ k, b'.ctx k = if k ∈ l ∧ drainDue b k = true then { b.ctx k with state := .marking } else b.ctx k

theorem Drained.refl (b : Blocks) : Drained b b [] :=
  ⟨⟨_, [], by rw [List.append_nil]⟩, fun _ h => .inl h, fun _ h => absurd h List.not_mem_nil, fun _ => by simp⟩

theorem Drained.due (h : Drained b b' [c]) (hk : k ≠ c) : drainDue b' k = drainDue b k := by
  have hctx := h.ctx k
  rw [if_neg (by simp [hk])] at hctx
  obtain ⟨e, q, hframe⟩ := h.frame
  unfold drainDue
  rw [hctx, hframe]
  rfl

theorem Drained.cons {l : List CtxId} (h : Drained b x [c]) (hrest : Drained x y l) (hc : c ∉ l) : Drained b y (c :: l) where
  frame := by
    obtain ⟨e, q, hframe⟩ := h.frame
    obtain ⟨e', q', hframe'⟩ := hrest.frame
    rw [hframe] at hframe'
    exact ⟨e', q ++ q', by rw [hframe', List.append_assoc]⟩
  asked m hm := by
    rcases hrest.asked m hm with hx | ⟨k, hk, rfl, hdue⟩
    · refine (h.asked m hx).imp_right fun ⟨k, hk, hm, hdue⟩ => ⟨k, ?_, hm, hdue⟩
      rw [List.mem_singleton.1 hk]
      exact List.mem_cons_self
    · have hkc : k ≠ c := fun hkc => hc (hkc ▸ hk)
      exact .inr ⟨k, List.mem_cons_of_mem _ hk, rfl, (h.due hkc).symm.trans hdue⟩
  waits k hk hdue := by
    by_cases hkc : k = c
    · subst hkc
      have := h.waits k (List.mem_singleton.2 rfl) hdue
      obtain ⟨e', q', hframe'⟩ := hrest.frame
      rw [hframe']
      exact List.mem_append_left _ this
    · exact hrest.waits k ((List.mem_cons.1 hk).resolve_left hkc) ((h.due hkc).trans hdue)
  ctx k := by
    by_cases hkc : k = c
    · subst hkc
      rw [hrest.ctx, if_neg (fun h => hc h.1), h.ctx]
      simp
    · have hkept : x.ctx k = b.ctx k := (h.ctx k).trans (if_neg fun h => hkc (List.mem_singleton.1 h.1))
      rw [hrest.ctx, h.due hkc, hkept]
      simp [hkc]

/-- A context step of a part without a rollback. -/
theorem contextStep_drains (hstand : StandBy b) (hw : b.journal.writing = true) (hroll : ∀ k, (b.ctx k).rollback = none)
    (c : CtxId) : Drained b (contextStep cfg b c) [c] := by
  cases hdue : drainDue b c with
  | false =>
    have hquiet : ctxQuiet b c := by
      refine ⟨hdue, ?_, ?_, ?_⟩
      · simp [quiesceDue, rollbackIn, hroll]
      · simp [nextRestore, rollbackIn, hroll]
      · simp [retireDue, rollbackIn, hroll]
    rw [hquiet.contextStep]
    exact ⟨⟨_, [], by rw [List.append_nil]⟩, fun _ h => .inl h, fun k hk => by simp_all, fun k => by
      rw [if_neg]
      rintro ⟨hk, hkdue⟩
      rw [List.mem_singleton.1 hk, hdue] at hkdue
      cases hkdue⟩
  | true =>
    have hstate : (b.ctx c).state = .draining := by
      simp only [drainDue, Bool.and_eq_true, decide_eq_true_eq] at hdue
      exact hdue.1.1
    have hstep : contextStep cfg b c = (marking c b).modJournal
        fun j => { j with markerQueue := j.markerQueue ++ [⟨.commit, c⟩] } := by
      unfold contextStep
      rw [hstate]
      exact (if_pos hdue).trans ((enterMarking_eq hstand).trans (if_pos hw))
    rw [hstep]
    refine ⟨⟨_, [⟨.commit, c⟩], rfl⟩, fun m hm => ?_, fun k hk _ => ?_, fun k => ?_⟩
    · refine (List.mem_append.1 hm).imp_right fun h => ⟨c, List.mem_singleton.2 rfl, List.mem_singleton.1 h, hdue⟩
    · rw [List.mem_singleton.1 hk]
      exact List.mem_append_right _ (List.mem_singleton.2 rfl)
    · refine (marking_ctx c k b).trans ?_
      by_cases hk : k = c
      · simp [hk, hdue]
      · simp [hk]

theorem contexts_drain {l : List CtxId} (hl : l.Nodup) (hstand : StandBy b) (hw : b.journal.writing = true)
    (hroll : ∀ k, (b.ctx k).rollback = none) : Drained b (l.foldl (contextStep cfg) b) l := by
  induction l generalizing b with
  | nil => exact .refl b
  | cons c l ih =>
    obtain ⟨hc, hl⟩ := List.nodup_cons.1 hl
    have hstep := contextStep_drains (cfg := cfg) hstand hw hroll c
    rw [List.foldl_cons]
    refine hstep.cons (ih hl ?_ ?_ fun k => ?_) hc
    · obtain ⟨e, q, hframe⟩ := hstep.frame
      rw [hframe]
      exact hstand.congr fun _ => rfl
    · obtain ⟨e, q, hframe⟩ := hstep.frame
      rw [hframe]
      exact hw
    · rw [hstep.ctx]
      split
      · exact hroll k
      · exact hroll k

end Sys2Proof.Rounds


/-! SUPPORT. Durable records (R47, R74, R93, R106, R107). -/

namespace Sys2Proof.Rounds

open Sys2Proof.Machine Sys2Proof.Safety Sys2Proof.Laws Sys2Proof.Arrivals Sys2Proof.Expiries

variable {cfg : Image} {b u x y z : Blocks} {s t : State} {c k : CtxId} {n : Epoch} {p : Nat → Bool} {q : Addr → Bool}
  {done : List StagedSlot} {last : StagedSlot}

/-- The blocks when a burst's records are durable (R47, R74, R93). -/
def burstLogged (cfg : Image) (done : List StagedSlot) (q : Addr → Bool) (b : Blocks) : Blocks :=
  recordsLogged (carries done) q (durableAdvance cfg done b)

theorem burstEnd_records (hs : b.journal.state = .ready) (hroll : ∀ c, (b.ctx c).rollback = none)
    (hnodup : (b.track.map (·.capture)).Nodup) (hdone : b.journal.staging.filter (fun s => s.inFlight) = done)
    (hmark : ∀ x ∈ done, x.use.isMarker = false) : ∃ q : Addr → Bool, burstEnd cfg .persisted b =
        burstCheck cfg (serveBuffer cfg Config.stagingCapacity (burstLogged cfg done q b))
      ∧ ∀ e ∈ b.track, carries done e.capture = true → e.state = .capturing → q e.line = true := by
  obtain ⟨q, hq, hlines⟩ := slotsLogged_eq (b := durableAdvance cfg done b) hroll hnodup done
  have hmarks : done.foldl (slotMarked cfg) (burstLogged cfg done q b) = burstLogged cfg done q b := by
    refine foldl_fixed _ _ _ fun x hx => ?_
    have huse := hmark x hx
    unfold slotMarked
    split
    · rename_i h
      rw [h] at huse
      cases huse
    · rfl
  refine ⟨q, ?_, hlines⟩
  unfold burstEnd
  rw [if_neg (not_not.2 hs)]
  dsimp only
  unfold burstPersisted
  rw [hdone]
  dsimp only
  rw [hq]
  exact congrArg (fun x => burstCheck cfg (serveBuffer cfg Config.stagingCapacity x)) hmarks

theorem burstLogged_frame (cfg : Image) (q : Addr → Bool) (b : Blocks) (hlast : done.getLast? = some last) : ∃ d l,
    burstLogged cfg done q b = { b with
      journal := { b.journal with durable := last.pos.advance cfg.ringN 1, demands := d, staging := l }
      track := b.track.map (loggedEntry (carries done))
      held := { b.held with entries := b.held.entries.map (loggedHeld q) } } := by
  unfold burstLogged recordsLogged durableAdvance freeBurst
  rw [hlast]
  exact ⟨_, _, rfl⟩

theorem heldCount_logged (hheld : x.held.entries = b.held.entries.map (loggedHeld q)) : x.heldCount c = b.heldCount c := by
  unfold Blocks.heldCount
  rw [hheld, List.filter_map, List.length_map]
  simp only [Function.comp_def, loggedHeld_ctx]

/-- An event in which the drains of contexts end, in a part without a rollback and without a request. -/
theorem drains_end (hs : b.journal.state = .ready) (hn : b.journal.notice = false)
    (hroll : ∀ c, (b.ctx c).rollback = none) (hidle : ∀ i, idleStream (b.stream i) = true) :
    ∃ u x, Drained b u allCtxs ∧ x = serveBuffer cfg Config.stagingCapacity u ∧ Grown x (finishEvent cfg b) ∧ x.held = b.held := by
  have hw : b.journal.writing = true := by simp [JournalWriter.writing, hs, hn]
  have hnodup : allCtxs.Nodup := List.nodup_finRange _
  have hdrained := contexts_drain (cfg := cfg) hnodup (standBy_idle hidle) hw hroll
  generalize hu : allCtxs.foldl (contextStep cfg) b = u at hdrained
  have hstream (i : StreamId) : u.stream i = b.stream i := by
    obtain ⟨e, q, hframe⟩ := hdrained.frame
    rw [hframe]
    rfl
  have hnotice : u.journal.notice = false := by
    obtain ⟨e, q, hframe⟩ := hdrained.frame
    rw [hframe]
    exact hn
  have hheld : u.held = b.held := by
    obtain ⟨e, q, hframe⟩ := hdrained.frame
    rw [hframe]
  have hserved := (serveBuffer_served cfg Config.stagingCapacity u).trans (requestReleases_served _)
  have hstreams (i : StreamId) := (hserved.stream i).trans (hstream i)
  have hp : progress cfg b = requestReleases (serveBuffer cfg Config.stagingCapacity u) := by
    have hstand := standBy_idle (b := requestReleases (serveBuffer cfg Config.stagingCapacity u)) fun i => by
      rw [hstreams]
      exact hidle i
    unfold progress
    dsimp only
    rw [hu, answerBarriers_none fun i => (hstand.notDue i).1, handOnCounts_none fun i => (hstand.notDue i).2]
  have hfinish := finishEvent_progressed hp ((noFresh_iff _).2 fun i => by
    rw [hstreams, phase_of_idleStream (hidle i)]
    exact Phase.noConfusion) (hserved.notice.trans hnotice)
  have hgrown := (grown_requestReleases (serveBuffer cfg Config.stagingCapacity u)).trans (grown_arbitrate cfg 32 _)
  rw [← hfinish] at hgrown
  exact ⟨u, _, hdrained, rfl, hgrown, (serveBuffer_served cfg Config.stagingCapacity u).held.trans hheld⟩

theorem Served.req (h : Served x y) : y.req = x.req := by
  obtain ⟨j, m, hj⟩ := h.frame
  rw [hj]

theorem Drained.served {l : List CtxId} (h : Drained b u l) (hserved : Served u x) : x.req = b.req ∧ x.track = b.track
    ∧ x.held = b.held ∧ x.journal.durable = b.journal.durable ∧ ∀ k, x.ctx k = u.ctx k := by
  obtain ⟨e, q, hframe⟩ := h.frame
  refine ⟨?_, ?_, ?_, ?_, hserved.ctx⟩
  · rw [hserved.req, hframe]
  · rw [hserved.track, hframe]
  · rw [hserved.held, hframe]
  · rw [hserved.durable, hframe]

/-- The markers of the drains that end in an event stand when the buffer has been served. -/
theorem drains_markers (hs : b.journal.state = .ready) (hn : b.journal.notice = false) (h : Drained b u allCtxs)
    (hdue : drainDue b c = true) (he : (b.ctx c).epoch = some n)
    (ht : Grown (serveBuffer cfg Config.stagingCapacity u) t.blocks) : markerStands .commit c n t := by
  have hw : u.journal.writing = true := by
    obtain ⟨e, q, hframe⟩ := h.frame
    rw [hframe]
    simp [JournalWriter.writing, hs, hn]
  have hepoch : (u.ctx c).epoch.getD 0 = n := by
    have hkept : (u.ctx c).epoch = (b.ctx c).epoch := by
      rw [h.ctx]
      split
      · rfl
      · rfl
    rw [hkept, he]
    rfl
  have hfree : u.journal.freeBuffer ≤ Config.stagingCapacity := by
    unfold JournalWriter.freeBuffer
    omega
  obtain ⟨hheld, hroom⟩ := serveBuffer_markers (cfg := cfg) (kind := .commit) hw hepoch
    (.inl (h.waits c (List.mem_finRange c) hdue)) hfree
  generalize serveBuffer cfg Config.stagingCapacity u = x at *
  unfold markerStands
  rw [ht.grants.journal]
  refine hheld.imp (fun hq => ⟨hq, fun hhas => ?_⟩) fun ⟨hbusy, hstaged⟩ => ⟨ht.burstBusy hbusy, hstaged⟩
  have hnone := hroom (List.ne_nil_of_mem hq)
  have := (freeBuffer_iff x.journal Nat.one_pos).2 hhas
  omega

/-- What the event of a burst of records leaves, in a part without a rollback and without a request. -/
theorem records_leave (hs : b.journal.state = .ready) (hn : b.journal.notice = false)
    (hroll : ∀ c, (b.ctx c).rollback = none) (hnodup : (b.track.map (·.capture)).Nodup)
    (hidle : ∀ i, idleStream (b.stream i) = true) (hdone : b.journal.staging.filter (fun s => s.inFlight) = done)
    (hlast : done.getLast? = some last) (hmark : ∀ x ∈ done, x.use.isMarker = false)
    (ht : t.blocks = finishEvent cfg (burstEnd cfg .persisted b)) :
    t.blocks.journal.durable = last.pos.advance cfg.ringN 1 ∧ t.blocks.req = b.req
      ∧ t.blocks.track = b.track.map (loggedEntry (carries done))
      ∧ (∀ k, t.blocks.ctx k =
        if (b.ctx k).state = .draining ∧ b.heldCount k = 0 ∧ t.blocks.capturing k = false then
          { b.ctx k with state := .marking }
        else b.ctx k)
      ∧ (∀ k n, (b.ctx k).state = .draining → (t.blocks.ctx k).state = .marking → (b.ctx k).epoch = some n →
        markerStands .commit k n t)
      ∧ ∀ e ∈ b.track, carries done e.capture = true → e.state = .capturing →
        ∀ h ∈ t.blocks.held.entries, h.line = e.line → h.state ≠ .waitLog := by
  obtain ⟨q, hburst, hlines⟩ := burstEnd_records (cfg := cfg) hs hroll hnodup hdone hmark
  rw [hburst] at ht
  obtain ⟨d, l, hframe⟩ := burstLogged_frame cfg q b hlast
  have hserved := served_burst cfg (burstLogged cfg done q b)
  rw [hframe] at hserved ht
  generalize burstCheck cfg (serveBuffer cfg Config.stagingCapacity { b with
      journal := { b.journal with durable := last.pos.advance cfg.ringN 1, demands := d, staging := l }
      track := b.track.map (loggedEntry (carries done))
      held := { b.held with entries := b.held.entries.map (loggedHeld q) } }) = y at *
  have hctx (k : CtxId) : y.ctx k = b.ctx k := hserved.ctx k
  have hcount (k : CtxId) : y.heldCount k = b.heldCount k := heldCount_logged (by rw [hserved.held])
  obtain ⟨u, x, hdrained, hx, hgrown, hheld⟩ := drains_end (cfg := cfg) (b := y) (hserved.state.trans hs)
    (hserved.notice.trans hn) (fun k => by rw [hctx]; exact hroll k) (fun i => by rw [hserved.stream]; exact hidle i)
  rw [← ht] at hgrown
  obtain ⟨hreq, htrack, _, hdurable, hctxs⟩ := hdrained.served (hx ▸ serveBuffer_served cfg Config.stagingCapacity u)
  have htracked : t.blocks.track = y.track := hgrown.grants.track.trans htrack
  have hdue (k : CtxId) : drainDue y k = true ↔
      (b.ctx k).state = .draining ∧ b.heldCount k = 0 ∧ t.blocks.capturing k = false := by
    have hcapturing : t.blocks.capturing k = y.capturing k := by
      unfold Blocks.capturing
      rw [htracked]
    rw [hcapturing, drainDue, hctx, hcount]
    simp [and_assoc]
  have hleft (k : CtxId) : t.blocks.ctx k =
      if (b.ctx k).state = .draining ∧ b.heldCount k = 0 ∧ t.blocks.capturing k = false then
        { b.ctx k with state := .marking }
      else b.ctx k := by
    rw [hgrown.ctx, hctxs, hdrained.ctx, hctx]
    simp only [← hdue k, show k ∈ allCtxs from List.mem_finRange k, true_and]
  refine ⟨?_, ?_, ?_, hleft, fun k n hdraining hmarking he => ?_, fun e he hc hcap h hh hline => ?_⟩
  · rw [hgrown.grants.journal, hdurable, hserved.durable]
  · rw [hgrown.grants.req, hreq, hserved.req]
  · rw [htracked, hserved.track]
  · have hdrain : drainDue y k = true := by
      rw [hdue]
      by_contra hnot
      rw [hleft k, if_neg hnot, hdraining] at hmarking
      cases hmarking
    exact drains_markers (cfg := cfg) (hserved.state.trans hs) (hserved.notice.trans hn) hdrained hdrain
      ((congrArg Context.epoch (hctx k)).trans he) (hx ▸ hgrown)
  · obtain ⟨h', hh', hsame, hstate⟩ := hgrown.issued h hh
    have hline' := asIssued_line hsame
    rw [hheld, hserved.held] at hh'
    obtain ⟨w, _, rfl⟩ := List.mem_map.1 hh'
    have hq : q w.line = true := by
      have hw : (loggedHeld q w).line = w.line := by
        unfold loggedHeld
        split <;> rfl
      rw [← hw, hline', hline]
      exact hlines e he hc hcap
    have hready : (loggedHeld q w).state ≠ .waitLog := by
      unfold loggedHeld
      split
      · exact HeldState.noConfusion
      · rename_i hnot
        exact fun h => hnot ⟨hq, h⟩
    rcases hstate with hstate | hstate
    · rw [hstate]
      exact hready
    · rw [hstate]
      exact HeldState.noConfusion

/-- Settles O50. -/
theorem burstMakesItsRecordsDurable : Obligations.BurstMakesItsRecordsDurable := by
  intro last id o s halone hs hm hop how hlast hmark hroll hnodup
  obtain ⟨hrest, hidle⟩ := (alone_iff s).1 halone
  obtain ⟨hup, hn, _⟩ := (atRest_iff s).1 hrest
  obtain ⟨f, bytes, hop⟩ := hop
  have hends := exec_completion hup hm (cmd := .slotBurstDone id .persisted) rfl (e := .persisted) (by rw [hop]; rfl)
  unfold handBack at hends
  rw [how] at hends
  dsimp only at hends
  have hleaves {t : State} (ht : t.blocks = finishEvent s.mgmt.active
      (burstEnd s.mgmt.active .persisted (freeSlot id.slot s.blocks))) :=
    records_leave (b := freeSlot id.slot s.blocks) (done := burstOf s) hs hn hroll hnodup hidle rfl hlast hmark ht
  generalize finishEvent s.mgmt.active (burstEnd s.mgmt.active .persisted (freeSlot id.slot s.blocks)) = x at hends hleaves
  refine ⟨_, hends, rfl, ?_⟩
  obtain ⟨hdurable, hreq, htrack, hctx, hmarker, hheld⟩ := hleaves (t := after s x) rfl
  refine ⟨hdurable, hreq, hctx, hmarker, fun slot hslot n huse e he hcapture hcap => ?_⟩
  have hcarried : carries (burstOf s) e.capture = true := by
    rw [carries, List.any_eq_true]
    exact ⟨slot, hslot, decide_eq_true (hcapture ▸ huse)⟩
  refine ⟨?_, hheld e he hcarried hcap⟩
  rw [show (after s x).blocks.track = _ from htrack]
  exact List.mem_map.2 ⟨e, he, if_pos ⟨hcap, hcarried⟩⟩

end Sys2Proof.Rounds


/-! SUPPORT. An event in which no stream's request goes on: contexts go on, and nobody is answered. -/

namespace Sys2Proof.Rounds

open Sys2Proof.Machine Sys2Proof.Safety Sys2Proof.Laws Sys2Proof.Arrivals Sys2Proof.Expiries

variable {cfg : Image} {a b b' : Blocks} {c : CtxId} {i : StreamId} {r r' r'' : StreamRec}

theorem sameButConflict_refl (r : StreamRec) : sameButConflict r r := ⟨r.conflict, rfl⟩

theorem sameButConflict.trans (h : sameButConflict r r') (k : sameButConflict r' r'') : sameButConflict r r'' := by
  obtain ⟨u, rfl⟩ := h
  obtain ⟨v, rfl⟩ := k
  exact ⟨v, rfl⟩

/-- A line is RESTORED (R116). -/
def lineDone (l : Addr) (b : Blocks) : Prop := ∃ e, b.entryOf l = some e ∧ e.state = .restored

/-- From a to b no request has gone on, and the held writes are the same. -/
structure Lull (a b : Blocks) : Prop where
  stall : noStall b = true
  streams : ∀ i, sameButConflict (a.stream i) (b.stream i)
  held : b.held = a.held
  notice : b.journal.notice = a.journal.notice
  state : b.journal.state = a.journal.state
  done : ∀ l, lineDone l a → lineDone l b
  slots : b.mem.slots = a.mem.slots
  waits : ∀ r ∈ a.mem.waiting, r ∈ b.mem.waiting

theorem Lull.refl (h : noStall a = true) : Lull a a :=
  ⟨h, fun _ => sameButConflict_refl _, rfl, rfl, rfl, fun _ h => h, rfl, fun _ h => h⟩

theorem Lull.inPort (h : Lull a b) {op : MemOp} {w : Owner} (hp : inPort a.mem op w = true) : Safety.inPort b.mem op w = true :=
  inPort_mono h.waits h.slots hp

theorem Lull.phase (h : Lull a b) (i : StreamId) : (b.stream i).phase = (a.stream i).phase := by
  obtain ⟨u, hu⟩ := h.streams i
  rw [hu]

theorem Lull.notStalled (h : Lull a b) (cause : StallCause) : (b.stream i).phase ≠ .stalled cause :=
  (noStall_iff b).1 h.stall i cause

theorem Lull.notDue (h : Lull a b) (hdue : notDue a) : notDue b := fun i => by
  obtain ⟨u, hu⟩ := h.streams i
  have hi := hdue i
  unfold barrierDue countDue at hi ⊢
  rw [hu]
  exact hi

theorem noStall_same (h : noStall b = true) (hs : ∀ i, sameButConflict (b.stream i) (b'.stream i)) : noStall b' = true := by
  rw [noStall_iff] at h ⊢
  intro i cause
  obtain ⟨u, hu⟩ := hs i
  rw [hu]
  exact h i cause

theorem lineDone_congr {l : Addr} (htrack : b'.track = b.track) (h : lineDone l b) : lineDone l b' := by
  unfold lineDone Blocks.entryOf at h ⊢
  rwa [htrack]

/-- A change of other parts. -/
theorem Lull.aside (h : Lull a b) (hreq : b'.req = b.req) (hheld : b'.held = b.held) (hnotice : b'.journal.notice = b.journal.notice)
    (hstate : b'.journal.state = b.journal.state) (htrack : b'.track = b.track) (hslots : b'.mem.slots = b.mem.slots)
    (hwaits : ∀ r ∈ b.mem.waiting, r ∈ b'.mem.waiting) : Lull a b' := by
  have hs (i : StreamId) : b'.stream i = b.stream i := by rw [Blocks.stream, hreq]; rfl
  exact ⟨noStall_same h.stall fun i => by rw [hs]; exact sameButConflict_refl _, fun i => by rw [hs]; exact h.streams i,
    hheld.trans h.held, hnotice.trans h.notice, hstate.trans h.state, fun l hl => lineDone_congr htrack (h.done l hl),
    hslots.trans h.slots, fun r hr => hwaits r (h.waits r hr)⟩

theorem Lull.modCtx (h : Lull a b) (c : CtxId) (f : Context → Context) : Lull a (b.modCtx c f) :=
  h.aside (b' := b.modCtx c f) rfl rfl rfl rfl rfl rfl fun _ h => h

theorem Lull.updateEntries (h : Lull a b) {p : TrackEntry → Bool} {f : TrackEntry → TrackEntry}
    (hline : ∀ e, (f e).line = e.line) (hp : ∀ e, e.state = .restored → p e = false) : Lull a (updateEntries p f b) := by
  refine ⟨h.stall, h.streams, h.held, h.notice, h.state, fun l hl => ?_, h.slots, h.waits⟩
  obtain ⟨e, he, hrestored⟩ := h.done l hl
  have hlines (x : TrackEntry) : (if p x then f x else x).line = x.line := by
    split
    · exact hline x
    · rfl
  refine ⟨e, ?_, hrestored⟩
  have hfind : (Machine.updateEntries p f b).entryOf l = (b.entryOf l).map fun x => if p x then f x else x := by
    unfold Blocks.entryOf
    refine List.find?_map.trans ?_
    simp only [Function.comp_def, hlines]
  rw [hfind, he, Option.map_some, hp e hrestored]
  rfl

theorem Lull.raise (h : Lull a b) (f : EventFlag) : Lull a (raise f b) := h.aside (b' := Machine.raise f b) rfl rfl rfl rfl rfl rfl fun _ h => h

theorem Lull.modJournal (h : Lull a b) {f : JournalWriter → JournalWriter} (hf : (f b.journal).notice = b.journal.notice)
    (hstate : (f b.journal).state = b.journal.state) : Lull a (b.modJournal f) :=
  h.aside (b' := b.modJournal f) rfl rfl hf hstate rfl rfl fun _ h => h

theorem Lull.foldl {α : Type} {f : Blocks → α → Blocks} (hf : ∀ x b, Lull a b → Lull a (f b x)) (h : Lull a b) (l : List α) :
    Lull a (l.foldl f b) := by
  induction l generalizing b with
  | nil => exact h
  | cons x l ih => exact ih (hf x b h)

theorem Lull.served (h : Lull a b) (hs : Served b b') : Lull a b' := by
  have hreq : b'.req = b.req := by
    obtain ⟨j, m, hframe⟩ := hs.frame
    rw [hframe]
  exact h.aside hreq hs.held hs.notice hs.state hs.track hs.slots hs.waits

theorem Lull.wake (h : Lull a b) (p : StreamId → StreamRec → StallCause → Bool) : Lull a (wake p b) := by
  rw [wake_noStall h.stall]
  exact h

theorem Lull.removeEntries (h : Lull a b) {p : TrackEntry → Bool} (hp : ∀ e, e.state = .restored → p e = false) :
    Lull a (removeEntries p b) := by
  have hs (i : StreamId) : sameButConflict (b.stream i) ((Machine.removeEntries p b).stream i) :=
    removeEntries_keeps fun cause => h.notStalled cause
  obtain ⟨q, hq⟩ := removeEntries_frame p b
  rw [hq] at hs ⊢
  refine ⟨noStall_same h.stall hs, fun i => (h.streams i).trans (hs i), h.held, h.notice, h.state, fun l hl => ?_,
    h.slots, h.waits⟩
  obtain ⟨e, he, hrestored⟩ := h.done l hl
  refine ⟨e, ?_, hrestored⟩
  unfold Blocks.entryOf at he ⊢
  obtain ⟨hline, before, behind, hsplit, hbefore⟩ := List.find?_eq_some_iff_append.1 he
  refine List.find?_eq_some_iff_append.2 ⟨hline, before.filter fun e => !p e, behind.filter fun e => !p e, ?_, fun x hx => ?_⟩
  · rw [hsplit, List.filter_append, List.filter_cons_of_pos (by simp [hp e hrestored])]
  · exact hbefore x (List.mem_filter.1 hx).1

theorem Lull.anchorCheck (h : Lull a b) : Lull a (anchorCheck cfg b) := by
  obtain ⟨m, hm, hslots, hwaits⟩ := anchorCheck_frame cfg b
  rw [hm]
  exact h.aside rfl rfl rfl rfl rfl hslots hwaits

theorem Lull.evalPause (h : Lull a b) : Lull a (evalPause cfg b) := by
  unfold Machine.evalPause
  dsimp only
  split
  · exact h
  split
  · exact ((h.modJournal rfl rfl).raise .capturePaused).anchorCheck
  split
  · exact ((h.modJournal rfl rfl).raise .captureResumed).wake _
  · exact h

theorem Lull.releaseSpace (h : Lull a b) (k : Nat) : Lull a (releaseSpace cfg k b) := by
  unfold Machine.releaseSpace spaceRisen
  split
  · exact h
  · exact ((h.modJournal rfl rfl).wake _).evalPause

theorem Lull.drainDemands (h : Lull a b) (source : DemandSource) : Lull a (drainDemands c source b) := by
  obtain ⟨l, hl⟩ := drainDemands_journal c source b
  rw [hl]
  exact h.modJournal rfl rfl

theorem Lull.requestMarker (h : Lull a b) (k : RecordKind) : Lull a (requestMarker k c b) := by
  unfold Machine.requestMarker
  split
  · exact h.modJournal rfl rfl
  · exact h

theorem Lull.enterRetire (h : Lull a b) : Lull a (enterRetire c b) := (h.modCtx c _).requestMarker .retire

theorem Lull.settleRestore (h : Lull a b) : Lull a (settleRestore cfg c b) := by
  have hrestoring : Lull a (Machine.updateEntries (fun e => decide (e.ctx = c) && decide (e.state = .logged))
      (fun e => { e with state := .restoring }) b) := h.updateEntries (fun _ => rfl) fun e he => by simp [he]
  have hphase := hrestoring.modCtx c fun x =>
    { x with rollback := x.rollback.map fun r => { r with phase := .restore, slots := settledSlots b c } }
  exact (hphase.drainDemands (.rollback c)).served (served_burstCheck cfg _)

theorem Lull.settleLines (h : Lull a b) : Lull a (settleLines cfg c b) := by
  have hdropped : Lull a (dropCaptures cfg c b) :=
    ((h.removeEntries fun e he => by simp [TrackEntry.undisclosed, he]).modJournal rfl rfl).releaseSpace _
  unfold Machine.settleLines
  dsimp only
  split
  · exact hdropped.settleRestore
  · exact hdropped.enterRetire

theorem Lull.fillSlots (h : Lull a b) (n : Nat) : Lull a (fillSlots cfg c n b) := by
  induction n generalizing b with
  | zero => exact h
  | succ n ih =>
    unfold Machine.fillSlots
    split
    · exact ih ((h.modCtx c _).served (served_handOver _ _ _ _))
    · exact h

theorem Lull.contextStep (h : Lull a b) (c : CtxId) : Lull a (contextStep cfg b c) := by
  have hmarking : Lull a (enterMarking cfg c b) := ((h.modCtx c _).wake _).requestMarker .commit
  have hstep : Lull a (rollbackStep cfg b c) := by
    unfold rollbackStep
    dsimp only
    split
    · split
      · exact (h.settleLines.fillSlots _).enterRetire
      · exact h.settleLines.fillSlots _
    · split
      · exact (h.fillSlots _).enterRetire
      · exact h.fillSlots _
  unfold Machine.contextStep
  split
  · split
    · exact hmarking
    · exact h
  · exact hstep
  · exact h

theorem Lull.progress (h : Lull a b) (hdue : Rounds.notDue a) : Lull a (progress cfg b) := by
  have hcontexts : Lull a (allCtxs.foldl (Machine.contextStep cfg) b) := h.foldl (fun c b hb => hb.contextStep c) allCtxs
  have hserved := (hcontexts.served (serveBuffer_served cfg Config.stagingCapacity _)).served (requestReleases_served _)
  have hnone := hserved.notDue hdue
  unfold Machine.progress
  dsimp only
  rw [answerBarriers_none fun i => (hnone i).1, handOnCounts_none fun i => (hnone i).2]
  exact hserved

/-- The rest of an event in which no request goes on. -/
theorem finishEvent_lull (h : StandBy b) (hn : b.journal.notice = false) :
    (∀ i, sameButConflict (b.stream i) ((finishEvent cfg b).stream i))
      ∧ (finishEvent cfg b).held.overlays = b.held.overlays := by
  have hprogress := (Lull.refl h.noStall).progress (cfg := cfg) h.notDue
  generalize hx : progress cfg b = x at hprogress
  have hfresh : noFresh x = true := (noFresh_iff x).2 fun i => by
    rw [hprogress.phase i]
    exact (noFresh_iff b).1 h.noFresh i
  have hgrants := arbitrate_frame cfg 32 x
  rw [finishEvent_progressed hx hfresh (hprogress.notice.trans hn)]
  generalize arbitrate cfg 32 x = y at *
  refine ⟨fun i => ?_, by rw [hgrants.overlays, hprogress.held]⟩
  have hsame : y.stream i = x.stream i := by rw [Blocks.stream, hgrants.req]; rfl
  rw [hsame]
  exact hprogress.streams i

end Sys2Proof.Rounds


/-! SUPPORT. A held write whose release has ended (R94, R95). -/

namespace Sys2Proof.Rounds

open Sys2Proof.Machine Sys2Proof.Safety Sys2Proof.Laws Sys2Proof.Arrivals Sys2Proof.Expiries

variable {cfg : Image} {b b' x y z : Blocks} {s t : State} {l : Addr} {e : HeldEntry} {c k : CtxId} {i : StreamId} {n : Epoch}
  {reason : Option LossReason} {st : DownStatus}

/-- Whether a held entry is not the ISSUED one of a line. -/
def notIssuedAt (l : Addr) (x : HeldEntry) : Bool := decide (x.line ≠ l) || decide (x.state ≠ .issued)

theorem notIssuedAt_eq (l : Addr) (x : HeldEntry) : notIssuedAt l x = !(decide (x.line = l) && decide (x.state = .issued)) := by
  simp [notIssuedAt]

/-- What the end of a release takes out of the blocks. -/
structure ReleaseGone (l : Addr) (e : HeldEntry) (reason : Option LossReason) (b b' : Blocks) : Prop where
  epochs : b'.epochs = b.epochs
  track : b'.track = b.track
  journal : b'.journal = b.journal
  mem : b'.mem = b.mem
  events : b'.events = b.events
  entries : b'.held.entries = b.held.entries.filter (notIssuedAt l)
  stream : ∀ i, b'.stream i = afterShare reason (shareOf i e.contributors) (b.stream i)

/-- The blocks with the ISSUED entry of a line taken out, and its contributors' writes settled. -/
def releaseOut (e : HeldEntry) (reason : Option LossReason) (b : Blocks) : Blocks :=
  settleContributors reason e.contributors (removeIssued e.line b)

theorem releaseOut_gone (reason : Option LossReason) (e : HeldEntry) (b : Blocks) :
    ReleaseGone e.line e reason b (releaseOut e reason b) ∧ (releaseOut e reason b).held.overlays = b.held.overlays := by
  have hstream (i : StreamId) := settleContributors_stream reason e.contributors (removeIssued e.line b) i
  obtain ⟨q, hq⟩ := settleContributors_frame reason e.contributors (removeIssued e.line b)
  have hentries : (b.held.entries.filter fun x => !(decide (x.line = e.line) && decide (x.state = .issued))) =
      b.held.entries.filter (notIssuedAt e.line) := List.filter_congr fun x _ => (notIssuedAt_eq _ x).symm
  unfold releaseOut
  rw [hq] at hstream ⊢
  exact ⟨⟨rfl, rfl, rfl, rfl, rfl, hentries, hstream⟩, rfl⟩

theorem ReleaseGone.noStall (h : ReleaseGone l e reason b b') (hb : noStall b = true) : noStall b' = true := by
  rw [noStall_iff] at hb ⊢
  intro i cause
  rw [h.stream]
  exact hb i cause

theorem ReleaseGone.standBy (h : ReleaseGone l e reason b b') (hb : StandBy b) : StandBy b' :=
  hb.congr fun i => by rw [h.stream]; rfl

/-- A release has persisted (R94). -/
theorem releasePersisted_gone (hstall : noStall b = true) :
    ReleaseGone e.line e (if e.loss then some .contextFaulted else none) b (releasePersisted e b)
      ∧ (releasePersisted e b).held.overlays = overlaid e.line e.mask e.data b.held.overlays := by
  obtain ⟨hgone, hover⟩ := releaseOut_gone (if e.loss then some .contextFaulted else none) e b
  have hout : releasePersisted e b = copyToOverlays e.line e.mask e.data
      (releaseOut e (if e.loss then some .contextFaulted else none) b) := by
    unfold releasePersisted
    dsimp only
    have hstall' : noStall (copyToOverlays e.line e.mask e.data
        (releaseOut e (if e.loss then some .contextFaulted else none) b)) = true := hgone.noStall hstall
    exact wake_noStall hstall' _
  rw [hout]
  exact ⟨{ hgone with }, congrArg (overlaid e.line e.mask e.data) hover⟩

/-- A release has failed (R95). -/
theorem releaseFailed_eq (hstall : noStall b = true) : releaseFailed cfg e st b =
    match (b.ctx e.ctx).epoch with
    | some n => reportFault cfg e.ctx n .releaseWriteFailed e.line e.stream st (releaseOut e (some .memory) b)
    | none => releaseOut e (some .memory) b := by
  obtain ⟨hgone, _⟩ := releaseOut_gone (some .memory) e b
  have hout : wakeHeldFull (releaseOut e (some .memory) b) = releaseOut e (some .memory) b :=
    wake_noStall (hgone.noStall hstall) _
  unfold releaseFailed
  dsimp only
  rw [show wakeHeldFull (settleContributors (some .memory) e.contributors (removeIssued e.line b)) = _ from hout,
    Blocks.ctx, hgone.epochs]
  rfl

/-! ## The entry -/

theorem issuedAlone_entry (h : b.held.entries.filter (fun x => decide (x.line = l) && decide (x.state = .issued)) = [e]) :
    issuedEntry b l = some e ∧ e.line = l ∧ e.state = .issued := by
  have hfound : issuedEntry b l = some e := by
    unfold issuedEntry
    rw [← List.head?_filter, h]
    rfl
  obtain ⟨hline, hstate⟩ : e.line = l ∧ e.state = .issued := by simpa using List.find?_some hfound
  exact ⟨hfound, hline, hstate⟩

/-- The context of the entry holds one entry less. -/
theorem ReleaseGone.heldCount (h : ReleaseGone l e reason b b')
    (halone : b.held.entries.filter (fun x => decide (x.line = l) && decide (x.state = .issued)) = [e]) (k : CtxId) :
    b.heldCount k = b'.heldCount k + if k = e.ctx then 1 else 0 := by
  have hsplit := List.length_eq_countP_add_countP (notIssuedAt l) (l := b.held.entries.filter fun x => decide (x.ctx = k))
  have hkept : (b.held.entries.filter fun x => decide (x.ctx = k)).countP (notIssuedAt l) = b'.heldCount k := by
    unfold Blocks.heldCount
    rw [h.entries, List.filter_filter, List.countP_filter, List.countP_eq_length_filter]
    simp only [Bool.and_comm]
  have hgone : (b.held.entries.filter fun x => decide (x.ctx = k)).countP (fun x => ¬notIssuedAt l x = true) =
      if k = e.ctx then 1 else 0 := by
    have hboth : (b.held.entries.filter fun x => decide (x.ctx = k)).countP (fun x => ¬notIssuedAt l x = true) =
        (b.held.entries.filter fun x => decide (x.line = l) && decide (x.state = .issued)).countP fun x => decide (x.ctx = k) := by
      rw [List.countP_filter, List.countP_filter]
      refine List.countP_congr fun x _ => ?_
      simp [notIssuedAt, and_comm]
    rw [hboth, halone, List.countP_singleton]
    by_cases hk : k = e.ctx
    · simp [hk]
    · simp [hk, Ne.symm hk]
  rw [← hkept, ← hgone]
  exact hsplit

theorem ctxQuiet_notRollback (hstate : (b.ctx k).state ≠ .rollback) (hdue : drainDue b k = false) : ctxQuiet b k := by
  have hroll (p : RollbackPhase) : rollbackIn b k p = none := by
    unfold rollbackIn
    split
    · rw [if_neg fun h => hstate h.1]
    · rfl
  refine ⟨hdue, ?_, ?_, ?_⟩
  · simp [quiesceDue, hroll]
  · simp [nextRestore, hroll]
  · simp [retireDue, hroll]

theorem ReleaseGone.quiet (h : ReleaseGone l e reason b b')
    (halone : b.held.entries.filter (fun x => decide (x.line = l) && decide (x.state = .issued)) = [e])
    (hk : k ≠ e.ctx) (hb : ctxQuiet b k) : ctxQuiet b' k := by
  have hcount := h.heldCount halone k
  rw [if_neg hk, Nat.add_zero] at hcount
  exact ctxQuiet_same hb (by rw [Blocks.ctx, h.epochs]; rfl) hcount.symm h.track (by rw [h.mem]) (by rw [h.journal])

/-- The drain of the context is over when the entry was its last held write and nothing is CAPTURING. -/
theorem ReleaseGone.drainDue_eq (h : ReleaseGone l e reason b b')
    (halone : b.held.entries.filter (fun x => decide (x.line = l) && decide (x.state = .issued)) = [e]) :
    drainDue b' e.ctx = (decide ((b.ctx e.ctx).state = .draining) && decide (b.heldCount e.ctx = 1) && !b.capturing e.ctx) := by
  have hcount := h.heldCount halone e.ctx
  have hctx : b'.ctx e.ctx = b.ctx e.ctx := by rw [Blocks.ctx, h.epochs]; rfl
  have hcapturing : b'.capturing e.ctx = b.capturing e.ctx := by
    unfold Blocks.capturing
    rw [h.track]
  rw [if_pos rfl] at hcount
  unfold Machine.drainDue
  rw [hctx, hcapturing, hcount]
  simp

end Sys2Proof.Rounds


/-! SUPPORT. A fault that is reported for a context that is OPEN or DRAINING (R33 to R36). -/

namespace Sys2Proof.Rounds

open Sys2Proof.Machine Sys2Proof.Safety Sys2Proof.Laws Sys2Proof.Arrivals Sys2Proof.Expiries

variable {cfg : Image} {b b' x y z : Blocks} {s t : State} {l : Addr} {c k : CtxId} {i : StreamId} {n : Epoch}
  {st : DownStatus} {kind : FaultKind} {f : FaultRecord} {r : StreamRec}

/-! ## Entry to FAULTED -/

/-- A stream record when the commit waiters of a context have been told (R30). -/
def told (st : UpStatus) (c : CtxId) (b : Blocks) (i : StreamId) : StreamRec :=
  if i ∈ (b.ctx c).waiters then (b.stream i).answered st none else b.stream i

/-- A context that is not in ROLLBACK enters FAULTED (R34, R35). -/
theorem enterFaulted_live (hstate : (b.ctx c).state ≠ .rollback) : ∃ q e v, enterFaulted cfg c f b =
      { b with req := q, epochs := e, events := v } ∧ v.isPending (.contextFault c) = true := by
  obtain ⟨q, e, h⟩ := answerWaiters_frame c .contextFaulted b
  obtain ⟨q', hq'⟩ := wake_frame (fun i _ cause => cause.ofContext && decide (cfg.bindings[i] = some c))
    (raise (.contextFault c) ((answerWaiters c .contextFaulted b).modCtx c fun x =>
      { x with state := .faulted, idleTimer := none, fault := some f }))
  unfold enterFaulted wakeContext
  dsimp only
  rw [if_neg hstate, hq', h]
  exact ⟨_, _, _, rfl, raise_pending _ _⟩

theorem faultedCtx_live {v : Context} (h : v.state ≠ .rollback) : faultedCtx f v =
    { v with state := .faulted, idleTimer := none, waiters := [], mgmtWaiter := false, fault := some f } := by
  unfold faultedCtx
  rw [if_neg h, if_neg h]

/-- What the report of a fault leaves (R33 to R36). -/
structure FaultTaken (c : CtxId) (f : FaultRecord) (b z : Blocks) : Prop where
  frame : ∃ q e m v, z = { b with
    req := q, epochs := e, mem := m, events := v
    held := { b.held with entries := b.held.entries.filter fun h => !h.unissuedOf c } } ∧ m.slots = b.mem.slots
  ctx : ∀ k, z.ctx k = if k = c then faultedCtx f (b.ctx c) else b.ctx k
  raised : z.events.isPending (.contextFault c) = true
  stream : ∀ i, (b.stream i).queue.length ≤ 1 ∨ i ∉ (b.ctx c).waiters → (∀ cause, (b.stream i).phase ≠ .stalled cause) →
    z.stream i = afterDiscard i (b.held.entries.filter fun h => h.unissuedOf c) (told .contextFaulted c b i)

theorem reportFault_taken (hstate : (b.ctx c).state = .opened ∨ (b.ctx c).state = .draining)
    (he : (b.ctx c).epoch = some n) :
    FaultTaken c ⟨kind, n, some l, some i, some st⟩ b (reportFault cfg c n kind l i st b) := by
  have hlive : (b.ctx c).state ≠ .rollback := by
    rcases hstate with h | h
    · rw [h]
      exact CtxState.noConfusion
    · rw [h]
      exact CtxState.noConfusion
  have hreport : reportFault cfg c n kind l i st b = discardHeld (fun h => h.unissuedOf c) (some .contextFaulted)
      (enterFaulted cfg c ⟨kind, n, some l, some i, some st⟩ b) := if_pos ⟨he, hstate⟩
  generalize hf : (⟨kind, n, some l, some i, some st⟩ : FaultRecord) = f at *
  have hctx (k : CtxId) := enterFaulted_ctx cfg k c f b
  obtain ⟨_, _, _, _, _, hframe', hwoken, haside, _⟩ := enterFaulted_frame cfg c f b
  have htoldStalled (i : StreamId) (hq : (b.stream i).queue.length ≤ 1 ∨ i ∉ (b.ctx c).waiters)
      (hs : ∀ cause, (b.stream i).phase ≠ .stalled cause) (cause : StallCause) :
      (told .contextFaulted c b i).phase ≠ .stalled cause := by
    unfold told
    split
    · rename_i hi
      exact answered_notStalled (hq.resolve_right (not_not.2 hi)) hs cause
    · exact hs cause
  have hstream (i : StreamId) (hq : (b.stream i).queue.length ≤ 1 ∨ i ∉ (b.ctx c).waiters)
      (hs : ∀ cause, (b.stream i).phase ≠ .stalled cause) :
      (enterFaulted cfg c f b).stream i = told .contextFaulted c b i := by
    have hwok : Woken (told .contextFaulted c b i) ((enterFaulted cfg c f b).stream i) := by
      rw [hframe']
      rcases hq with hq | hq
      · exact hwoken i hq
      · rw [told, if_neg hq]
        exact haside i hq
    exact hwok.eq fun cause => htoldStalled i hq hs cause
  obtain ⟨q, e, v, hframe, hraised⟩ := enterFaulted_live (cfg := cfg) (f := f) hlive
  rw [hreport]
  have hheld : (enterFaulted cfg c f b).held = b.held := by rw [hframe]
  have hmem : (enterFaulted cfg c f b).mem = b.mem := by rw [hframe]
  have hpending : (enterFaulted cfg c f b).events.isPending (.contextFault c) = true := by rw [hframe]; exact hraised
  have hdiscard (i : StreamId) := discardHeld_stream (p := fun h => h.unissuedOf c) (reason := some .contextFaulted)
    (b := enterFaulted cfg c f b) (i := i)
  obtain ⟨q', m, hz, hslots, _⟩ := discardHeld_frame (fun h => h.unissuedOf c) (some .contextFaulted) (enterFaulted cfg c f b)
  refine ⟨⟨q', e, m, v, ?_, by rw [hslots, hmem]⟩, fun k => ?_, ?_, fun i hq hs => ?_⟩
  · rw [hz, hheld, hframe]
  · rw [hz]
    refine (hctx k).trans ?_
    split
    · rename_i hk
      rw [hk]
    · rfl
  · rw [hz]
    exact hpending
  · have htold := hstream i hq hs
    rw [hdiscard i, hheld, htold]
    · rfl
    · rw [htold]
      exact htoldStalled i hq hs _

/-! ## Streams that wait for the context or for nothing -/

/-- A stream is idle, or waits for the commit of a context (R30). -/
def attends (b : Blocks) (c : CtxId) (i : StreamId) : Prop := idleStream (b.stream i) = true
  ∨ i ∈ (b.ctx c).waiters ∧ (b.stream i).phase = .commitWaiter ∧ ∃ tag, (b.stream i).queue = [⟨tag, .commit⟩]

theorem attends.queue (h : attends b c i) : (b.stream i).queue.length ≤ 1 := by
  rcases h with h | ⟨_, _, tag, h⟩
  · rw [((idleStream_iff _).1 h).1]
    exact Nat.zero_le _
  · rw [h]
    exact le_rfl

theorem attends.phase (h : attends b c i) : (b.stream i).phase = .idle ∨ (b.stream i).phase = .commitWaiter :=
  h.imp phase_of_idleStream fun ⟨_, h, _⟩ => h

theorem attends.notStalled (h : attends b c i) (cause : StallCause) : (b.stream i).phase ≠ .stalled cause := by
  rcases h.phase with h | h
  · rw [h]
    exact Phase.noConfusion
  · rw [h]
    exact Phase.noConfusion

theorem standBy_attends (h : ∀ i, attends b c i) : StandBy b := fun i => (h i).phase.imp id .inl

/-- A stream that attends to a context is idle when its waiters have been told. -/
theorem told_idle {st : UpStatus} (h : attends b c i) : idleStream (told st c b i) = true := by
  unfold told
  rcases h with h | ⟨hi, _, tag, hq⟩
  · rw [answered_empty ((idleStream_iff _).1 h).1, ite_self]
    exact h
  · rw [if_pos hi, idleStream_iff]
    unfold StreamRec.answered
    rw [hq]
    exact ⟨rfl, rfl, rfl, rfl⟩

theorem told_idle_eq {st : UpStatus} (h : idleStream (b.stream i) = true) : told st c b i = b.stream i := by
  unfold told
  rw [answered_empty ((idleStream_iff _).1 h).1, ite_self]

theorem told_waiter {st : UpStatus} {tag : Tag} (hi : i ∈ (b.ctx c).waiters) (hq : (b.stream i).queue = [⟨tag, .commit⟩]) :
    (told st c b i).sent = (b.stream i).sent ++ [.done tag st] := by
  unfold told
  rw [if_pos hi]
  unfold StreamRec.answered
  rw [hq]
  rfl

/-! ## The event -/

theorem heldCount_discarded (hk : k ≠ c) (h : b'.held.entries = b.held.entries.filter fun h => !h.unissuedOf c) :
    b'.heldCount k = b.heldCount k := by
  unfold Blocks.heldCount
  rw [h, List.filter_filter]
  refine congrArg List.length (List.filter_congr fun x _ => ?_)
  by_cases hx : x.ctx = k
  · simp [hx, HeldEntry.unissuedOf, hk]
  · simp [hx]

/-- The rest of the event of a fault that is taken, when the other contexts have nothing due. -/
theorem FaultTaken.event (h : FaultTaken c f b z) (hs : ∀ i, attends b c i) (hquiet : ∀ k, k ≠ c → ctxQuiet b k)
    (hn : b.journal.notice = false) : ∃ y, Served z y ∧ Grown y (finishEvent cfg z) := by
  obtain ⟨q, e, m, v, hframe, hslots⟩ := h.frame
  have hidle (i : StreamId) : idleStream (z.stream i) = true := by
    rw [h.stream i (.inl (hs i).queue) fun cause => (hs i).notStalled cause]
    exact idleStream_afterDiscard (told_idle (hs i)) _
  have hstand := standBy_idle hidle
  refine finishEvent_served (fun k => ?_) hstand.notDue hstand.noFresh (by rw [hframe]; exact hn)
  have hctx := h.ctx k
  by_cases hk : k = c
  · rw [if_pos hk] at hctx
    exact ctxQuiet_of_state (by rw [hctx]; exact CtxState.noConfusion) (by rw [hctx]; exact CtxState.noConfusion)
  · rw [if_neg hk] at hctx
    have hcount : z.heldCount k = b.heldCount k := heldCount_discarded hk (by rw [hframe])
    exact ctxQuiet_same (hquiet k hk) hctx hcount (by rw [hframe]) (by
      rw [hframe]
      exact restoreOutstanding_congr hslots k) (by rw [hframe])


/-- A fault that is taken, with nobody waiting for a commit: no stream goes on. -/
theorem FaultTaken.lull (h : FaultTaken c f b z) (hstand : StandBy b) (hw : (b.ctx c).waiters = []) :
    StandBy z := by
  refine hstand.congr fun i => ?_
  rw [h.stream i (.inr (by rw [hw]; exact List.not_mem_nil)) fun cause => (noStall_iff b).1 hstand.noStall i cause]
  have htold : told .contextFaulted c b i = b.stream i := if_neg (by rw [hw]; exact List.not_mem_nil)
  rw [htold]
  rfl

end Sys2Proof.Rounds


/-! SUPPORT. Releases that end (R94, R95). -/

namespace Sys2Proof.Rounds

open Sys2Proof.Machine Sys2Proof.Safety Sys2Proof.Laws Sys2Proof.Arrivals Sys2Proof.Expiries

variable {cfg : Image} {b x y z : Blocks} {s t : State} {l : Addr} {e : HeldEntry} {c k : CtxId} {i : StreamId} {n : Epoch}
  {reason : Option LossReason} {st : DownStatus} {id : OpId} {o : Outstanding}

/-! ## The rest of the event -/

/-- A release has persisted, with no stream's request to go on and no rollback of its context. -/
theorem ReleaseGone.leads (h : ReleaseGone l e reason b x)
    (halone : b.held.entries.filter (fun x => decide (x.line = l) && decide (x.state = .issued)) = [e])
    (hstand : StandBy b) (hn : b.journal.notice = false) (hheld : Held cfg b) (hstate : (b.ctx e.ctx).state ≠ .rollback) :
    ∃ y j m, y = { (if drainDue x e.ctx then marking e.ctx x else x) with journal := j, mem := m }
      ∧ Grown y (finishEvent cfg x)
      ∧ (drainDue x e.ctx = true → b.journal.state = .ready → ∀ (n : Epoch) (t : State), (b.ctx e.ctx).epoch = some n →
        Grown y t.blocks → markerAsked cfg x .commit e.ctx n t) := by
  have hstandx := h.standBy hstand
  have hnx : x.journal.notice = false := by rw [h.journal]; exact hn
  have hctx : x.ctx e.ctx = b.ctx e.ctx := by rw [Blocks.ctx, h.epochs]; rfl
  have hother (k : CtxId) (hk : k ≠ e.ctx) := h.quiet halone hk (hheld.context k)
  cases hdue : drainDue x e.ctx with
  | true =>
    obtain ⟨y, j, m, hy, hyframe, hnotice, hasked⟩ := marking_leads hstandx hnx hother
      (serveOne_none_congr h.journal hheld.buffer) hdue
    have hstandy : StandBy y := by
      rw [hyframe]
      exact hstandx.congr fun _ => rfl
    refine ⟨y, j, m, hyframe, finishEvent_grown hy hstandy.notDue hstandy.noFresh (by rw [hyframe]; exact hnotice),
      fun _ hready n t he => hasked n t (by rw [h.journal]; exact hready) (by rw [hctx]; exact he)⟩
  | false =>
    have hquiet (k : CtxId) : ctxQuiet x k := by
      by_cases hk : k = e.ctx
      · rw [hk]
        exact ctxQuiet_notRollback (by rw [hctx]; exact hstate) hdue
      · exact hother k hk
    obtain ⟨y, hserved, hgrown⟩ := finishEvent_served (cfg := cfg) hquiet hstandx.notDue hstandx.noFresh hnx
    obtain ⟨j, m, hframe⟩ := hserved.frame
    exact ⟨y, j, m, hframe, hgrown, fun h => by cases h⟩

/-- The end of a release is an event of its own. -/
theorem release_event {cmd : Instr} {k : Completion} {w : OpEnd} (hrest : atRest s = true)
    (hm : s.blocks.mem.matching id = some o) (hc : completionOf cmd = some (id, k)) (how : o.owner = .release l)
    (hend : endOf o.op k = w) : ∃ t, exec cmd s = .next t ∧ t.mgmt = s.mgmt
      ∧ t.blocks = finishEvent s.mgmt.active (releaseEnd s.mgmt.active l w (freeSlot id.slot s.blocks)) := by
  obtain ⟨hup, _⟩ := (atRest_iff s).1 hrest
  have hends := exec_completion hup hm hc hend
  unfold handBack at hends
  rw [how] at hends
  dsimp only at hends
  generalize finishEvent s.mgmt.active (releaseEnd s.mgmt.active l w (freeSlot id.slot s.blocks)) = x at hends ⊢
  exact ⟨_, hends, rfl, rfl⟩

/-- The blocks when a release has failed (R95). -/
theorem releaseFailed_taken (hstall : noStall b = true) (he : (b.ctx e.ctx).epoch = some n)
    (hstate : (b.ctx e.ctx).state = .opened ∨ (b.ctx e.ctx).state = .draining) :
    FaultTaken e.ctx ⟨.releaseWriteFailed, n, some e.line, some e.stream, some st⟩ (releaseOut e (some .memory) b)
      (releaseFailed cfg e st b) := by
  obtain ⟨hgone, _⟩ := releaseOut_gone (some .memory) e b
  have hctx : (releaseOut e (some .memory) b).ctx e.ctx = b.ctx e.ctx := by rw [Blocks.ctx, hgone.epochs]; rfl
  rw [releaseFailed_eq hstall, he]
  exact reportFault_taken (by rw [hctx]; exact hstate) (by rw [hctx]; exact he)

/-! ## While READs are served -/

/-- A release that fails changes no overlay record, and no stream's request goes on when nobody waits for a commit. -/
theorem releaseFailed_lull (hstand : StandBy b) (hw : (b.ctx e.ctx).waiters = []) :
    StandBy (releaseFailed cfg e st b) ∧ (releaseFailed cfg e st b).held.overlays = b.held.overlays
      ∧ (releaseFailed cfg e st b).journal.notice = b.journal.notice := by
  obtain ⟨hgone, hover⟩ := releaseOut_gone (some .memory) e b
  have hctx : (releaseOut e (some .memory) b).ctx e.ctx = b.ctx e.ctx := by rw [Blocks.ctx, hgone.epochs]; rfl
  have hout : StandBy (releaseOut e (some .memory) b) := hgone.standBy hstand
  have hnotice : (releaseOut e (some .memory) b).journal.notice = b.journal.notice := by rw [hgone.journal]
  rw [releaseFailed_eq hstand.noStall]
  cases he : (b.ctx e.ctx).epoch with
  | none => exact ⟨hout, hover, hnotice⟩
  | some n =>
    dsimp only
    by_cases hstate : (b.ctx e.ctx).state = .opened ∨ (b.ctx e.ctx).state = .draining
    · have htaken := reportFault_taken (cfg := cfg) (kind := .releaseWriteFailed) (l := e.line) (i := e.stream) (st := st)
        (b := releaseOut e (some .memory) b) (c := e.ctx) (by rw [hctx]; exact hstate) (by rw [hctx]; exact he)
      refine ⟨htaken.lull hout (by rw [hctx]; exact hw), ?_, ?_⟩
      · obtain ⟨q, ep, m, v, hframe, _⟩ := htaken.frame
        rw [hframe]
        exact hover
      · obtain ⟨q, ep, m, v, hframe, _⟩ := htaken.frame
        rw [hframe]
        exact hnotice
    · have hnot : reportFault cfg e.ctx n .releaseWriteFailed e.line e.stream st (releaseOut e (some .memory) b) =
          releaseOut e (some .memory) b := by
        unfold reportFault
        dsimp only
        rw [hctx]
        exact if_neg fun h => hstate h.2
      rw [hnot]
      exact ⟨hout, hover, hnotice⟩

end Sys2Proof.Rounds


/-! SUPPORT. Releases that end: what each event leaves (R94, R95). -/

namespace Sys2Proof.Rounds

open Sys2Proof.Machine Sys2Proof.Safety Sys2Proof.Laws Sys2Proof.Arrivals Sys2Proof.Expiries

variable {cfg : Image} {b x y z : Blocks} {s t : State} {l : Addr} {e : HeldEntry} {c k : CtxId} {i : StreamId} {n : Epoch}
  {reason : Option LossReason} {st : DownStatus} {id : OpId} {o : Outstanding} {tag : StreamId → Tag}

theorem standBy_onlyReads (h : onlyReads s) : StandBy s.blocks := by
  obtain ⟨_, _, hphase⟩ := h
  exact fun i => (hphase i).imp phase_of_idleStream .inr

theorem attends_commitsWait (h : commitsWait s c tag) (i : StreamId) : attends s.blocks c i := by
  obtain ⟨_, hw, hidle⟩ := h
  by_cases hi : i ∈ (s.blocks.ctx c).waiters
  · exact .inr ⟨hi, (hw i hi).1, _, (hw i hi).2⟩
  · exact .inl (hidle i hi)

/-- A release that fails while nobody but the waiters of its context holds a request (R95). -/
theorem releaseFailed_leaves (hs : ∀ i, attends b e.ctx i) (hn : b.journal.notice = false) (hheld : Held cfg b)
    (halone : b.held.entries.filter (fun x => decide (x.line = e.line) && decide (x.state = .issued)) = [e])
    (he : (b.ctx e.ctx).epoch = some n) (hstate : (b.ctx e.ctx).state = .opened ∨ (b.ctx e.ctx).state = .draining)
    (ht : t.blocks = finishEvent cfg (releaseFailed cfg e st b)) :
    t.blocks.ctx e.ctx = faultedCtx ⟨.releaseWriteFailed, n, some e.line, some e.stream, some st⟩ (b.ctx e.ctx)
      ∧ t.blocks.events.isPending (.contextFault e.ctx) = true
      ∧ (∀ i, t.blocks.stream i = afterDiscard i
        ((b.held.entries.filter (notIssuedAt e.line)).filter fun h => h.unissuedOf e.ctx)
        (told .contextFaulted e.ctx (releaseOut e (some .memory) b) i))
      ∧ t.blocks.held.entries.map asIssued =
        ((b.held.entries.filter (notIssuedAt e.line)).filter fun h => !h.unissuedOf e.ctx).map asIssued
      ∧ ∀ h ∈ t.blocks.held.entries, h.ctx = e.ctx → h.state = .issued := by
  obtain ⟨hgone, _⟩ := releaseOut_gone (some .memory) e b
  have hctx : (releaseOut e (some .memory) b).ctx e.ctx = b.ctx e.ctx := by rw [Blocks.ctx, hgone.epochs]; rfl
  have htaken := releaseFailed_taken (cfg := cfg) (st := st) (standBy_attends hs).noStall he hstate
  have hattends (i : StreamId) : attends (releaseOut e (some .memory) b) e.ctx i := by
    have h := hs i
    unfold attends at h ⊢
    rw [hgone.stream, hctx]
    exact h
  have hnotice : (releaseOut e (some .memory) b).journal.notice = false := by rw [hgone.journal]; exact hn
  have hquiet (k : CtxId) (hk : k ≠ e.ctx) := hgone.quiet halone hk (hheld.context k)
  have hentries := hgone.entries
  rw [← hctx]
  generalize releaseOut e (some .memory) b = x at *
  obtain ⟨y, hserved, hgrown⟩ := htaken.event (cfg := cfg) hattends hquiet hnotice
  rw [← ht] at hgrown
  obtain ⟨q, ep, m, v, hframe, _⟩ := htaken.frame
  have hheldz : y.held.entries = (b.held.entries.filter (notIssuedAt e.line)).filter fun h => !h.unissuedOf e.ctx := by
    rw [hserved.held, hframe, ← hentries]
  refine ⟨?_, ?_, fun i => ?_, ?_, fun h hh hc => ?_⟩
  · rw [hgrown.ctx, hserved.ctx, htaken.ctx, if_pos rfl]
  · rw [hgrown.grants.events, hserved.events]
    exact htaken.raised
  · rw [hgrown.stream, hserved.stream,
      htaken.stream i (.inl (hattends i).queue) fun cause => (hattends i).notStalled cause, hentries]
  · rw [hgrown.grants.entries, hheldz]
  · obtain ⟨h', hh', hsame, hstate'⟩ := hgrown.issued h hh
    rw [hheldz] at hh'
    obtain ⟨_, hkept⟩ := List.mem_filter.1 hh'
    have hc' : h'.ctx = e.ctx := (asIssued_ctx hsame).trans hc
    have hissued : h'.state = .issued := by simpa [HeldEntry.unissuedOf, hc'] using hkept
    rcases hstate' with hstate' | hstate'
    · rw [hstate', hissued]
    · exact hstate'

/-- What the freed operation and the entry that has gone leave of the burst triggers. -/
theorem markerAsked_freed {kind : RecordKind} (hj : x.journal = b.journal) (hmem : ∀ o ∈ x.mem.ops, o ∈ b.mem.ops)
    (h : markerAsked cfg x kind c n t) : markerAsked cfg b kind c n t := by
  have hidle (hb : burstBusy b = false) : burstBusy x = false := by
    unfold burstBusy at hb ⊢
    rw [hj]
    rw [Bool.or_eq_false_iff] at hb ⊢
    exact ⟨hb.1, List.any_eq_false.2 fun o ho => List.any_eq_false.1 hb.2 o (hmem o ho)⟩
  refine markerAsked_congr (by rw [hj]) (by rw [hj]) (by rw [hj]) (by rw [hj]) (by rw [hj]) (by rw [hj])
    (fun hb hdue => ⟨by rw [hj], hidle hb, ?_⟩) h
  unfold burstDue at hdue ⊢
  rw [hj, hidle hb]
  rw [hb] at hdue
  exact hdue

theorem ops_freeSlot (k : SlotNo) (b : Blocks) : ∀ o ∈ (freeSlot k b).mem.ops, o ∈ b.mem.ops := by
  intro o ho
  obtain ⟨j, hj⟩ := mem_ops.1 ho
  rw [RestoreReads.freeSlot_slot] at hj
  split at hj
  · cases hj
  · exact mem_ops.2 ⟨j, hj⟩

/-! ## The lists of the statement -/

theorem discarded_eq (h : List HeldEntry) (l : Addr) (c : CtxId) :
    (h.filter (notIssuedAt l)).filter (fun x => x.unissuedOf c) = h.filter fun x => decide (x.ctx = c) && decide (x.state ≠ .issued) := by
  rw [List.filter_filter]
  refine List.filter_congr fun x _ => ?_
  by_cases hx : x.state = .issued
  · simp [HeldEntry.unissuedOf, hx]
  · simp [HeldEntry.unissuedOf, notIssuedAt, hx]

theorem keptEntries_eq (h : List HeldEntry) (l : Addr) (c : CtxId) :
    (h.filter (notIssuedAt l)).filter (fun x => !x.unissuedOf c) =
      h.filter fun x => if x.state = .issued then decide (x.line ≠ l) else decide (x.ctx ≠ c) := by
  rw [List.filter_filter]
  refine List.filter_congr fun x _ => ?_
  by_cases hx : x.state = .issued
  · simp [HeldEntry.unissuedOf, notIssuedAt, hx]
  · simp [HeldEntry.unissuedOf, notIssuedAt, hx]

theorem afterShare_entry (i : StreamId) (e : HeldEntry) (r : StreamRec) :
    afterShare (some .memory) (shareOf i e.contributors) r = afterLoss .memory i [e] r := by
  rw [afterLoss_eq, List.flatMap_cons, List.flatMap_nil, List.append_nil]

/-- A write that is lost by MEMORY leaves its reason, whatever else is discarded (R97, R143). -/
theorem loss_kept {n : Nat} {r : StreamRec} (h : (i, n) ∈ e.contributors) (es : List HeldEntry) :
    (afterDiscard i es (afterLoss .memory i [e] r)).loss = r.loss.or (some .memory) := by
  have hmine : writesOf i [e] ≠ [] := by
    refine List.ne_nil_of_mem (a := (i, n)) (List.mem_filter.2 ⟨?_, decide_eq_true rfl⟩)
    simpa using h
  have hfirst : (afterLoss .memory i [e] r).loss = r.loss.or (some .memory) := if_neg hmine
  have hafter : (afterDiscard i es (afterLoss .memory i [e] r)).loss =
      if writesOf i es = [] then (afterLoss .memory i [e] r).loss
      else (afterLoss .memory i [e] r).loss.or (some .contextFaulted) := rfl
  rw [hafter, hfirst, ite_eq_left_iff]
  intro _
  cases r.loss with
  | none => rfl
  | some reason => rfl

end Sys2Proof.Rounds


/-! SUPPORT. O48: releases that end (R94, R95). -/

namespace Sys2Proof.Rounds

open Sys2Proof.Machine Sys2Proof.Safety Sys2Proof.Laws Sys2Proof.Arrivals Sys2Proof.Expiries

variable {cfg : Image} {b x y z : Blocks} {s t : State} {l : Addr} {e : HeldEntry} {c k : CtxId} {i : StreamId} {n : Epoch}
  {reason : Option LossReason} {st : DownStatus} {id : OpId} {o : Outstanding} {tag : StreamId → Tag}

/-- What the event of a release that persists leaves (R94). -/
theorem releasePersisted_leaves (hidle : ∀ i, idleStream (b.stream i) = true) (hn : b.journal.notice = false)
    (hheld : Held cfg b)
    (halone : b.held.entries.filter (fun x => decide (x.line = e.line) && decide (x.state = .issued)) = [e])
    (hstate : (b.ctx e.ctx).state ≠ .rollback) (ht : t.blocks = finishEvent cfg (releasePersisted e b)) :
    let drained := decide ((b.ctx e.ctx).state = .draining) && decide (b.heldCount e.ctx = 1) && !b.capturing e.ctx
    t.blocks.held.entries.map asIssued = (b.held.entries.filter (notIssuedAt e.line)).map asIssued
      ∧ (∀ i, t.blocks.stream i =
        afterShare (if e.loss then some .contextFaulted else none) (shareOf i e.contributors) (b.stream i))
      ∧ t.blocks.held.overlays = overlaid e.line e.mask e.data b.held.overlays
      ∧ (∀ k, t.blocks.ctx k = if drained = true ∧ k = e.ctx then { b.ctx e.ctx with state := .marking } else b.ctx k)
      ∧ t.blocks.epochs.counter = b.epochs.counter ∧ t.blocks.track = b.track
      ∧ (drained = true → b.journal.state = .ready → ∀ n, (b.ctx e.ctx).epoch = some n →
        markerAsked cfg b .commit e.ctx n t) := by
  have hstand := standBy_idle hidle
  obtain ⟨hgone, hover⟩ := releasePersisted_gone (e := e) hstand.noStall
  have hdue := hgone.drainDue_eq halone
  dsimp only
  rw [← hdue]
  generalize releasePersisted e b = x at *
  obtain ⟨y, j, m, hy, hgrown, hasked⟩ := hgone.leads halone hstand hn hheld hstate
  rw [← ht] at hgrown
  have hctx (k : CtxId) : x.ctx k = b.ctx k := by rw [Blocks.ctx, hgone.epochs]; rfl
  have hmarked : (if drainDue x e.ctx then marking e.ctx x else x) = { x with
      epochs := (if drainDue x e.ctx then marking e.ctx x else x).epochs } := by
    split
    · rfl
    · rfl
  have hctxs (k : CtxId) : (if drainDue x e.ctx then marking e.ctx x else x).ctx k =
      if drainDue x e.ctx = true ∧ k = e.ctx then { b.ctx e.ctx with state := .marking } else b.ctx k := by
    cases drainDue x e.ctx with
    | true => simp [marking_ctx, hctx]
    | false => simp [hctx]
  have hcounter : (if drainDue x e.ctx then marking e.ctx x else x).epochs.counter = b.epochs.counter := by
    rw [← hgone.epochs]
    split
    · rfl
    · rfl
  generalize (if drainDue x e.ctx then marking e.ctx x else x) = z at *
  refine ⟨?_, fun i => ?_, ?_, fun k => ?_, ?_, ?_, fun hdrain hready n he => ?_⟩
  · rw [hgrown.grants.entries, hy, hmarked, ← hgone.entries]
  · rw [hgrown.stream, hy, hmarked, ← hgone.stream]
    rfl
  · rw [hgrown.grants.overlays, hy, hmarked]
    exact hover
  · rw [hgrown.ctx, hy]
    exact hctxs k
  · rw [hgrown.grants.epochs, hy]
    exact hcounter
  · rw [hgrown.grants.track, hy, hmarked]
    exact hgone.track
  · exact markerAsked_freed hgone.journal (by rw [hgone.mem]; exact fun o ho => ho) (hasked hdrain hready n t he hgrown)

/-! ## While READs are served -/

theorem releasePersisted_reads (hstand : StandBy b) (hn : b.journal.notice = false)
    (ht : t.blocks = finishEvent cfg (releasePersisted e b)) :
    t.blocks.held.overlays = overlaid e.line e.mask e.data b.held.overlays
      ∧ ∀ i, (t.blocks.stream i).phase = (b.stream i).phase := by
  obtain ⟨hgone, hover⟩ := releasePersisted_gone (e := e) hstand.noStall
  generalize releasePersisted e b = x at *
  obtain ⟨hstreams, hsame⟩ := finishEvent_lull (cfg := cfg) (hgone.standBy hstand) (by rw [hgone.journal]; exact hn)
  rw [← ht] at hstreams hsame
  refine ⟨hsame.trans hover, fun i => ?_⟩
  obtain ⟨u, hu⟩ := hstreams i
  rw [hu, hgone.stream]
  rfl

theorem releaseFailed_reads (hstand : StandBy b) (hn : b.journal.notice = false) (hw : (b.ctx e.ctx).waiters = [])
    (ht : t.blocks = finishEvent cfg (releaseFailed cfg e st b)) : t.blocks.held.overlays = b.held.overlays := by
  obtain ⟨hstand', hover, hnotice⟩ := releaseFailed_lull (cfg := cfg) (e := e) (st := st) hstand hw
  generalize releaseFailed cfg e st b = x at *
  obtain ⟨_, hsame⟩ := finishEvent_lull (cfg := cfg) hstand' (hnotice.trans hn)
  rw [← ht] at hsame
  exact hsame.trans hover

/-! ## The end of a release -/

theorem release_ends (hrest : atRest s = true) (hm : s.blocks.mem.matching id = some o) (hop : o.op.writeLine = some l)
    (how : o.owner = .release l) (halone : issuedAlone s l e) :
    e.line = l ∧ Held s.mgmt.active (freeSlot id.slot s.blocks)
      ∧ (∃ t, exec (.releaseWriteDone id .persisted) s = .next t ∧ t.mgmt = s.mgmt ∧ t.blocks =
        finishEvent s.mgmt.active (releasePersisted e (freeSlot id.slot s.blocks)))
      ∧ ∃ t, exec (.releaseWriteDone id .error) s = .next t ∧ t.mgmt = s.mgmt ∧ t.blocks =
        finishEvent s.mgmt.active (releaseFailed s.mgmt.active e .error (freeSlot id.slot s.blocks)) := by
  obtain ⟨hfound, hline, _⟩ := issuedAlone_entry (b := freeSlot id.slot s.blocks) halone
  obtain ⟨hpersisted, herror⟩ := endOf_write hop
  have hend := release_event (cmd := .releaseWriteDone id .persisted) hrest hm rfl how hpersisted
  have hend' := release_event (cmd := .releaseWriteDone id .error) hrest hm rfl how herror
  unfold releaseEnd at hend hend'
  rw [hfound] at hend hend'
  exact ⟨hline, held_of_still (still_freed hrest hm (by simp [how, Owner.restoreOf]) s.blocks.clock), hend, hend'⟩

/-- Settles O48. -/
theorem releaseWriteEndsItsEntry : Obligations.ReleaseWriteEndsItsEntry := by
  refine ⟨fun l e id o s hreads hm hop how halone => ?_, fun l e n tag id o s hwait hm hop how halone hstate he => ?_,
    fun l e id o s halone' hm hop how halone hnodup => ?_⟩
  · have hstand := standBy_onlyReads hreads
    obtain ⟨hrest, hw, _⟩ := hreads
    obtain ⟨_, hn, _⟩ := (atRest_iff s).1 hrest
    obtain ⟨rfl, _, ⟨t, hx, _, ht⟩, u, hx', _, hu⟩ := release_ends hrest hm hop how halone
    exact ⟨⟨t, hx, releasePersisted_reads (b := freeSlot id.slot s.blocks) hstand hn ht⟩, u, hx',
      releaseFailed_reads (b := freeSlot id.slot s.blocks) hstand hn (hw e.ctx) hu⟩
  · have hattends := attends_commitsWait hwait
    obtain ⟨hrest, hw, _⟩ := hwait
    obtain ⟨_, hn, _⟩ := (atRest_iff s).1 hrest
    obtain ⟨rfl, hheld, _, t, hx, _, ht⟩ := release_ends hrest hm hop how halone
    obtain ⟨hctx, _, hstream, _⟩ := releaseFailed_leaves (b := freeSlot id.slot s.blocks) hattends hn hheld halone he
      (.inr hstate) ht
    refine ⟨t, hx, by rw [hctx]; rfl, by rw [hctx]; rfl, fun i hi => ?_⟩
    obtain ⟨_, hq⟩ := hw i hi
    obtain ⟨hgone, _⟩ := releaseOut_gone (some .memory) e (freeSlot id.slot s.blocks)
    have hs := hgone.stream i
    have hwaits : (releaseOut e (some .memory) (freeSlot id.slot s.blocks)).ctx e.ctx = s.blocks.ctx e.ctx := by
      rw [Blocks.ctx, hgone.epochs]
      rfl
    generalize releaseOut e (some .memory) (freeSlot id.slot s.blocks) = x at *
    have hq' : (x.stream i).queue = [⟨tag i, .commit⟩] := by rw [hs]; exact hq
    have htold := told_waiter (st := .contextFaulted) (c := e.ctx) (b := x) (by rw [hwaits]; exact hi) hq'
    have hattend : attends x e.ctx i := .inr ⟨by rw [hwaits]; exact hi, by rw [hs]; exact (hw i hi).1, _, hq'⟩
    refine ⟨?_, ?_⟩
    · rw [hstream]
      exact idleStream_afterDiscard (told_idle hattend) _
    · rw [hstream]
      refine htold.trans ?_
      rw [hs]
      rfl
  · obtain ⟨hrest, hidle⟩ := (alone_iff s).1 halone'
    obtain ⟨_, hn, _⟩ := (atRest_iff s).1 hrest
    obtain ⟨rfl, hheld, ⟨t, hx, hmgmt, ht⟩, u, hx', hmgmt', hu⟩ := release_ends hrest hm hop how halone
    refine ⟨fun hstate => ?_, fun n he hstate => ?_⟩
    · obtain ⟨hentries, hstream, hover, hctx, hcounter, htrack, hasked⟩ :=
        releasePersisted_leaves (b := freeSlot id.slot s.blocks) hidle hn hheld halone hstate ht
      refine ⟨t, hx, hmgmt, hentries, fun i n hin => ?_, fun i hi => ?_, hover, ?_, fun k hk => ?_, hcounter, htrack,
        fun hdrain hready n he => ?_⟩
      · rw [hstream, shareOf_nodup hnodup hin]
        exact ⟨rfl, rfl⟩
      · rw [hstream, shareOf_notMem hi, afterShare_nil]
        rfl
      · rw [hctx]
        simp only [and_true]
        rfl
      · rw [hctx, if_neg fun h => hk h.2]
        rfl
      · exact markerAsked_freed (x := freeSlot id.slot s.blocks) rfl (ops_freeSlot id.slot s.blocks) (hasked hdrain hready n he)
    · obtain ⟨hctx, hraised, hstream, hentries, hissued⟩ :=
        releaseFailed_leaves (b := freeSlot id.slot s.blocks) (fun i => .inl (hidle i)) hn hheld halone he hstate hu
      have hlive : (s.blocks.ctx e.ctx).state ≠ .rollback := by
        rcases hstate with h | h
        · rw [h]
          exact CtxState.noConfusion
        · rw [h]
          exact CtxState.noConfusion
      have hleft (i : StreamId) : u.blocks.stream i = afterDiscard i
          (s.blocks.held.entries.filter fun h => decide (h.ctx = e.ctx) && decide (h.state ≠ .issued))
          (afterLoss .memory i [e] (s.blocks.stream i)) := by
        obtain ⟨hgone, _⟩ := releaseOut_gone (some .memory) e (freeSlot id.slot s.blocks)
        have hs := hgone.stream i
        rw [hstream, discarded_eq]
        generalize releaseOut e (some .memory) (freeSlot id.slot s.blocks) = x at *
        have hidle' : idleStream (x.stream i) = true := by
          rw [hs]
          exact hidle i
        rw [told_idle_eq hidle', hs, afterShare_entry]
        rfl
      refine ⟨u, hx', hmgmt', ?_, hraised, hissued, fun c hc => ?_, ?_, hleft⟩
      · exact hctx.trans (faultedCtx_live hlive)
      · rw [hleft]
        exact loss_kept hc _
      · rw [hentries, keptEntries_eq]
        rfl

end Sys2Proof.Rounds


/-! SUPPORT. A capture read that fails (R50, R66, R80, R97). -/

namespace Sys2Proof.Rounds

open Sys2Proof.Machine Sys2Proof.Safety Sys2Proof.Laws Sys2Proof.Arrivals Sys2Proof.Expiries

variable {cfg : Image} {b x y z : Blocks} {s t : State} {e e' : TrackEntry} {c k : CtxId} {i : StreamId} {n m : Nat}
  {st : DownStatus}

/-! ## Space that is released -/

/-- What the release of space leaves, when no request is stalled (R66, R80, R81). -/
theorem releaseSpace_frame (hstall : noStall b = true) (n : Nat) : ∃ p a m v, releaseSpace cfg (n + 1) b = { b with
      mem := m, events := v
      journal := { b.journal with reserved := b.journal.reserved - (n + 1), pause := p, anchor := a } }
    ∧ m.slots = b.mem.slots
    ∧ (b.journal.state = .ready → p = pauseNow cfg { b.journal with reserved := b.journal.reserved - (n + 1) })
    ∧ a.formatCount = b.journal.anchor.formatCount := by
  have hnone : noStall (b.modJournal fun j => { j with reserved := j.reserved - (n + 1) }) = true := hstall
  have hspace : releaseSpace cfg (n + 1) b = evalPause cfg (b.modJournal fun j => { j with reserved := j.reserved - (n + 1) }) := by
    unfold releaseSpace spaceRisen wakeCapture
    rw [if_neg (Nat.succ_ne_zero n), wake_noStall hnone]
  rw [hspace]
  by_cases hs : b.journal.state = .ready
  · obtain ⟨m, hm, hslots, _⟩ := evalPause_frame (cfg := cfg)
      (b := b.modJournal fun j => { j with reserved := j.reserved - (n + 1) }) hs hnone
    exact ⟨_, _, m, _, hm, hslots, fun _ => rfl, rfl⟩
  · have hsame : evalPause cfg (b.modJournal fun j => { j with reserved := j.reserved - (n + 1) }) =
        b.modJournal fun j => { j with reserved := j.reserved - (n + 1) } := if_pos hs
    rw [hsame]
    exact ⟨_, _, _, _, rfl, rfl, fun h => absurd h hs, rfl⟩

/-! ## The entry of the capture -/

/-- A held entry of a line that is not ISSUED. -/
def unissuedOn (l : Addr) (h : HeldEntry) : Bool := decide (h.line = l) && decide (h.state ≠ .issued)

/-- The blocks when the entry of a failed capture has gone, with its space and the held writes of its line (R50). -/
def captureLost (cfg : Image) (e : TrackEntry) (b : Blocks) : Blocks :=
  discardHeld (unissuedOn e.line) (some .memory) (releaseSpace cfg 2 (removeEntries (fun x => decide (x.capture = e.capture)) b))

theorem captureFailed_eq (h : captureEntry b n = some e) : captureFailed cfg n st b =
    reportFault cfg e.ctx e.epoch .captureReadFailed e.line e.stream st (captureLost cfg e b) := by
  obtain ⟨⟨rfl, _⟩, _⟩ : (e.capture = n ∧ e.state = .capturing) ∧ e.pos = none := by simpa using List.find?_some h
  unfold captureFailed
  rw [h]
  rfl

/-- What the loss of a capture leaves. -/
structure CaptureGone (cfg : Image) (e : TrackEntry) (b x : Blocks) : Prop where
  frame : ∃ q p a m v, x = { b with
    req := q, mem := m, events := v
    journal := { b.journal with reserved := b.journal.reserved - 2, pause := p, anchor := a }
    track := b.track.filter fun y => decide (y.capture ≠ e.capture)
    held := { b.held with entries := b.held.entries.filter fun h => !unissuedOn e.line h } }
    ∧ m.slots = b.mem.slots
    ∧ (b.journal.state = .ready → p = pauseNow cfg { b.journal with reserved := b.journal.reserved - 2 })
  stream : ∀ i, ∃ r, sameButConflict (b.stream i) r ∧ (idleStream (b.stream i) = true → r = b.stream i)
    ∧ x.stream i = afterLoss .memory i (b.held.entries.filter (unissuedOn e.line)) r

theorem captureLost_gone (hstall : noStall b = true) : CaptureGone cfg e b (captureLost cfg e b) := by
  unfold captureLost
  have hkeeps (i : StreamId) : sameButConflict (b.stream i) ((removeEntries (fun x => decide (x.capture = e.capture)) b).stream i) :=
    removeEntries_keeps ((noStall_iff b).1 hstall i)
  have hidle (i : StreamId) (hi : idleStream (b.stream i) = true) :
      (removeEntries (fun x => decide (x.capture = e.capture)) b).stream i = b.stream i :=
    removeEntries_stream _ ((idleStream_iff _).1 hi).2.2.1 ((noStall_iff b).1 hstall i)
  obtain ⟨q, hq⟩ := removeEntries_frame (fun x => decide (x.capture = e.capture)) b
  have htrack : (b.track.filter fun y => !decide (y.capture = e.capture)) =
      b.track.filter fun y => decide (y.capture ≠ e.capture) := List.filter_congr fun y _ => by simp
  rw [htrack] at hq
  rw [hq] at hkeeps hidle ⊢
  have hnone : noStall { b with req := q, track := b.track.filter fun y => decide (y.capture ≠ e.capture) } = true := by
    rw [noStall_iff]
    intro i cause
    obtain ⟨u, hu⟩ := hkeeps i
    rw [hu]
    exact (noStall_iff b).1 hstall i cause
  obtain ⟨p, a, m, v, hspace, hslots, hpause, _⟩ := releaseSpace_frame (cfg := cfg) hnone 1
  rw [hspace]
  have hstreams (i : StreamId) := discardHeld_stream (p := unissuedOn e.line) (reason := some .memory) (i := i)
    (b := { b with
      req := q, mem := m, events := v, track := b.track.filter fun y => decide (y.capture ≠ e.capture)
      journal := { b.journal with reserved := b.journal.reserved - 2, pause := p, anchor := a } })
    ((noStall_iff _).1 hnone i .heldFull)
  obtain ⟨q', m', hz, hslots', _⟩ := discardHeld_frame (unissuedOn e.line) (some .memory)
    { b with
      req := q, mem := m, events := v, track := b.track.filter fun y => decide (y.capture ≠ e.capture)
      journal := { b.journal with reserved := b.journal.reserved - 2, pause := p, anchor := a } }
  refine ⟨⟨q', p, a, m', v, hz, hslots'.trans hslots, hpause⟩, fun i => ⟨_, hkeeps i, hidle i, ?_⟩⟩
  exact hstreams i

theorem CaptureGone.attends (h : CaptureGone cfg e b x) (hi : attends b c i) : Rounds.attends x c i := by
  obtain ⟨q, p, a, m, v, hframe, _⟩ := h.frame
  have hwaiters : x.ctx c = b.ctx c := by rw [hframe]; rfl
  obtain ⟨r, ⟨u, hr⟩, hidle, hs⟩ := h.stream i
  refine hi.imp (fun hi => ?_) fun ⟨hw, hp, hq⟩ => ?_
  · rw [hs, hidle hi]
    exact hi
  · rw [hwaiters, hs, hr]
    exact ⟨hw, hp, hq⟩

/-- The other contexts have nothing due when a capture is lost: its entry and the held writes of its line are not
theirs. -/
theorem CaptureGone.quiet (h : CaptureGone cfg e b x) (htrack : ∀ y ∈ b.track, y.capture = e.capture → y.ctx = e.ctx)
    (hheld : ∀ w ∈ b.held.entries, w.line = e.line → w.ctx = e.ctx) (hk : k ≠ e.ctx) (hb : ctxQuiet b k) : ctxQuiet x k := by
  obtain ⟨q, p, a, m, v, hframe, hslots, _⟩ := h.frame
  have hcount : x.heldCount k = b.heldCount k := by
    have hentries : x.held.entries = b.held.entries.filter fun h => !unissuedOn e.line h := by rw [hframe]
    unfold Blocks.heldCount
    rw [hentries, List.filter_filter]
    refine congrArg List.length (List.filter_congr fun w hw => ?_)
    by_cases hwk : w.ctx = k
    · have hline : w.line ≠ e.line := fun hl => hk (hwk.symm.trans (hheld w hw hl))
      simp [hwk, unissuedOn, hline]
    · simp [hwk]
  have hentries : x.entriesOf k = b.entriesOf k := by
    have htr : x.track = b.track.filter fun y => decide (y.capture ≠ e.capture) := by rw [hframe]
    unfold Blocks.entriesOf
    rw [htr, List.filter_filter]
    refine List.filter_congr fun y hy => ?_
    by_cases hyk : y.ctx = k
    · have hcap : y.capture ≠ e.capture := fun hc => hk (hyk.symm.trans (htrack y hy hc))
      simp [hyk, hcap]
    · simp [hyk]
  refine ctxQuiet_entries hb (by rw [hframe]; rfl) hcount hentries ?_ (by rw [hframe])
  rw [hframe]
  exact restoreOutstanding_congr hslots k

end Sys2Proof.Rounds


/-! SUPPORT. The event of a capture read that fails (R34, R50). -/

namespace Sys2Proof.Rounds

open Sys2Proof.Machine Sys2Proof.Safety Sys2Proof.Laws Sys2Proof.Arrivals Sys2Proof.Expiries

variable {cfg : Image} {b x y z : Blocks} {s t : State} {e e' : TrackEntry} {c k : CtxId} {i : StreamId} {n m : Nat}
  {st : DownStatus}

/-- What the event of a capture read that fails leaves, while nobody but the waiters of its context holds a request. -/
structure CaptureFaulted (cfg : Image) (e : TrackEntry) (st : DownStatus) (b : Blocks) (t : State) : Prop where
  track : t.blocks.track = b.track.filter fun y => decide (y.capture ≠ e.capture)
  ctx : ∀ k, t.blocks.ctx k =
    if k = e.ctx then faultedCtx ⟨.captureReadFailed, e.epoch, some e.line, some e.stream, some st⟩ (b.ctx e.ctx) else b.ctx k
  raised : t.blocks.events.isPending (.contextFault e.ctx) = true
  pause : b.journal.state = .ready →
    t.blocks.journal.pause = pauseNow cfg { b.journal with reserved := b.journal.reserved - 2 }
  issued : ∀ h ∈ t.blocks.held.entries, h.ctx = e.ctx → h.state = .issued
  idle : ∀ i, idleStream (b.stream i) = true → t.blocks.stream i =
    afterDiscard i ((b.held.entries.filter fun h => !unissuedOn e.line h).filter fun h => h.unissuedOf e.ctx)
      (afterLoss .memory i (b.held.entries.filter (unissuedOn e.line)) (b.stream i))
  told : ∀ i tag, attends b e.ctx i → i ∈ (b.ctx e.ctx).waiters → (b.stream i).queue = [⟨tag, .commit⟩] →
    idleStream (t.blocks.stream i) = true ∧ (t.blocks.stream i).sent = (b.stream i).sent ++ [.done tag .contextFaulted]

theorem captureFailed_leaves (hentry : captureEntry b n = some e) (hs : ∀ i, attends b e.ctx i)
    (hn : b.journal.notice = false) (hquiet : ∀ k, ctxQuiet b k)
    (htrack : ∀ y ∈ b.track, y.capture = e.capture → y.ctx = e.ctx)
    (hheld : ∀ w ∈ b.held.entries, w.line = e.line → w.ctx = e.ctx) (he : (b.ctx e.ctx).epoch = some e.epoch)
    (hstate : (b.ctx e.ctx).state = .opened ∨ (b.ctx e.ctx).state = .draining)
    (ht : t.blocks = finishEvent cfg (captureFailed cfg n st b)) : CaptureFaulted cfg e st b t := by
  have hgone := captureLost_gone (cfg := cfg) (e := e) (standBy_attends hs).noStall
  rw [captureFailed_eq hentry] at ht
  have hattends (i : StreamId) := hgone.attends (hs i)
  have hquiet' (k : CtxId) (hk : k ≠ e.ctx) := hgone.quiet htrack hheld hk (hquiet k)
  generalize captureLost cfg e b = x at *
  obtain ⟨q, p, a, m, v, hframe, _, hpause⟩ := hgone.frame
  have hctx (k : CtxId) : x.ctx k = b.ctx k := by rw [hframe]; rfl
  have hnotice : x.journal.notice = false := by rw [hframe]; exact hn
  have htaken := reportFault_taken (cfg := cfg) (kind := .captureReadFailed) (l := e.line) (i := e.stream) (st := st)
    (b := x) (c := e.ctx) (by rw [hctx]; exact hstate) (by rw [hctx]; exact he)
  generalize reportFault cfg e.ctx e.epoch .captureReadFailed e.line e.stream st x = z at *
  obtain ⟨y, hserved, hgrown⟩ := htaken.event (cfg := cfg) hattends hquiet' hnotice
  rw [← ht] at hgrown
  obtain ⟨q', ep, m', v', hframe', _⟩ := htaken.frame
  have hentries : x.held.entries = b.held.entries.filter fun h => !unissuedOn e.line h := by rw [hframe]
  have hstream (i : StreamId) : t.blocks.stream i = afterDiscard i
      ((b.held.entries.filter fun h => !unissuedOn e.line h).filter fun h => h.unissuedOf e.ctx)
      (Rounds.told .contextFaulted e.ctx x i) := by
    rw [hgrown.stream, hserved.stream,
      htaken.stream i (.inl (hattends i).queue) fun cause => (hattends i).notStalled cause, hentries]
  refine ⟨?_, fun k => ?_, ?_, fun hready => ?_, fun h hh hc => ?_, fun i hi => ?_, fun i tag ha hi hq => ?_⟩
  · rw [hgrown.grants.track, hserved.track, hframe', hframe]
  · rw [hgrown.ctx, hserved.ctx, htaken.ctx, hctx, hctx]
  · rw [hgrown.grants.events, hserved.events]
    exact htaken.raised
  · rw [hgrown.grants.journal, hserved.pause, hframe', hframe]
    exact hpause hready
  · obtain ⟨h', hh', hsame, hstate'⟩ := hgrown.issued h hh
    rw [hserved.held, hframe'] at hh'
    obtain ⟨_, hkept⟩ := List.mem_filter.1 hh'
    have hc' : h'.ctx = e.ctx := (asIssued_ctx hsame).trans hc
    have hissued : h'.state = .issued := by simpa [HeldEntry.unissuedOf, hc'] using hkept
    rcases hstate' with hstate' | hstate'
    · rw [hstate', hissued]
    · exact hstate'
  · obtain ⟨r, _, hidle, hs'⟩ := hgone.stream i
    rw [hidle hi] at hs'
    have hi' : idleStream (x.stream i) = true := by
      rw [hs']
      exact hi
    rw [hstream, told_idle_eq hi', hs']
  · obtain ⟨r, ⟨u, hr⟩, _, hs'⟩ := hgone.stream i
    have hq' : (x.stream i).queue = [⟨tag, .commit⟩] := by
      rw [hs', hr]
      exact hq
    have htold := told_waiter (st := .contextFaulted) (c := e.ctx) (b := x) (by rw [hctx]; exact hi) hq'
    refine ⟨?_, ?_⟩
    · rw [hstream]
      exact idleStream_afterDiscard (told_idle (hattends i)) _
    · rw [hstream]
      refine htold.trans ?_
      rw [hs', hr]
      rfl

/-! ## What the laws say of the entry of a capture -/

theorem captureEntry_spec (h : captureEntry b n = some e) : e ∈ b.track ∧ e.capture = n ∧ e.state = .capturing ∧ e.pos = none := by
  obtain ⟨⟨hcapture, hstate⟩, hpos⟩ : (e.capture = n ∧ e.state = .capturing) ∧ e.pos = none := by
    simpa using List.find?_some h
  exact ⟨List.mem_of_find?_eq_some h, hcapture, hstate, hpos⟩

theorem serviceLaw_captures (h : serviceLaw cfg b = true) : (b.track.map (·.capture)).Nodup := by
  simp only [serviceLaw, Bool.and_eq_true] at h
  obtain ⟨⟨⟨⟨⟨⟨_, hcapture⟩, _⟩, _⟩, _⟩, _⟩, _⟩ := h
  simp only [captureLaw, Bool.and_eq_true, decide_eq_true_eq] at hcapture
  exact hcapture.1.1

theorem serviceLaw_held (h : serviceLaw cfg b = true) : heldLaw b = true := by
  simp only [serviceLaw, Bool.and_eq_true] at h
  obtain ⟨⟨⟨⟨⟨⟨⟨⟨hheld, _⟩, _⟩, _⟩, _⟩, _⟩, _⟩, _⟩, _⟩ := h
  exact hheld

theorem entryOf_mem {l : Addr} (h : (b.track.map (·.line)).Nodup) (he : e ∈ b.track) (hl : e.line = l) : b.entryOf l = some e := by
  unfold Blocks.entryOf
  cases hfound : b.track.find? fun x => decide (x.line = l) with
  | none => exact absurd hl (by simpa using List.find?_eq_none.1 hfound e he)
  | some y =>
    have hline : y.line = l := by simpa using List.find?_some hfound
    rw [List.inj_on_of_nodup_map h (List.mem_of_find?_eq_some hfound) he (hline.trans hl.symm)]

/-- The held writes of a tracked line are of the context of its entry (R87). -/
theorem heldLaw_ctx (h : heldLaw b = true) (hlines : (b.track.map (·.line)).Nodup) (he : e ∈ b.track) {w : HeldEntry}
    (hw : w ∈ b.held.entries) (hl : w.line = e.line) : w.ctx = e.ctx := by
  have hlaw := List.all_eq_true.1 h w hw
  rw [hl, entryOf_mem hlines he rfl] at hlaw
  simp only [Bool.and_eq_true, decide_eq_true_eq] at hlaw
  exact hlaw.1.symm

end Sys2Proof.Rounds


/-! SUPPORT. A capture read that returns data (R45, R70, R71). -/

namespace Sys2Proof.Rounds

open Sys2Proof.Machine Sys2Proof.Safety Sys2Proof.Laws Sys2Proof.Arrivals Sys2Proof.Expiries

variable {cfg : Image} {b b' x y z : Blocks} {s t : State} {e e' : TrackEntry} {c k : CtxId} {i : StreamId} {n m : Nat}
  {st : DownStatus} {d : LineData} {seq : Count32}

/-! ## The record that is staged -/

theorem demandsAtStaging_journal (e : TrackEntry) (seq : Count32) (b : Blocks) :
    ∃ l, demandsAtStaging e seq b = b.modJournal fun j => { j with demands := j.demands ++ l } := by
  have hwaiting : ∃ ws : List StreamId, demandsAtStaging e seq b =
      if ((ws.foldl (fun b i => placeDemand ⟨seq, .barrier i⟩ b) b).ctx e.ctx).state = .draining then
        placeDemand ⟨seq, .drain e.ctx⟩ (ws.foldl (fun b i => placeDemand ⟨seq, .barrier i⟩ b) b)
      else ws.foldl (fun b i => placeDemand ⟨seq, .barrier i⟩ b) b := ⟨_, rfl⟩
  obtain ⟨ws, hws⟩ := hwaiting
  obtain ⟨l, hl⟩ := foldl_demands (f := fun b i => placeDemand ⟨seq, .barrier i⟩ b)
    (fun b i => (placeDemand_journal ⟨seq, .barrier i⟩ b).imp fun _ h => h.1) ws b
  rw [hws, hl]
  split
  · obtain ⟨l', hl', _⟩ := placeDemand_journal ⟨seq, .drain e.ctx⟩ (b.modJournal fun j => { j with demands := j.demands ++ l })
    refine ⟨l ++ l', hl'.trans ?_⟩
    simp only [Blocks.modJournal, List.append_assoc]
  · exact ⟨l, rfl⟩

/-- A tracking entry when the record of a capture is staged (R71). -/
def placedEntry (n : Nat) (p : RingPtr) (y : TrackEntry) : TrackEntry := if y.capture = n then { y with pos := some p } else y

/-- A context record when a record of it is staged (R71). -/
def moreUndo (x : Context) : Context := { x with undoCount := x.undoCount + 1 }

/-- The journal when a record is staged (R71). -/
def stagedJournal (cfg : Image) (e : TrackEntry) (d : LineData) (b : Blocks) : JournalWriter :=
  (stage cfg (undoSlots cfg b.journal e d) e.epoch e.ctx b).journal

theorem stageUndo_frame (cfg : Image) (e : TrackEntry) (d : LineData) (b : Blocks) : ∃ l staging timer m,
    stageUndo cfg e d b = { b.modCtx e.ctx moreUndo with
      track := b.track.map (placedEntry e.capture b.journal.tail)
      journal := { stagedJournal cfg e d b with demands := l, staging := staging, groupTimer := timer }
      mem := m }
    ∧ m.slots = b.mem.slots ∧ staging.length = b.journal.staging.length + 2
    ∧ ∀ x ∈ undoSlots cfg b.journal e d, ∃ y ∈ staging, { y with inFlight := false } = x := by
  obtain ⟨l, hl⟩ := demandsAtStaging_journal e b.journal.tail.dataSeq
    ((updateEntries (fun x => decide (x.capture = e.capture)) (fun x => { x with pos := some b.journal.tail })
      (stage cfg (undoSlots cfg b.journal e d) e.epoch e.ctx b)).modCtx e.ctx moreUndo)
  have hdemands : demandsAtStaging e b.journal.tail.dataSeq
      ((updateEntries (fun x => decide (x.capture = e.capture)) (fun x => { x with pos := some b.journal.tail })
        (stage cfg (undoSlots cfg b.journal e d) e.epoch e.ctx b)).modCtx e.ctx moreUndo) = { b.modCtx e.ctx moreUndo with
      track := b.track.map (placedEntry e.capture b.journal.tail)
      journal := { stagedJournal cfg e d b with demands := b.journal.demands ++ l } } := by
    refine hl.trans ?_
    have htrack : (b.track.map fun x => if decide (x.capture = e.capture) then { x with pos := some b.journal.tail } else x) =
        b.track.map (placedEntry e.capture b.journal.tail) := List.map_congr_left fun x _ => by simp [placedEntry]
    rw [← htrack]
    rfl
  have hcheck : stageUndo cfg e d b = burstCheck cfg { b.modCtx e.ctx moreUndo with
      track := b.track.map (placedEntry e.capture b.journal.tail)
      journal := { stagedJournal cfg e d b with demands := b.journal.demands ++ l } } := by
    rw [← hdemands]
    rfl
  obtain ⟨staging, timer, m, hframe, hslots, _⟩ := burstCheck_frame cfg { b.modCtx e.ctx moreUndo with
      track := b.track.map (placedEntry e.capture b.journal.tail)
      journal := { stagedJournal cfg e d b with demands := b.journal.demands ++ l } }
  obtain ⟨staging', timer', hj, hlen⟩ := burstCheck_journal cfg { b.modCtx e.ctx moreUndo with
      track := b.track.map (placedEntry e.capture b.journal.tail)
      journal := { stagedJournal cfg e d b with demands := b.journal.demands ++ l } }
  have hkept (x : StagedSlot) (hx : x ∈ b.journal.staging ++ undoSlots cfg b.journal e d) :=
    burstCheck_staging cfg { b.modCtx e.ctx moreUndo with
      track := b.track.map (placedEntry e.capture b.journal.tail)
      journal := { stagedJournal cfg e d b with demands := b.journal.demands ++ l } } (x := x) hx
  have hsame : staging = staging' := by
    rw [hframe] at hj
    exact congrArg JournalWriter.staging hj
  rw [hframe] at hkept
  refine ⟨b.journal.demands ++ l, staging, timer, m, hcheck.trans hframe, hslots, ?_, fun x hx => ?_⟩
  · rw [hsame, hlen]
    exact List.length_append
  · obtain ⟨y, hy, hyx⟩ := hkept x (List.mem_append_right _ hx)
    refine ⟨y, hy, hyx.trans ?_⟩
    simp only [undoSlots, List.mem_cons, List.not_mem_nil, or_false] at hx
    rcases hx with rfl | rfl
    · rfl
    · rfl

/-! ## Contexts that stay quiet -/

/-- What contexts wait for does not depend on where a CAPTURING entry's record is. -/
theorem ctxQuiet_placed {p : RingPtr} (h : ctxQuiet b k) (hstate : (b'.ctx k).state = (b.ctx k).state)
    (hroll : (b'.ctx k).rollback = (b.ctx k).rollback) (hcount : b'.heldCount k = b.heldCount k)
    (htrack : b'.track = b.track.map (placedEntry n p)) (hcap : ∀ y ∈ b.track, y.capture = n → y.state = .capturing)
    (hout : b'.mem.restoreOutstanding k = b.mem.restoreOutstanding k) (hnotice : b'.journal.notice = b.journal.notice) :
    ctxQuiet b' k := by
  have hctx (y : TrackEntry) : (placedEntry n p y).ctx = y.ctx := by unfold placedEntry; split <;> rfl
  have hst (y : TrackEntry) : (placedEntry n p y).state = y.state := by unfold placedEntry; split <;> rfl
  have hline (y : TrackEntry) : (placedEntry n p y).line = y.line := by unfold placedEntry; split <;> rfl
  have hentries : b'.entriesOf k = (b.entriesOf k).map (placedEntry n p) := by
    unfold Blocks.entriesOf
    rw [htrack, List.filter_map]
    simp only [Function.comp_def, hctx]
  have hcapturing : b'.capturing k = b.capturing k := by
    unfold Blocks.capturing
    rw [htrack, List.any_map]
    simp only [Function.comp_def, hctx, hst]
  have hunslotted (r : Rollback) : unslotted b' k r = unslotted b k r := by
    unfold unslotted
    rw [hentries, List.filterMap_map]
    refine List.filterMap_congr fun y hy => ?_
    simp only [Function.comp_def, hst, hline]
    by_cases hn : y.capture = n
    · rw [hcap y (List.mem_filter.1 hy).1 hn]
    · rw [placedEntry, if_neg hn]
  have hall : (b'.entriesOf k).all (fun e => decide (e.state = .restored)) = (b.entriesOf k).all fun e => decide (e.state = .restored) := by
    rw [hentries, List.all_map]
    simp only [Function.comp_def, hst]
  simp only [ctxQuiet, drainDue, quiesceDue, nextRestore_none, retireDue, rollbackIn, hcapturing, hstate, hroll, hcount,
    hunslotted, hall, hout, hnotice] at h ⊢
  exact h

end Sys2Proof.Rounds


/-! SUPPORT. O47: capture reads that end (R45, R50, R70, R71). -/

namespace Sys2Proof.Rounds

open Sys2Proof.Machine Sys2Proof.Safety Sys2Proof.Laws Sys2Proof.Arrivals Sys2Proof.Expiries

variable {cfg : Image} {b x y z : Blocks} {s t : State} {e : TrackEntry} {c k : CtxId} {i : StreamId} {n : Nat}
  {st : DownStatus} {d : LineData} {id : OpId} {o : Outstanding} {l : Addr}

/-- The blocks when the promise of a capture is given up (R70). -/
def unpromised (n : Nat) (b : Blocks) : Blocks := b.modJournal fun j => { j with promises := j.promises.erase n }

theorem unpromised_quiet (h : ctxQuiet b k) : ctxQuiet (unpromised n b) k := ctxQuiet_same h rfl rfl rfl rfl rfl

/-- The slots that a staged record occupies were promised, or were free: none is left to give. -/
theorem serveOne_staged (hserve : serveOne cfg b = none) (hw : y.journal.writing = b.journal.writing)
    (hmarker : y.journal.markerQueue = b.journal.markerQueue) (hcapture : y.journal.captureQueue = b.journal.captureQueue)
    (hpromises : y.journal.promises = b.journal.promises.erase n)
    (hlen : y.journal.staging.length = b.journal.staging.length + 2) : serveOne cfg y = none := by
  have hfree : y.journal.freeBuffer ≤ b.journal.freeBuffer := by
    have herase := List.length_erase (a := n) (l := b.journal.promises)
    unfold JournalWriter.freeBuffer
    rw [hpromises, hlen]
    split at herase
    · omega
    · omega
  rw [serveOne_none_iff] at hserve ⊢
  rw [hw, hmarker, hcapture]
  rcases hserve with h | ⟨h, hlt⟩ | ⟨h, hlt⟩
  · exact .inl h
  · exact .inr (.inl ⟨h, by omega⟩)
  · exact .inr (.inr ⟨h, hlt.imp_right fun hlt => by omega⟩)

/-- What the event of a capture read that returns data leaves, with no request in any stream (R45, R71). -/
theorem captureData_leaves (hentry : captureEntry b n = some e) (hidle : ∀ i, idleStream (b.stream i) = true)
    (hs : b.journal.state = .ready) (hn : b.journal.notice = false) (hheld : Held cfg b)
    (hcap : ∀ y ∈ b.track, y.capture = n → y.state = .capturing)
    (ht : t.blocks = finishEvent cfg (captureEnd cfg n (.data d) b)) :
    t.blocks.journal.tail = b.journal.tail.advance cfg.ringN 2 ∧ t.blocks.journal.durable = b.journal.durable
      ∧ t.blocks.journal.reserved = b.journal.reserved - 2
      ∧ t.blocks.track = b.track.map (placedEntry n b.journal.tail)
      ∧ (∀ k, t.blocks.ctx k = if k = e.ctx then moreUndo (b.ctx e.ctx) else b.ctx k) ∧ t.blocks.req = b.req
      ∧ ∀ x ∈ undoSlots cfg b.journal e d, ∃ y ∈ t.blocks.journal.staging, { y with inFlight := false } = x := by
  obtain ⟨_, hcapture, _, _⟩ := captureEntry_spec hentry
  have hend : captureEnd cfg n (.data d) b = stageUndo cfg e d (unpromised n b) := by
    have hfound : captureEntry (unpromised n b) n = some e := hentry
    have hdata : captureEnd cfg n (.data d) b = captureData cfg n d (unpromised n b) := rfl
    rw [hdata]
    unfold captureData
    rw [hfound]
    exact if_pos (by simp [unpromised, JournalWriter.writing, hs, hn])
  obtain ⟨dm, staging, timer, m, hframe, hslots, hlen, hmember⟩ := stageUndo_frame cfg e d (unpromised n b)
  rw [hend, hframe] at ht
  generalize hz : ({ (unpromised n b).modCtx e.ctx moreUndo with
      track := (unpromised n b).track.map (placedEntry e.capture (unpromised n b).journal.tail)
      journal := { stagedJournal cfg e d (unpromised n b) with demands := dm, staging := staging, groupTimer := timer }
      mem := m } : Blocks) = z at ht
  have hctx (k : CtxId) : z.ctx k = if k = e.ctx then moreUndo (b.ctx e.ctx) else b.ctx k := by
    rw [← hz]
    exact Blocks.modCtx_ctx (unpromised n b) e.ctx k moreUndo
  have htrack : z.track = b.track.map (placedEntry n b.journal.tail) := by
    rw [← hz, ← hcapture]
    rfl
  have hstand : StandBy z := standBy_idle fun i => by
    rw [← hz]
    exact hidle i
  have hnotice : z.journal.notice = false := by
    rw [← hz]
    exact hn
  have hquiet (k : CtxId) : ctxQuiet z k := by
    refine ctxQuiet_placed (b := b) (hheld.context k) ?_ ?_ ?_ htrack hcap ?_ (hnotice.trans hn.symm)
    · rw [hctx]
      split
      · rename_i hk
        rw [hk]
        rfl
      · rfl
    · rw [hctx]
      split
      · rename_i hk
        rw [hk]
        rfl
      · rfl
    · rw [← hz]
      rfl
    · rw [← hz]
      exact restoreOutstanding_congr hslots k
  have hserve : serveOne cfg z = none := by
    refine serveOne_staged (n := n) hheld.buffer ?_ ?_ ?_ ?_ ?_
    · rw [← hz]
      rfl
    · rw [← hz]
      rfl
    · rw [← hz]
      rfl
    · rw [← hz]
      rfl
    · rw [← hz]
      exact hlen
  have hgrants : OnlyGrants z t.blocks := by
    rw [ht]
    exact finishEvent_releases ⟨hquiet, hserve⟩ hstand.notDue hstand.noFresh hnotice
  refine ⟨?_, ?_, ?_, ?_, fun k => ?_, ?_, fun x hx => ?_⟩
  · rw [hgrants.journal, ← hz]
    rfl
  · rw [hgrants.journal, ← hz]
    rfl
  · rw [hgrants.journal, ← hz]
    rfl
  · rw [hgrants.track, htrack]
  · rw [Blocks.ctx, hgrants.epochs]
    exact hctx k
  · rw [hgrants.req, ← hz]
    rfl
  · rw [hgrants.journal, ← hz]
    exact hmember x hx

/-- A capture read that returns data outside READY gives its promise up (R45, R70). -/
theorem captureData_dropped (hidle : ∀ i, idleStream (b.stream i) = true) (hs : b.journal.state ≠ .ready)
    (hn : b.journal.notice = false) (hheld : Held cfg b) :
    OnlyGrants (unpromised n b) (finishEvent cfg (captureEnd cfg n (.data d) b)) := by
  have hw : (unpromised n b).journal.writing = false := by simp [unpromised, JournalWriter.writing, hs]
  have hend : captureEnd cfg n (.data d) b = unpromised n b := by
    have hdata : captureEnd cfg n (.data d) b = captureData cfg n d (unpromised n b) := rfl
    rw [hdata]
    unfold captureData
    rw [hw]
    split
    · exact if_neg Bool.false_ne_true
    · rfl
  have hstand : StandBy (unpromised n b) := standBy_idle hidle
  rw [hend]
  exact finishEvent_releases ⟨fun k => unpromised_quiet (hheld.context k), serveOne_none_iff.2 (.inl hw)⟩ hstand.notDue
    hstand.noFresh hn

/-! ## The end of the read -/

theorem capture_event {cmd : Instr} {k : Completion} {w : OpEnd} (hrest : atRest s = true)
    (hm : s.blocks.mem.matching id = some o) (hc : completionOf cmd = some (id, k)) (how : o.owner = .capture n)
    (hend : endOf o.op k = w) : ∃ t, exec cmd s = .next t ∧ t.mgmt = s.mgmt ∧ t.pins = s.pins ∧ t.pending = s.pending
      ∧ t.blocks = finishEvent s.mgmt.active (captureEnd s.mgmt.active n w (freeSlot id.slot s.blocks)) := by
  obtain ⟨hup, _⟩ := (atRest_iff s).1 hrest
  have hends := exec_completion hup hm hc hend
  unfold handBack at hends
  rw [how] at hends
  dsimp only at hends
  generalize finishEvent s.mgmt.active (captureEnd s.mgmt.active n w (freeSlot id.slot s.blocks)) = x at hends ⊢
  exact ⟨_, hends, rfl, rfl, rfl, rfl⟩

/-- What an event that faults the context of a capture leaves. -/
theorem CaptureFaulted.leaves (h : CaptureFaulted cfg e st (unpromised n b) t) (hcapture : e.capture = n)
    (hstate : (b.ctx e.ctx).state = .opened ∨ (b.ctx e.ctx).state = .draining) :
    t.blocks.track = b.track.filter (fun y => decide (y.capture ≠ n))
      ∧ t.blocks.ctx e.ctx = { b.ctx e.ctx with
          state := .faulted, idleTimer := none, waiters := [], mgmtWaiter := false
          fault := some ⟨.captureReadFailed, e.epoch, some e.line, some e.stream, some st⟩ }
      ∧ (∀ k, k ≠ e.ctx → t.blocks.ctx k = b.ctx k)
      ∧ t.blocks.events.isPending (.contextFault e.ctx) = true
      ∧ (b.journal.state = .ready →
        t.blocks.journal.pause = pauseNow cfg { b.journal with reserved := b.journal.reserved - 2 })
      ∧ ∀ w ∈ t.blocks.held.entries, w.ctx = e.ctx → w.state = .issued := by
  have hlive : (b.ctx e.ctx).state ≠ .rollback := by
    rcases hstate with h | h
    · rw [h]
      exact CtxState.noConfusion
    · rw [h]
      exact CtxState.noConfusion
  refine ⟨?_, ?_, fun k hk => (h.ctx k).trans (if_neg hk), h.raised, h.pause, h.issued⟩
  · rw [← hcapture]
    exact h.track
  · exact ((h.ctx e.ctx).trans (if_pos rfl)).trans (faultedCtx_live hlive)

theorem offLine_eq (b : Blocks) (e : TrackEntry) :
    (b.held.entries.filter fun h => !unissuedOn e.line h).filter (fun h => h.unissuedOf e.ctx) = offLine b e := by
  unfold offLine
  rw [List.filter_filter]
  refine List.filter_congr fun x _ => ?_
  by_cases hx : x.state = .issued
  · simp [HeldEntry.unissuedOf, hx]
  · simp [HeldEntry.unissuedOf, unissuedOn, hx]

/-- Settles O47. -/
theorem captureReadStagesTheRecord : Obligations.CaptureReadStagesTheRecord := by
  intro n l d e id o s hm hop how hentry hctxs htracked hservice
  obtain ⟨hlines, hlive, _⟩ := (Tracked.trackLaw_iff _ _).1 htracked
  obtain ⟨hmem, hcapture, hstate, _⟩ := captureEntry_spec hentry
  have hunique (y : TrackEntry) (hy : y ∈ s.blocks.track) (hc : y.capture = n) : y = e :=
    capture_unique (serviceLaw_captures hservice) hy hmem (hc.trans hcapture.symm)
  have hheldCtx (w : HeldEntry) (hw : w ∈ s.blocks.held.entries) (hl : w.line = e.line) : w.ctx = e.ctx :=
    heldLaw_ctx (serviceLaw_held hservice) hlines hmem hw hl
  have hheld (hrest : atRest s = true) : Held s.mgmt.active (freeSlot id.slot s.blocks) :=
    held_of_still (still_freed hrest hm (by simp [how, Owner.restoreOf]) s.blocks.clock)
  have hfails (hrest : atRest s = true) (hs : ∀ i, attends s.blocks e.ctx i)
      (hx : (s.blocks.ctx e.ctx).state = .opened ∨ (s.blocks.ctx e.ctx).state = .draining) :
      ∃ t, exec (.captureReadDone id .error) s = .next t ∧ t.mgmt = s.mgmt
        ∧ CaptureFaulted s.mgmt.active e .error (unpromised n (freeSlot id.slot s.blocks)) t := by
    obtain ⟨_, hn, _⟩ := (atRest_iff s).1 hrest
    obtain ⟨t, hexec, hmgmt, _, _, ht⟩ := capture_event (cmd := .captureReadDone id .error) hrest hm rfl how
      (w := .failed .error) (by rw [hop]; rfl)
    refine ⟨t, hexec, hmgmt, ?_⟩
    exact captureFailed_leaves (b := unpromised n (freeSlot id.slot s.blocks)) hentry hs hn
      (fun k => unpromised_quiet ((hheld hrest).context k)) (fun y hy hc => by rw [hunique y hy (hc.trans hcapture)])
      hheldCtx (hlive e hmem) hx ht
  refine ⟨fun halone hs => ?_, fun halone hs => ?_, fun halone hx => ?_, fun tag hwait hx => ?_⟩
  · obtain ⟨hrest, hidle⟩ := (alone_iff s).1 halone
    obtain ⟨_, hn, _⟩ := (atRest_iff s).1 hrest
    obtain ⟨t, hexec, hmgmt, _, _, ht⟩ := capture_event (cmd := .captureReadDone id (.data d)) hrest hm rfl how
      (w := .data d) (by rw [hop]; rfl)
    obtain ⟨htail, hdurable, hreserved, htrack, hctx, hreq, hstaged⟩ :=
      captureData_leaves (b := freeSlot id.slot s.blocks) hentry hidle hs hn (hheld hrest)
        (fun y hy hc => by rw [hunique y hy hc]; exact hstate) ht
    refine ⟨t, hexec, hmgmt, htail, hdurable, hreserved, htrack, (hctx e.ctx).trans (if_pos rfl),
      fun k hk => (hctx k).trans (if_neg hk), hreq, ?_, ?_⟩
    · obtain ⟨y, hy, hsame⟩ := hstaged _ List.mem_cons_self
      exact ⟨y, hy, (StagedSlot.mk.inj hsame).2.1, (StagedSlot.mk.inj hsame).1⟩
    · obtain ⟨y, hy, hsame⟩ := hstaged _ (List.mem_cons_of_mem _ List.mem_cons_self)
      exact ⟨y, hy, (StagedSlot.mk.inj hsame).2.1, (StagedSlot.mk.inj hsame).1⟩
  · obtain ⟨hrest, hidle⟩ := (alone_iff s).1 halone
    obtain ⟨_, hn, _⟩ := (atRest_iff s).1 hrest
    obtain ⟨t, hexec, hmgmt, hpins, hpending, ht⟩ := capture_event (cmd := .captureReadDone id (.data d)) hrest hm rfl how
      (w := .data d) (by rw [hop]; rfl)
    have hgrants := captureData_dropped (cfg := s.mgmt.active) (n := n) (d := d) (b := freeSlot id.slot s.blocks) hidle hs hn
      (hheld hrest)
    rw [← ht] at hgrants
    exact ⟨t, hexec, hmgmt, hpins, hpending, { hgrants with }⟩
  · obtain ⟨hrest, hidle⟩ := (alone_iff s).1 halone
    obtain ⟨t, hexec, hmgmt, hfaulted⟩ := hfails hrest (fun i => .inl (hidle i)) hx
    refine ⟨t, hexec, ⟨hmgmt, hfaulted.leaves hcapture hx⟩, fun i => (hfaulted.idle i (hidle i)).trans ?_⟩
    exact congrArg (fun l => afterDiscard i l _) (offLine_eq s.blocks e)
  · have hattends := attends_commitsWait hwait
    obtain ⟨hrest, hw, _⟩ := hwait
    obtain ⟨t, hexec, hmgmt, hfaulted⟩ := hfails hrest hattends (.inr hx)
    exact ⟨t, hexec, ⟨hmgmt, hfaulted.leaves hcapture (.inr hx)⟩, fun i hi =>
      hfaulted.told i (tag i) (hattends i) hi (hw i hi).2⟩

end Sys2Proof.Rounds


/-! SUPPORT. A RESTORE_WRITE that persists, with a READ stalled on its line (R48, R116). -/

namespace Sys2Proof.Rounds

open Sys2Proof.Machine Sys2Proof.Safety Sys2Proof.Laws Sys2Proof.Arrivals Sys2Proof.Expiries

variable {cfg : Image} {b x y z : Blocks} {s t : State} {e : TrackEntry} {c k : CtxId} {i : StreamId} {l : Addr}
  {id : OpId} {o : Outstanding} {w : Window} {tag : Tag} {addr : Addr} {q : Request}

/-! ## A READ that is classified again while contexts go on -/

theorem lineRestoring_done (h : lineDone l b) : b.lineRestoring l = false := by
  obtain ⟨e, he, hstate⟩ := h
  unfold Blocks.lineRestoring
  rw [he]
  simp [hstate]

/-- A READ of a RESTORED line goes to memory, whatever else its event brings about. -/
theorem finishEvent_readsDone (hs : b.journal.state ≠ .recovering) (hn : b.journal.notice = false)
    (hone : oneRequest b i .fresh ⟨tag, .read addr⟩) (hw : lookup cfg (lineOf addr) = .window w) (hkind : w.kind = .journaled)
    (hdone : lineDone (lineOf addr) b) (hcover : b.held.coverMask (lineOf addr) ≠ fullMask) :
    ((finishEvent cfg b).stream i).phase = .reading
      ∧ inPort (finishEvent cfg b).mem (.lineRead (lineOf addr)) (.passRead i true) = true := by
  have hstall : noStall b = true := (noStall_iff b).2 fun k cause => by
    by_cases hk : k = i
    · rw [hk, hone.1]
      exact Phase.noConfusion
    · rw [phase_of_idleStream (hone.2.2 k hk)]
      exact Phase.noConfusion
  have hfirst := (Lull.refl hstall).progress (cfg := cfg) (hone.notDue (.inl rfl))
  generalize hy : progress cfg b = y at hfirst
  have hqueue : (y.stream i).queue = [⟨tag, .read addr⟩] := by
    obtain ⟨u, hu⟩ := hfirst.streams i
    rw [hu]
    exact hone.2.1
  have hhandle : handleCurrent cfg i y = readHanded i (lineOf addr) y :=
    handleCurrent_read_journaled hqueue hw hkind (by rw [hfirst.state]; exact hs)
      (lineRestoring_done (hfirst.done _ hdone)) (by rw [hfirst.held]; exact hcover)
  have hpassed := passed_readHanded i (lineOf addr) y
  have hport := readHanded_inPort (hfirst.notice.trans hn) i (lineOf addr)
  have hreading : ((readHanded i (lineOf addr) y).stream i).phase = .reading := by
    rw [readHanded, setPhase, Blocks.modStream_stream, if_pos rfl]
  have hstand : StandBy (readHanded i (lineOf addr) y) := fun k => by
    by_cases hk : k = i
    · rw [hk]
      exact .inr (.inr hreading)
    · rw [hpassed.stream k hk, hfirst.phase k]
      exact .inl (phase_of_idleStream (hone.2.2 k hk))
  have hnotice : (readHanded i (lineOf addr) y).journal.notice = false := by
    rw [hpassed.journal]
    exact hfirst.notice.trans hn
  generalize readHanded i (lineOf addr) y = z at *
  have hsecond := (Lull.refl hstand.noStall).progress (cfg := cfg) hstand.notDue
  generalize hx : progress cfg z = x at hsecond
  have hgrown := grown_arbitrate cfg 32 x
  have hfresh : ∀ k, (y.stream k).phase = .fresh ↔ k = i := fun k => by
    rw [hfirst.phase k]
    exact hone.fresh k
  have hnone : noFresh x = true := (noFresh_iff x).2 fun k => by
    rw [hsecond.phase k]
    exact (noFresh_iff z).1 hstand.noFresh k
  rw [← finishEvent_handles hy hfresh (by rw [hhandle]; exact hx) hnone (hsecond.notice.trans hnotice)] at hgrown
  refine ⟨?_, hgrown.port _ _ (fun _ => Owner.noConfusion) (hsecond.inPort hport)⟩
  rw [hgrown.stream, hsecond.phase]
  exact hreading

/-! ## The line that is restored -/

theorem lineRestored_done (he : b.entryOf l = some e) (hc : e.ctx = c) (hstate : e.state = .restoring) :
    lineDone l (lineRestored c l b) := by
  have htrack : (lineRestored c l b).entryOf l = (b.entryOf l).map fun x =>
      if decide (x.ctx = c) && decide (x.line = l) && decide (x.state = .restoring) then { x with state := .restored } else x := by
    have hlines (x : TrackEntry) : (if decide (x.ctx = c) && decide (x.line = l) && decide (x.state = .restoring) then
        { x with state := TrackState.restored } else x).line = x.line := by
      split <;> rfl
    have hmap : (lineRestored c l b).track = b.track.map fun x =>
        if decide (x.ctx = c) && decide (x.line = l) && decide (x.state = .restoring) then { x with state := .restored } else x := rfl
    unfold Blocks.entryOf
    rw [hmap]
    refine List.find?_map.trans ?_
    simp only [Function.comp_def, hlines]
  have hline : e.line = l := by simpa using List.find?_some he
  refine ⟨{ e with state := .restored }, ?_, rfl⟩
  rw [htrack, he, Option.map_some, if_pos (by simp [hc, hline, hstate])]

theorem lineRestored_wakes (hone : oneRequest b i (.stalled .restoring) ⟨tag, .read addr⟩) (hl : lineOf addr = l) :
    oneRequest (lineRestored c l b) i .fresh ⟨tag, .read addr⟩ := by
  have hwoken : oneRequest (wakeRestoring l (updateEntries
      (fun e => decide (e.ctx = c) && decide (e.line = l) && decide (e.state = .restoring))
      (fun e => { e with state := .restored }) b)) i .fresh ⟨tag, .read addr⟩ := by
    refine oneRequest.wake (b := updateEntries
      (fun e => decide (e.ctx = c) && decide (e.line = l) && decide (e.state = .restoring))
      (fun e => { e with state := .restored }) b) hone ?_
    have hqueue : (b.stream i).queue = [⟨tag, .read addr⟩] := hone.2.1
    have hcurrent : (b.stream i).currentLine = some l := by
      unfold StreamRec.currentLine
      rw [hqueue, ← hl]
    simp only [updateEntries, Blocks.modTrack_stream, hcurrent, decide_true, Bool.and_self]
  exact hwoken

/-- The end of a restore write is an event of its own. -/
theorem restoreWrite_event {cmd : Instr} {k : Completion} {v : OpEnd} (hrest : atRest s = true)
    (hm : s.blocks.mem.matching id = some o) (hc : completionOf cmd = some (id, k)) (how : o.owner = .restoreWrite c l)
    (hend : endOf o.op k = v) : ∃ t, exec cmd s = .next t ∧ t.mgmt = s.mgmt
      ∧ t.blocks = finishEvent s.mgmt.active (restoreWriteEnd s.mgmt.active c l v (freeSlot id.slot s.blocks)) := by
  obtain ⟨hup, _⟩ := (atRest_iff s).1 hrest
  have hends := exec_completion hup hm hc hend
  unfold handBack at hends
  rw [how] at hends
  dsimp only at hends
  generalize finishEvent s.mgmt.active (restoreWriteEnd s.mgmt.active c l v (freeSlot id.slot s.blocks)) = x at hends ⊢
  exact ⟨_, hends, rfl, rfl⟩

end Sys2Proof.Rounds


/-! SUPPORT. A rollback in phase RESTORE goes on: its slots are filled, or it goes to RETIRE (R114, R117). -/

namespace Sys2Proof.Rounds

open Sys2Proof.Machine Sys2Proof.Safety Sys2Proof.Laws Sys2Proof.Arrivals Sys2Proof.Expiries

variable {cfg : Image} {b b' x y z : Blocks} {s t : State} {e : TrackEntry} {c k : CtxId} {i : StreamId} {l : Addr}
  {r r' : Rollback} {n : Nat} {p : Addr × RingPtr}

/-! ## Restore slots -/

theorem firstFrom_mem {head : RingPtr} {ps : List (Addr × RingPtr)} (h : firstFrom head ps = some p) : p ∈ ps := by
  induction ps generalizing p with
  | nil => cases h
  | cons q ps ih =>
    unfold firstFrom at h
    split at h
    · rename_i y hy
      split at h
      · cases h
        exact List.mem_cons_self
      · cases h
        exact List.mem_cons_of_mem _ (ih hy)
    · cases h
      exact List.mem_cons_self

theorem rollbackIn_restore (hr : (b.ctx c).rollback = some r) (hstate : (b.ctx c).state = .rollback) (hphase : r.phase = .restore) :
    rollbackIn b c .restore = some r := by
  unfold rollbackIn
  rw [hr]
  exact if_pos ⟨hstate, hphase⟩

/-- A RESTORING entry of a context, with a line and a position. -/
def restoringAt (b : Blocks) (c : CtxId) (l : Addr) (p : RingPtr) : Prop :=
  ∃ e ∈ b.track, e.ctx = c ∧ e.line = l ∧ e.state = .restoring ∧ e.pos = some p

theorem mem_unslotted (h : p ∈ unslotted b c r) : restoringAt b c p.1 p.2 := by
  obtain ⟨e, he, hp⟩ := List.mem_filterMap.1 h
  obtain ⟨hmem, hctx⟩ := List.mem_filter.1 he
  split at hp
  · rename_i q hstate hpos
    split at hp
    · cases hp
    · cases hp
      exact ⟨e, hmem, of_decide_eq_true hctx, rfl, hstate, hpos⟩
  · cases hp

/-- A RESTORING entry with a position has a slot when none is without. -/
theorem slotted_of_unslotted_nil (h : unslotted b c r = []) (he : e ∈ b.track) (hc : e.ctx = c) (hstate : e.state = .restoring)
    (hpos : e.pos.isSome = true) : ∃ x ∈ r.slots, x.line = e.line := by
  obtain ⟨q, hq⟩ := Option.isSome_iff_exists.1 hpos
  by_contra hnone
  have hany : (r.slots.any fun s => decide (s.line = e.line)) = false := by
    rw [List.any_eq_false]
    intro x hx hline
    exact hnone ⟨x, hx, of_decide_eq_true hline⟩
  have hmem : (e.line, q) ∈ unslotted b c r := by
    refine List.mem_filterMap.2 ⟨e, List.mem_filter.2 ⟨he, decide_eq_true hc⟩, ?_⟩
    simp only [hstate, hq, hany]
    rfl
  rw [h] at hmem
  cases hmem

/-- A restore slot that has been filled: its RESTORE_READ is at the port (R114). -/
def slotReads (cfg : Image) (c : CtxId) (b : Blocks) (m : MemoryPort) (x : RestoreSlot) : Prop :=
  x.op = .read ∧ restoringAt b c x.line x.pos
    ∧ inPort m (.lineRead (slotLine cfg (x.pos.advance cfg.ringN 1).idx)) (.restoreRead c x.line) = true

/-- From b to b' restore slots of context c have been filled. -/
structure Filled (cfg : Image) (c : CtxId) (r : Rollback) (b b' : Blocks) : Prop where
  frame : ∃ e m, b' = { b with epochs := e, mem := m }
  slots : b'.mem.slots = b.mem.slots
  waits : ∀ r ∈ b.mem.waiting, r ∈ b'.mem.waiting
  other : ∀ k, k ≠ c → b'.ctx k = b.ctx k
  new : ∃ new, b'.ctx c = { b.ctx c with rollback := some { r with slots := r.slots ++ new } }
    ∧ ∀ x ∈ new, slotReads cfg c b b'.mem x

theorem Filled.refl (hr : (b.ctx c).rollback = some r) : Filled cfg c r b b :=
  ⟨⟨_, _, rfl⟩, rfl, fun _ h => h, fun _ _ => rfl, [], by rw [List.append_nil, ← hr], fun _ h => absurd h List.not_mem_nil⟩

/-- The blocks with one more restore slot taken (R114). -/
def slotTaken (c : CtxId) (p : Addr × RingPtr) (b : Blocks) : Blocks :=
  modRollback c (fun r => { r with slots := r.slots ++ [⟨p.1, p.2, none, .read⟩] }) b

theorem fillSlot_eq (cfg : Image) (c : CtxId) (p : Addr × RingPtr) (b : Blocks) : fillSlot cfg c p b =
    handOver (.lineRead (slotLine cfg (p.2.advance cfg.ringN 1).idx)) .restore (.restoreRead c p.1) (slotTaken c p b) := rfl

theorem slotTaken_ctx (hr : (b.ctx c).rollback = some r) (k : CtxId) : (slotTaken c p b).ctx k =
    if k = c then { b.ctx c with rollback := some { r with slots := r.slots ++ [⟨p.1, p.2, none, .read⟩] } } else b.ctx k := by
  unfold slotTaken modRollback
  rw [Blocks.modCtx_ctx, hr]
  rfl

theorem fillSlot_ctx (hr : (b.ctx c).rollback = some r) (k : CtxId) : (fillSlot cfg c p b).ctx k =
    if k = c then { b.ctx c with rollback := some { r with slots := r.slots ++ [⟨p.1, p.2, none, .read⟩] } } else b.ctx k := by
  rw [fillSlot_eq, (served_handOver _ _ _ _).ctx, slotTaken_ctx hr]

theorem fillSlot_filled (hn : b.journal.notice = false) (hr : (b.ctx c).rollback = some r) (hp : restoringAt b c p.1 p.2) :
    Filled cfg c r b (fillSlot cfg c p b)
      ∧ ∀ x ∈ [(⟨p.1, p.2, none, .read⟩ : RestoreSlot)], slotReads cfg c b (fillSlot cfg c p b).mem x := by
  have hserved := served_handOver (.lineRead (slotLine cfg (p.2.advance cfg.ringN 1).idx)) .restore (.restoreRead c p.1)
    (slotTaken c p b)
  have hport := handOver_inPort (b := slotTaken c p b) hn
    (.lineRead (slotLine cfg (p.2.advance cfg.ringN 1).idx)) .restore (.restoreRead c p.1)
  obtain ⟨m, hm, _⟩ := handOver_frame (.lineRead (slotLine cfg (p.2.advance cfg.ringN 1).idx)) .restore (.restoreRead c p.1)
    (slotTaken c p b)
  have hctx (k : CtxId) := fillSlot_ctx (cfg := cfg) (p := p) hr k
  rw [fillSlot_eq] at hctx ⊢
  have hread : ∀ x ∈ [(⟨p.1, p.2, none, .read⟩ : RestoreSlot)], slotReads cfg c b
      (handOver (.lineRead (slotLine cfg (p.2.advance cfg.ringN 1).idx)) .restore (.restoreRead c p.1) (slotTaken c p b)).mem x := by
    intro x hx
    rw [List.mem_singleton.1 hx]
    exact ⟨rfl, hp, hport⟩
  exact ⟨⟨⟨_, m, hm⟩, hserved.slots, hserved.waits, fun k hk => (hctx k).trans (if_neg hk), _,
    (hctx c).trans (if_pos rfl), hread⟩, hread⟩

theorem Filled.track (h : Filled cfg c r b b') : b'.track = b.track := by
  obtain ⟨e, m, hframe⟩ := h.frame
  rw [hframe]

theorem Filled.journal (h : Filled cfg c r b b') : b'.journal = b.journal := by
  obtain ⟨e, m, hframe⟩ := h.frame
  rw [hframe]

theorem Filled.trans {new : List RestoreSlot} (h : Filled cfg c r b x)
    (hnew : x.ctx c = { b.ctx c with rollback := some { r with slots := r.slots ++ new } })
    (hread : ∀ y ∈ new, slotReads cfg c b x.mem y) (k : Filled cfg c { r with slots := r.slots ++ new } x y) :
    Filled cfg c r b y := by
  obtain ⟨e, m, hframe⟩ := h.frame
  obtain ⟨e', m', hframe'⟩ := k.frame
  obtain ⟨new', hctx', hread'⟩ := k.new
  refine ⟨⟨e', m', by rw [hframe', hframe]⟩, k.slots.trans h.slots, fun r hr => k.waits r (h.waits r hr),
    fun j hj => (k.other j hj).trans (h.other j hj), new ++ new', ?_, fun v hv => ?_⟩
  · rw [hctx', hnew, List.append_assoc]
  · rcases List.mem_append.1 hv with hv | hv
    · obtain ⟨hop, hat', hport⟩ := hread v hv
      exact ⟨hop, hat', inPort_mono k.waits k.slots hport⟩
    · obtain ⟨hop, hat', hport⟩ := hread' v hv
      refine ⟨hop, ?_, hport⟩
      unfold restoringAt at hat' ⊢
      rwa [h.track] at hat'

/-- The empty restore slots of a context are filled, until none is empty or every line has one (R114). -/
theorem fillSlots_filled (hn : b.journal.notice = false) (hr : (b.ctx c).rollback = some r)
    (hstate : (b.ctx c).state = .rollback) (hphase : r.phase = .restore) (n : Nat) :
    Filled cfg c r b (fillSlots cfg c n b)
      ∧ (Config.restoreSlots ≤ r.slots.length + n → nextRestore (fillSlots cfg c n b) c = none) := by
  have hin := rollbackIn_restore hr hstate hphase
  induction n generalizing b r with
  | zero =>
    refine ⟨.refl hr, fun hfull => ?_⟩
    rw [nextRestore_none]
    intro r' hr'
    have hsame : r = r' := Option.some.inj (hin.symm.trans hr')
    exact .inr (.inl (hsame ▸ hfull))
  | succ n ih =>
    unfold fillSlots
    cases hnext : nextRestore b c with
    | none => exact ⟨.refl hr, fun _ => hnext⟩
    | some p =>
      dsimp only
      have hp : p ∈ unslotted b c r := by
        unfold nextRestore at hnext
        rw [hin] at hnext
        dsimp only at hnext
        split at hnext
        · cases hnext
        · exact firstFrom_mem hnext
      obtain ⟨hfilled, hread⟩ := fillSlot_filled (cfg := cfg) hn hr (mem_unslotted hp)
      have hnew : (fillSlot cfg c p b).ctx c =
          { b.ctx c with rollback := some { r with slots := r.slots ++ [⟨p.1, p.2, none, .read⟩] } } :=
        (fillSlot_ctx hr c).trans (if_pos rfl)
      obtain ⟨hrest, hfull⟩ := ih (b := fillSlot cfg c p b) (r := { r with slots := r.slots ++ [⟨p.1, p.2, none, .read⟩] })
        (by rw [hfilled.journal]; exact hn) (by rw [hnew]) (by rw [hnew]; exact hstate) hphase
        (rollbackIn_restore (by rw [hnew]) (by rw [hnew]; exact hstate) hphase)
      refine ⟨hfilled.trans hnew hread hrest, fun hbound => hfull ?_⟩
      rw [List.length_append, List.length_singleton]
      omega

end Sys2Proof.Rounds


/-! SUPPORT. A rollback in phase RESTORE goes on (R114, R117). -/

namespace Sys2Proof.Rounds

open Sys2Proof.Machine Sys2Proof.Safety Sys2Proof.Laws Sys2Proof.Arrivals Sys2Proof.Expiries

variable {cfg : Image} {b b' x y z : Blocks} {s t : State} {e : TrackEntry} {c k : CtxId} {i : StreamId} {l : Addr}
  {r r' : Rollback} {n : Epoch}

/-- Every entry of a context is RESTORED (R117). -/
def allRestored (b : Blocks) (c : CtxId) : Prop := ∀ e ∈ b.track, e.ctx = c → e.state = .restored

/-- What entry to RETIRE leaves (R117). -/
theorem enterRetire_frame (hr : (b.ctx c).rollback = some r) : ∃ e q, enterRetire c b =
      { b with epochs := e, journal := { b.journal with markerQueue := b.journal.markerQueue ++ q } }
    ∧ (b.journal.writing = true → q = [⟨.retire, c⟩])
    ∧ ∀ k, (enterRetire c b).ctx k = if k = c then { b.ctx c with rollback := some { r with phase := .retire } } else b.ctx k := by
  have hctx (k : CtxId) : (modRollback c (fun r => { r with phase := .retire }) b).ctx k =
      if k = c then { b.ctx c with rollback := some { r with phase := .retire } } else b.ctx k := by
    unfold modRollback
    rw [Blocks.modCtx_ctx, hr]
    rfl
  unfold enterRetire requestMarker
  split
  · exact ⟨_, [⟨.retire, c⟩], rfl, fun _ => rfl, hctx⟩
  · rename_i hw
    exact ⟨_, [], by rw [List.append_nil]; rfl, fun h => absurd h hw, hctx⟩

/-- A rollback in phase RESTORE has gone on: to RETIRE, or with its restore slots filled. -/
structure RestoreWent (cfg : Image) (c : CtxId) (r : Rollback) (b z : Blocks) : Prop where
  frame : ∃ e q m, z = { b with
      epochs := e, mem := m, journal := { b.journal with markerQueue := b.journal.markerQueue ++ q } }
    ∧ (b.journal.writing = true → allRestored b c → q = [⟨.retire, c⟩])
  slots : z.mem.slots = b.mem.slots
  other : ∀ k, k ≠ c → z.ctx k = b.ctx k
  ctx : ∃ r', z.ctx c = { b.ctx c with rollback := some r' } ∧ r'.mode = r.mode ∧ r'.linesRestored = r.linesRestored
    ∧ (allRestored b c → r' = { r with phase := .retire })
    ∧ (¬allRestored b c → r'.phase = .restore ∧ (∃ new, r'.slots = r.slots ++ new ∧ ∀ x ∈ new, slotReads cfg c b z.mem x)
      ∧ (8 ≤ r'.slots.length ∨ unslotted b c r' = []))

/-- A rollback's step in phase RESTORE: slots are filled, then RETIRE when every line is RESTORED. -/
def restoreStep (cfg : Image) (c : CtxId) (b : Blocks) : Blocks :=
  if retireDue (fillSlots cfg c Config.restoreSlots b) c then enterRetire c (fillSlots cfg c Config.restoreSlots b)
  else fillSlots cfg c Config.restoreSlots b

theorem retireDue_iff (hr : rollbackIn b c .restore = some r) : retireDue b c = true ↔ allRestored b c := by
  unfold retireDue allRestored Blocks.entriesOf
  rw [hr]
  simp [imp_iff_not_or]

theorem restoreStep_went (hn : b.journal.notice = false) (hr : (b.ctx c).rollback = some r)
    (hstate : (b.ctx c).state = .rollback) (hphase : r.phase = .restore) : RestoreWent cfg c r b (restoreStep cfg c b) := by
  obtain ⟨hfilled, hfull⟩ := fillSlots_filled (cfg := cfg) hn hr hstate hphase Config.restoreSlots
  have hnext := hfull (Nat.le_add_left _ _)
  unfold restoreStep
  generalize fillSlots cfg c Config.restoreSlots b = x at *
  obtain ⟨new, hnew, hread⟩ := hfilled.new
  have hin : rollbackIn x c .restore = some { r with slots := r.slots ++ new } :=
    rollbackIn_restore (by rw [hnew]) (by rw [hnew]; exact hstate) hphase
  have hall : allRestored x c ↔ allRestored b c := by
    unfold allRestored
    rw [hfilled.track]
  obtain ⟨e, m, hframe⟩ := hfilled.frame
  by_cases hrestored : allRestored b c
  · rw [if_pos ((retireDue_iff hin).2 (hall.2 hrestored))]
    have hempty : new = [] := by
      refine List.eq_nil_iff_forall_not_mem.2 fun v hv => ?_
      obtain ⟨_, ⟨y, hy, hyc, _, hyr, _⟩, _⟩ := hread v hv
      rw [hrestored y hy hyc] at hyr
      cases hyr
    obtain ⟨e', q, hretire, hq, hctx⟩ := enterRetire_frame (b := x) (c := c) (r := { r with slots := r.slots ++ new }) (by rw [hnew])
    refine ⟨⟨e', q, m, ?_, fun hw _ => hq (by rw [hfilled.journal]; exact hw)⟩, ?_, fun k hk => ?_, { r with phase := .retire }, ?_,
      rfl, rfl, fun _ => rfl, fun h => absurd hrestored h⟩
    · rw [hretire, hframe]
    · rw [hretire]
      exact hfilled.slots
    · rw [hctx, if_neg hk, hfilled.other k hk]
    · rw [hctx, if_pos rfl, hnew, hempty, List.append_nil]
  · rw [if_neg fun h => hrestored (hall.1 ((retireDue_iff hin).1 h))]
    refine ⟨⟨e, [], m, ?_, fun _ h => absurd h hrestored⟩, hfilled.slots, hfilled.other, { r with slots := r.slots ++ new }, hnew,
      rfl, rfl, fun h => absurd h hrestored, fun _ => ⟨hphase, ⟨new, rfl, hread⟩, ?_⟩⟩
    · rw [List.append_nil]
      exact hframe
    · rcases nextRestore_none.1 hnext _ hin with h | h | h
      · rw [hfilled.journal, hn] at h
        cases h
      · exact .inl h
      · refine .inr ?_
        unfold unslotted Blocks.entriesOf at h ⊢
        rwa [hfilled.track] at h

/-- A context in phase RESTORE goes on by that step. -/
theorem contextStep_restore (hr : (b.ctx c).rollback = some r) (hstate : (b.ctx c).state = .rollback)
    (hphase : r.phase = .restore) : contextStep cfg b c = restoreStep cfg c b := by
  have hnot : quiesceDue b c = false := by
    unfold quiesceDue rollbackIn
    rw [hr]
    simp [hphase]
  unfold contextStep
  rw [hstate]
  dsimp only
  unfold rollbackStep
  rw [hnot]
  rfl

/-- The other contexts have nothing due when a rollback has gone on. -/
theorem RestoreWent.quiet (h : RestoreWent cfg c r b z) (hk : k ≠ c) (hb : ctxQuiet b k) : ctxQuiet z k := by
  obtain ⟨e, q, m, hframe, _⟩ := h.frame
  refine ctxQuiet_same hb (h.other k hk) ?_ ?_ (restoreOutstanding_congr h.slots k) ?_
  · rw [hframe]
    rfl
  · rw [hframe]
  · rw [hframe]

end Sys2Proof.Rounds


/-! SUPPORT. O56: RESTORE_WRITEs that end (R116, R117, R119). -/

namespace Sys2Proof.Rounds

open Sys2Proof.Machine Sys2Proof.Safety Sys2Proof.Laws Sys2Proof.Arrivals Sys2Proof.Expiries

variable {cfg : Image} {b b' x y z : Blocks} {s t : State} {e : TrackEntry} {c k : CtxId} {i : StreamId} {l : Addr}
  {r r' : Rollback} {n : Epoch} {id : OpId} {o : Outstanding} {st : DownStatus}

/-- A rollback record when a line has been restored (R112, R116). -/
def lineCounted (l : Addr) (r : Rollback) : Rollback :=
  { r with slots := r.slots.filter fun s => decide (s.line ≠ l), linesRestored := r.linesRestored + 1 }

/-- A tracking entry when a line has been restored (R116). -/
def restoredEntry (c : CtxId) (l : Addr) (e : TrackEntry) : TrackEntry :=
  if e.ctx = c ∧ e.line = l ∧ e.state = .restoring then { e with state := .restored } else e

theorem restoredEntry_ctx (c : CtxId) (l : Addr) (e : TrackEntry) : (restoredEntry c l e).ctx = e.ctx := by
  unfold restoredEntry
  split <;> rfl

theorem lineRestored_eq (hstall : noStall b = true) (hr : (b.ctx c).rollback = some r) : ∃ ep, lineRestored c l b =
      { b with epochs := ep, track := b.track.map (restoredEntry c l) }
    ∧ ∀ k, (lineRestored c l b).ctx k = if k = c then { b.ctx c with rollback := some (lineCounted l r) } else b.ctx k := by
  have htrack : (b.track.map fun e => if decide (e.ctx = c) && decide (e.line = l) && decide (e.state = .restoring) then
      { e with state := TrackState.restored } else e) = b.track.map (restoredEntry c l) :=
    List.map_congr_left fun e _ => by simp [restoredEntry, and_assoc]
  have hleave : leaveRestoring c l .restored b = { b with track := b.track.map (restoredEntry c l) } := by
    unfold leaveRestoring wakeRestoring
    rw [wake_noStall (b := updateEntries _ _ b) hstall, ← htrack]
    rfl
  unfold lineRestored
  rw [hleave]
  refine ⟨_, rfl, fun k => ?_⟩
  unfold modRollback
  rw [Blocks.modCtx_ctx]
  have hsame : ({ b with track := b.track.map (restoredEntry c l) } : Blocks).ctx c = b.ctx c := rfl
  rw [hsame, hr]
  rfl

theorem restored_quiet (hk : k ≠ c) (hb : ctxQuiet b k) (hctx : b'.ctx k = b.ctx k)
    (htrack : b'.track = b.track.map (restoredEntry c l)) (hheld : b'.held = b.held) (hmem : b'.mem = b.mem)
    (hj : b'.journal = b.journal) : ctxQuiet b' k := by
  have hentries : b'.entriesOf k = b.entriesOf k := by
    unfold Blocks.entriesOf
    rw [htrack, List.filter_map]
    have hsame : b.track.filter ((fun e => decide (e.ctx = k)) ∘ restoredEntry c l) = b.track.filter fun e => decide (e.ctx = k) :=
      List.filter_congr fun e _ => by simp only [Function.comp_apply, restoredEntry_ctx]
    rw [hsame]
    refine (List.map_congr_left fun e he => ?_).trans (List.map_id _)
    refine if_neg fun h => hk ?_
    rw [← of_decide_eq_true (List.mem_filter.1 he).2]
    exact h.1
  refine ctxQuiet_entries hb hctx ?_ hentries (by rw [hmem]) (by rw [hj])
  unfold Blocks.heldCount
  rw [hheld]

/-- What the event of a RESTORE_WRITE that persists leaves, with no request stalled (R116, R117). -/
theorem lineRestored_leaves (hstreams : Settled b) (hn : b.journal.notice = false) (hquiet : ∀ k, k ≠ c → ctxQuiet b k)
    (hserve : serveOne cfg b = none) (hr : (b.ctx c).rollback = some r) (hstate : (b.ctx c).state = .rollback)
    (hphase : r.phase = .restore) (he : (b.ctx c).epoch = some n)
    (ht : t.blocks = finishEvent cfg (lineRestored c l b)) :
    ∃ r', t.blocks.ctx c = { b.ctx c with rollback := some r' } ∧ r'.mode = r.mode
      ∧ r'.linesRestored = r.linesRestored + 1 ∧ (∀ x ∈ r'.slots, x.line ≠ l)
      ∧ t.blocks.track = b.track.map (restoredEntry c l)
      ∧ ((∀ e ∈ b.track, e.ctx = c → e.state = .restored ∨ (e.line = l ∧ e.state = .restoring)) →
        r'.phase = .retire ∧ (b.journal.state = .ready → markerAsked cfg b .retire c n t)) := by
  obtain ⟨ep, hframe, hctx⟩ := lineRestored_eq (l := l) hstreams.stall hr
  generalize lineRestored c l b = x at *
  have hxc := hctx c
  rw [if_pos rfl] at hxc
  have htrack : x.track = b.track.map (restoredEntry c l) := by rw [hframe]
  have hxquiet (k : CtxId) (hk : k ≠ c) : ctxQuiet x k := by
    refine restored_quiet hk (hquiet k hk) ((hctx k).trans (if_neg hk)) htrack ?_ ?_ ?_
    · rw [hframe]
    · rw [hframe]
    · rw [hframe]
  have hxr : (x.ctx c).rollback = some (lineCounted l r) := by rw [hxc]
  have hxstate : (x.ctx c).state = .rollback := by rw [hxc]; exact hstate
  have hwent := restoreStep_went (cfg := cfg) (by rw [hframe]; exact hn) hxr hxstate hphase
  have hstep := contextStep_restore (cfg := cfg) hxr hxstate hphase
  rw [← hstep] at hwent
  have hafter (k : CtxId) (hk : k ≠ c) : ctxQuiet (contextStep cfg x c) k := hwent.quiet hk (hxquiet k hk)
  have hcontexts := contexts_one hxquiet hafter
  generalize contextStep cfg x c = z at *
  obtain ⟨e', q, m, hzframe, hq⟩ := hwent.frame
  obtain ⟨r', hr', hmode, hlines, hretire, hrestore⟩ := hwent.ctx
  have hserved := serveBuffer_served cfg Config.stagingCapacity z
  have hsettled : Settled (serveBuffer cfg Config.stagingCapacity z) := hstreams.congr fun i => by
    rw [hserved.stream, hzframe, hframe]
    rfl
  have hgrown := finishEvent_grown (cfg := cfg) (b := x) (x := serveBuffer cfg Config.stagingCapacity z) (by rw [hcontexts])
    hsettled.due hsettled.fresh (by
      rw [hserved.notice, hzframe, hframe]
      exact hn)
  rw [← ht] at hgrown
  have hall : allRestored x c ↔ ∀ e ∈ b.track, e.ctx = c → e.state = .restored ∨ (e.line = l ∧ e.state = .restoring) := by
    unfold allRestored
    rw [htrack]
    simp only [List.mem_map, forall_exists_index, and_imp, forall_apply_eq_imp_iff₂, restoredEntry_ctx]
    refine forall₃_congr fun e _ hec => ?_
    unfold restoredEntry
    by_cases hl : e.line = l ∧ e.state = .restoring
    · simp [hl, hec]
    · rw [if_neg fun h => hl h.2, or_iff_left hl]
  have hnotLine (v : RestoreSlot) (hv : v ∈ r'.slots) : v.line ≠ l := by
    by_cases hdone : allRestored x c
    · rw [hretire hdone] at hv
      exact of_decide_eq_true (List.mem_filter.1 hv).2
    · obtain ⟨_, ⟨new, hnew, hread⟩, _⟩ := hrestore hdone
      rw [hnew] at hv
      rcases List.mem_append.1 hv with hv | hv
      · exact of_decide_eq_true (List.mem_filter.1 hv).2
      · obtain ⟨_, ⟨y, hy, hyc, hyl, hyr, _⟩, _⟩ := hread v hv
        rw [htrack] at hy
        obtain ⟨w, _, rfl⟩ := List.mem_map.1 hy
        intro hline
        unfold restoredEntry at hyc hyl hyr
        split at hyr
        · cases hyr
        · rename_i hnot
          rw [if_neg hnot] at hyc hyl
          exact hnot ⟨hyc, hyl.trans hline, hyr⟩
  refine ⟨r', ?_, hmode, hlines, hnotLine, ?_, fun hdone => ?_⟩
  · rw [hgrown.ctx, hserved.ctx, hr', hxc]
  · rw [hgrown.grants.track, hserved.track, hzframe, htrack]
  · have hdone' := hall.2 hdone
    refine ⟨by rw [hretire hdone'], fun hready => ?_⟩
    have hw : b.journal.writing = true := by simp [JournalWriter.writing, hready, hn]
    refine markerAsked_of hw hserve (b' := z) ?_ hgrown
    have hqueue := hq (by rw [hframe]; exact hw) hdone'
    have hslots : z.mem.slots = b.mem.slots := hwent.slots.trans (by rw [hframe])
    have hidle (hb : burstBusy b = false) : burstBusy z = false := by
      unfold burstBusy MemoryPort.ops at hb ⊢
      rw [hslots, hzframe, hframe]
      exact hb
    rw [hqueue, hframe] at hzframe
    rw [hzframe] at hr' hidle ⊢
    refine ⟨hw, rfl, id, rfl, rfl, rfl, rfl, rfl, ?_, fun hb _ => ⟨rfl, hidle hb⟩⟩
    rw [hr', hxc]
    exact he

end Sys2Proof.Rounds


/-! SUPPORT. RESTORE_WRITEs that end (R48, R116, R117, R119). -/

namespace Sys2Proof.Rounds

open Sys2Proof.Machine Sys2Proof.Safety Sys2Proof.Laws Sys2Proof.Arrivals Sys2Proof.Expiries

variable {cfg : Image} {b x : Blocks} {s t : State} {c : CtxId} {l : Addr} {r : Rollback} {n : Epoch} {st : DownStatus}

theorem slotOf_some {op : RestoreOp} (hr : (b.ctx c).rollback = some r) (hstate : (b.ctx c).state = .rollback)
    (hphase : r.phase = .restore) (h : ∃ x ∈ r.slots, x.line = l ∧ x.op = op) : ∃ x, slotOf b c l op = some x := by
  obtain ⟨x, hx, hline, hop⟩ := h
  unfold slotOf
  rw [rollbackIn_restore hr hstate hphase]
  exact Option.isSome_iff_exists.1 (List.find?_isSome.2 ⟨x, hx, by simp [hline, hop]⟩)

/-- What the event of a RESTORE_WRITE that fails leaves (R119). -/
theorem restoreWriteFailed_leaves (hr : (b.ctx c).rollback = some r) (hstate : (b.ctx c).state = .rollback)
    (hphase : r.phase = .restore) (hslot : ∃ x ∈ r.slots, x.line = l ∧ x.op = .write) (he : (b.ctx c).epoch = some n)
    (ht : t.blocks = finishEvent cfg (restoreWriteFailed cfg c l st b)) :
    t.blocks.ctx c = faultedCtx ⟨.restoreWriteFailed, n, some l, none, some st⟩ (b.ctx c) := by
  obtain ⟨x, hx⟩ := slotOf_some hr hstate hphase hslot
  have hleft : (leaveRestoring c l .logged b).ctx c = b.ctx c := rfl
  have hfails : restoreWriteFailed cfg c l st b =
      enterFaulted cfg c ⟨.restoreWriteFailed, n, some l, none, some st⟩ (leaveRestoring c l .logged b) := by
    simp [restoreWriteFailed, hx, reportRestoreFault, hleft, hstate, he]
  have hctx := enterFaulted_ctx cfg c c ⟨.restoreWriteFailed, n, some l, none, some st⟩ (leaveRestoring c l .logged b)
  rw [if_pos rfl, hleft] at hctx
  rw [hfails] at ht
  generalize enterFaulted cfg c ⟨.restoreWriteFailed, n, some l, none, some st⟩ (leaveRestoring c l .logged b) = y at *
  obtain ⟨hkept, _⟩ := Frames.finishEvent_faulted cfg (b := y) (c := c) (by rw [hctx]; rfl)
  rw [ht]
  exact hkept.trans hctx

/-- Settles O56. -/
theorem restoreWriteRestoresTheLine : Obligations.RestoreWriteRestoresTheLine := by
  refine ⟨fun i tag a w c e id o s hrest hm hop how hstalled hw hkind hs he hec hstate hcover => ?_,
    fun c r l n id o s hcalm hm hop how hstate hr hphase hslot he => ?_⟩
  · obtain ⟨_, hn, _⟩ := (atRest_iff s).1 hrest
    obtain ⟨hpersisted, _⟩ := endOf_write hop
    obtain ⟨t, hexec, _, ht⟩ := restoreWrite_event (cmd := .restoreWriteDone id .persisted) hrest hm rfl how hpersisted
    have hone : oneRequest (freeSlot id.slot s.blocks) i (.stalled .restoring) ⟨tag, .read a⟩ := hstalled
    have hdone : lineDone (lineOf a) (lineRestored c (lineOf a) (freeSlot id.slot s.blocks)) :=
      lineRestored_done (b := freeSlot id.slot s.blocks) he hec hstate
    obtain ⟨hphase, hport⟩ := finishEvent_readsDone (cfg := s.mgmt.active)
      (b := lineRestored c (lineOf a) (freeSlot id.slot s.blocks)) hs hn (lineRestored_wakes hone rfl) hw hkind hdone hcover
    have hend : t.blocks = finishEvent s.mgmt.active (lineRestored c (lineOf a) (freeSlot id.slot s.blocks)) := ht
    rw [← hend] at hphase hport
    exact ⟨t, hexec, hphase, hport⟩
  · obtain ⟨hrest, hstall⟩ := (calm_iff s).1 hcalm
    obtain ⟨_, hn, hstill, hf, _⟩ := (atRest_iff s).1 hrest
    obtain ⟨hpersisted, herror⟩ := endOf_write hop
    have hfreed : still s.mgmt.active (freeSlot id.slot s.blocks) = true := by
      refine RestoreReads.still_freeSlot hstill (RestoreReads.matching_slot hm).2 fun k hk => ?_
      have hck : c = k := by simpa [how, Owner.restoreOf] using hk
      subst hck
      unfold rollbackIn
      rw [hr]
      exact if_neg fun h => by rw [hphase] at h; cases h.2
    have hheld := held_of_still hfreed
    obtain ⟨_, _, _, hdue⟩ := (still_iff _ _).1 hfreed
    refine ⟨?_, ?_⟩
    · obtain ⟨t, hexec, hmgmt, ht⟩ := restoreWrite_event (cmd := .restoreWriteDone id .persisted) hrest hm rfl how hpersisted
      obtain ⟨r', hctx, hmode, hlines, hslots, htrack, hretire⟩ := lineRestored_leaves (l := l) (b := freeSlot id.slot s.blocks)
        ⟨hstall, hf, hdue⟩ hn (fun k _ => hheld.context k) hheld.buffer hr hstate hphase he ht
      refine ⟨t, r', hexec, hmgmt, hctx, hmode, hlines, hslots, htrack, fun hdone => ?_⟩
      obtain ⟨hphase', hasked⟩ := hretire hdone
      exact ⟨hphase', fun hready => markerAsked_freed (x := freeSlot id.slot s.blocks) rfl (ops_freeSlot id.slot s.blocks)
        (hasked hready)⟩
    · obtain ⟨t, hexec, _, ht⟩ := restoreWrite_event (cmd := .restoreWriteDone id .error) hrest hm rfl how herror
      have hctx := restoreWriteFailed_leaves (b := freeSlot id.slot s.blocks) hr hstate hphase hslot he ht
      have hroll : ((freeSlot id.slot s.blocks).ctx c).state = .rollback := hstate
      refine ⟨t, hexec, by rw [hctx]; rfl, by rw [hctx]; rfl, ?_, ?_⟩
      · rw [hctx]
        exact if_pos hroll
      · rw [hctx]
        exact if_pos hroll

end Sys2Proof.Rounds


/-! SUPPORT. A rollback that begins (R111). -/

namespace Sys2Proof.Rounds

open Sys2Proof.Machine Sys2Proof.Safety Sys2Proof.Laws Sys2Proof.Arrivals Sys2Proof.Expiries

variable {cfg : Image} {b b' x y z : Blocks} {s t : State} {e : TrackEntry} {c k : CtxId} {i : StreamId} {m : RollbackMode}

/-! ## Entry to ROLLBACK -/

/-- A context record at its entry to ROLLBACK (R111). -/
def begunCtx (m : RollbackMode) (x : Context) : Context :=
  { x with
    state := .rollback, idleTimer := none, fault := none, waiters := [], mgmtWaiter := false
    rollback := some ⟨m, .quiesce, [], 0⟩ }

/-- A held entry of a context whose rollback begins (R98). -/
def flaggedEntry (c : CtxId) (h : HeldEntry) : HeldEntry :=
  if h.ctx = c ∧ h.state = .issued then { h with loss := true } else h

theorem flaggedEntry_ctx (c : CtxId) (h : HeldEntry) : (flaggedEntry c h).ctx = h.ctx := by
  unfold flaggedEntry
  split <;> rfl

/-- The held entries when the rollback of a context begins (R98, R111). -/
def heldAtRollback (c : CtxId) (l : List HeldEntry) : List HeldEntry :=
  (l.filter fun h => !h.unissuedOf c).map (flaggedEntry c)

/-- What entry to ROLLBACK leaves (R111). -/
structure RollbackBegun (c : CtxId) (m : RollbackMode) (b z : Blocks) : Prop where
  frame : ∃ q ep mem, z = { b with
    req := q, epochs := ep, mem := mem, held := { b.held with entries := heldAtRollback c b.held.entries } }
    ∧ mem.slots = b.mem.slots
  ctx : ∀ k, z.ctx k = if k = c then begunCtx m (b.ctx c) else b.ctx k
  stream : ∀ i, z.stream i = afterDiscard i (b.held.entries.filter fun h => h.unissuedOf c) (told .aborted c b i)

theorem wakeContext_noStall (h : noStall b = true) : wakeContext cfg c b = b := wake_noStall h _

theorem enterRollback_begun (hs : ∀ i, attends b c i) : RollbackBegun c m b (enterRollback cfg c m b) := by
  have htold (i : StreamId) : (answerWaiters c .aborted b).stream i = told .aborted c b i := answerWaiters_stream (hs i).queue
  have hctx (k : CtxId) : ((answerWaiters c .aborted b).modCtx c fun x =>
      { x with state := .rollback, idleTimer := none, fault := none, rollback := some ⟨m, .quiesce, [], 0⟩ }).ctx k =
      if k = c then begunCtx m (b.ctx c) else b.ctx k := by
    rw [Blocks.modCtx_ctx, Frames.answerWaiters_ctx, Frames.answerWaiters_ctx, if_pos rfl]
    split
    · rfl
    · rfl
  obtain ⟨q, ep, hframe⟩ := answerWaiters_frame c .aborted b
  have hidle (i : StreamId) : idleStream (told .aborted c b i) = true := told_idle (hs i)
  unfold enterRollback
  dsimp only
  have hnotStalled (i : StreamId) (cause : StallCause) : (((answerWaiters c .aborted b).modCtx c fun x =>
      { x with state := .rollback, idleTimer := none, fault := none, rollback := some ⟨m, .quiesce, [], 0⟩ }).stream i).phase
      ≠ .stalled cause := by
    rw [Blocks.modCtx_stream, htold]
    exact notStalled_of_idleStream (hidle i) cause
  have hdiscard (i : StreamId) := discardHeld_stream (p := fun h => h.unissuedOf c) (reason := some .contextFaulted) (hnotStalled i .heldFull)
  obtain ⟨q', mem, hz, hslots, _⟩ := discardHeld_frame (fun h => h.unissuedOf c) (some .contextFaulted)
    ((answerWaiters c .aborted b).modCtx c fun x =>
      { x with state := .rollback, idleTimer := none, fault := none, rollback := some ⟨m, .quiesce, [], 0⟩ })
  have hheld : ((answerWaiters c .aborted b).modCtx c fun x =>
      { x with state := .rollback, idleTimer := none, fault := none, rollback := some ⟨m, .quiesce, [], 0⟩ }).held = b.held := by
    rw [hframe]
    rfl
  have hmem : ((answerWaiters c .aborted b).modCtx c fun x =>
      { x with state := .rollback, idleTimer := none, fault := none, rollback := some ⟨m, .quiesce, [], 0⟩ }).mem = b.mem := by
    rw [hframe]
    rfl
  have hrest : ∃ ep, ((answerWaiters c .aborted b).modCtx c fun x =>
      { x with state := .rollback, idleTimer := none, fault := none, rollback := some ⟨m, .quiesce, [], 0⟩ }) =
      { b with req := q, epochs := ep } := by
    rw [hframe]
    exact ⟨_, rfl⟩
  have hstreams (i : StreamId) := (hdiscard i).trans (congrArg (afterShare _ _) ((Blocks.modCtx_stream _ _ _ _).trans (htold i)))
  rw [hheld] at hstreams
  generalize ((answerWaiters c .aborted b).modCtx c fun x =>
      { x with state := .rollback, idleTimer := none, fault := none, rollback := some ⟨m, .quiesce, [], 0⟩ }) = y at *
  obtain ⟨ep', hy⟩ := hrest
  have hstall : noStall (flagIssued c (discardHeld (fun h => h.unissuedOf c) (some .contextFaulted) y)) = true := by
    rw [noStall_iff]
    intro i cause
    refine notStalled_of_idleStream (r := (discardHeld (fun h => h.unissuedOf c) (some .contextFaulted) y).stream i) ?_ cause
    rw [hstreams]
    exact hidle i
  rw [wakeContext_noStall hstall]
  refine ⟨⟨q', ep', mem, ?_, hslots.trans (by rw [hmem])⟩, fun k => ?_, hstreams⟩
  · rw [hz, hheld, hy]
    rfl
  · rw [← hctx k, hz]
    rfl

theorem RollbackBegun.idle (h : RollbackBegun c m b z) (hs : ∀ i, attends b c i) (i : StreamId) :
    idleStream (z.stream i) = true := by
  rw [h.stream]
  exact idleStream_afterDiscard (told_idle (hs i)) _

theorem heldCount_begun (h : z.held.entries = heldAtRollback c b.held.entries) (hk : k ≠ c) : z.heldCount k = b.heldCount k := by
  unfold Blocks.heldCount
  rw [h, heldAtRollback, List.filter_map, List.length_map, List.filter_filter]
  refine congrArg List.length (List.filter_congr fun x _ => ?_)
  simp only [Function.comp_apply, flaggedEntry_ctx]
  by_cases hx : x.ctx = k
  · simp [hx, HeldEntry.unissuedOf, hk]
  · simp [hx]

theorem RollbackBegun.quiet (h : RollbackBegun c m b z) (hk : k ≠ c) (hb : ctxQuiet b k) : ctxQuiet z k := by
  obtain ⟨q, ep, mem, hframe, hslots⟩ := h.frame
  have hcount : z.heldCount k = b.heldCount k := heldCount_begun (by rw [hframe]) hk
  refine ctxQuiet_same hb ((h.ctx k).trans (if_neg hk)) hcount (by rw [hframe]) ?_ (by rw [hframe])
  rw [hframe]
  exact restoreOutstanding_congr hslots k

/-- QUIESCE ends at once when the context holds no ISSUED entry and has no restore operation outstanding (R112). -/
theorem RollbackBegun.quiesceDue_iff (h : RollbackBegun c m b z) : quiesceDue z c = true ↔ quiescent b c := by
  obtain ⟨q, ep, mem, hframe, hslots⟩ := h.frame
  have hctx := (h.ctx c).trans (if_pos rfl)
  have hin : rollbackIn z c .quiesce = some ⟨m, .quiesce, [], 0⟩ := by
    unfold rollbackIn
    rw [hctx]
    rfl
  have hout : z.mem.restoreOutstanding c = b.mem.restoreOutstanding c := by
    rw [hframe]
    exact restoreOutstanding_congr hslots c
  have hcount : z.heldCount c = 0 ↔ ∀ h ∈ b.held.entries, h.ctx = c → h.state ≠ .issued := by
    have hentries : z.held.entries = heldAtRollback c b.held.entries := by rw [hframe]
    unfold Blocks.heldCount
    rw [hentries, heldAtRollback, List.filter_map, List.length_map, List.filter_filter, List.length_eq_zero_iff,
      List.filter_eq_nil_iff]
    refine forall₂_congr fun x _ => ?_
    simp only [Function.comp_apply, flaggedEntry_ctx, HeldEntry.unissuedOf]
    by_cases hx : x.ctx = c
    · simp [hx]
    · simp [hx]
  unfold quiesceDue quiescent
  rw [hin, hout, Option.isSome_some, Bool.true_and, Bool.and_eq_true, decide_eq_true_eq, Bool.not_eq_true', hcount]

end Sys2Proof.Rounds


/-! SUPPORT. The end of QUIESCE (R112, R113). -/

namespace Sys2Proof.Rounds

open Sys2Proof.Machine Sys2Proof.Safety Sys2Proof.Laws Sys2Proof.Arrivals Sys2Proof.Expiries

variable {cfg : Image} {b b' x y z : Blocks} {s t : State} {e : TrackEntry} {c k : CtxId} {i : StreamId} {m : RollbackMode}
  {r r' : Rollback} {n : Epoch}

/-! ## The captures that are dropped (R51, R70) -/

/-- The captures of a context that are not staged. -/
def lostCaptures (c : CtxId) (b : Blocks) : List TrackEntry :=
  b.track.filter fun e => decide (e.ctx = c) && decide (e.state = .capturing) && e.pos.isNone

/-- What dropping the captures of a context leaves, with no request in any stream. -/
theorem dropCaptures_frame (hidle : ∀ i, idleStream (b.stream i) = true) : ∃ q cq p a mem v, dropCaptures cfg c b = { b with
      req := q, mem := mem, events := v, track := b.track.filter fun e => !e.undisclosed c
      journal := { b.journal with
        captureQueue := cq, reserved := b.journal.reserved - 2 * (lostCaptures c b).length, pause := p, anchor := a } }
    ∧ (b.journal.captureQueue = [] → cq = []) ∧ mem.slots = b.mem.slots ∧ a.formatCount = b.journal.anchor.formatCount
    ∧ ∀ i, q.streams[i] = b.stream i := by
  have hstreams (i : StreamId) : (removeEntries (fun e => e.undisclosed c) b).stream i = b.stream i :=
    removeEntries_stream _ ((idleStream_iff _).1 (hidle i)).2.2.1 (notStalled_of_idleStream (hidle i))
  obtain ⟨q, hq⟩ := removeEntries_frame (fun e => e.undisclosed c) b
  rw [hq] at hstreams
  have hdrop : ∃ cq, dropCaptures cfg c b = releaseSpace cfg (2 * (lostCaptures c b).length)
      { b with
        req := q, track := b.track.filter fun e => !e.undisclosed c
        journal := { b.journal with captureQueue := cq } }
      ∧ (b.journal.captureQueue = [] → cq = []) := by
    refine ⟨b.journal.captureQueue.filter fun id => !(lostCaptures c b).any fun e => decide (e.capture = id), ?_, fun h => by rw [h]; rfl⟩
    unfold dropCaptures
    dsimp only
    rw [hq]
    rfl
  obtain ⟨cq, hdrop, hempty⟩ := hdrop
  have hstall : noStall { b with
      req := q, track := b.track.filter fun e => !e.undisclosed c
      journal := { b.journal with captureQueue := cq } } = true := by
    rw [noStall_iff]
    intro i cause
    refine notStalled_of_idleStream (r := q.streams[i]) ?_ cause
    rw [show q.streams[i] = b.stream i from hstreams i]
    exact hidle i
  rw [hdrop]
  cases 2 * (lostCaptures c b).length with
  | zero => exact ⟨q, cq, _, _, _, _, if_pos rfl, hempty, rfl, rfl, hstreams⟩
  | succ n =>
    obtain ⟨p, a, mem, v, hspace, hslots, _, hformat⟩ := releaseSpace_frame (cfg := cfg) hstall n
    exact ⟨q, cq, p, a, mem, v, hspace, hempty, hslots, hformat, hstreams⟩

/-! ## The lines that are to be restored (R113) -/

/-- A tracking entry at the end of QUIESCE in mode RESTORE (R113). -/
def toRestore (c : CtxId) (e : TrackEntry) : TrackEntry :=
  if e.ctx = c ∧ e.state = .logged then { e with state := .restoring } else e

theorem toRestore_ctx (c : CtxId) (e : TrackEntry) : (toRestore c e).ctx = e.ctx := by
  unfold toRestore
  split <;> rfl

theorem toRestore_capturing (c : CtxId) (e : TrackEntry) : (toRestore c e).state = .capturing ↔ e.state = .capturing := by
  unfold toRestore
  split
  · rename_i h
    simp [h.2]
  · rfl

/-- What settling the lines for their restores leaves. -/
theorem settleRestore_frame (hr : (b.ctx c).rollback = some r) : ∃ ep l staging timer mem, settleRestore cfg c b = { b with
      epochs := ep, mem := mem, track := b.track.map (toRestore c)
      journal := { b.journal with demands := l, staging := staging, groupTimer := timer } }
    ∧ mem.slots = b.mem.slots ∧ staging.length = b.journal.staging.length
    ∧ (∀ k, (settleRestore cfg c b).ctx k = if k = c then
        { b.ctx c with rollback := some { r with phase := .restore, slots := settledSlots b c } } else b.ctx k)
    ∧ (b.capturing c = false → burstDue cfg b = false → staging = b.journal.staging) := by
  have htrack : (b.track.map fun e => if decide (e.ctx = c) && decide (e.state = .logged) then
      { e with state := TrackState.restoring } else e) = b.track.map (toRestore c) :=
    List.map_congr_left fun e _ => by simp [toRestore]
  have hphase : ∃ ep, modRollback c (fun r => { r with phase := .restore, slots := settledSlots b c })
      (updateEntries (fun e => decide (e.ctx = c) && decide (e.state = .logged)) (fun e => { e with state := .restoring }) b) =
      { b with epochs := ep, track := b.track.map (toRestore c) } := by
    rw [← htrack]
    exact ⟨_, rfl⟩
  have hctx (k : CtxId) : (modRollback c (fun r => { r with phase := .restore, slots := settledSlots b c })
      (updateEntries (fun e => decide (e.ctx = c) && decide (e.state = .logged)) (fun e => { e with state := .restoring }) b)).ctx k =
      if k = c then { b.ctx c with rollback := some { r with phase := .restore, slots := settledSlots b c } } else b.ctx k := by
    unfold modRollback
    rw [Blocks.modCtx_ctx]
    have hsame : (updateEntries (fun e => decide (e.ctx = c) && decide (e.state = .logged))
      (fun e => { e with state := .restoring }) b).ctx c = b.ctx c := rfl
    rw [hsame, hr]
    rfl
  have hsettle : settleRestore cfg c b = burstCheck cfg (drainDemands c (.rollback c)
      (modRollback c (fun r => { r with phase := .restore, slots := settledSlots b c })
      (updateEntries (fun e => decide (e.ctx = c) && decide (e.state = .logged)) (fun e => { e with state := .restoring }) b))) := rfl
  rw [hsettle]
  generalize modRollback c (fun r => { r with phase := .restore, slots := settledSlots b c })
      (updateEntries (fun e => decide (e.ctx = c) && decide (e.state = .logged)) (fun e => { e with state := .restoring }) b) = x at *
  obtain ⟨ep, hx⟩ := hphase
  obtain ⟨l, hl⟩ := drainDemands_journal c (.rollback c) x
  have hnone : x.capturing c = false → drainDemands c (.rollback c) x = x := drainDemands_none
  generalize drainDemands c (.rollback c) x = y at *
  have hserved := served_burstCheck cfg y
  obtain ⟨staging, timer, mem, hframe, hslots, _⟩ := burstCheck_frame cfg y
  obtain ⟨staging', timer', hj, hlen⟩ := burstCheck_journal cfg y
  have hsame : staging = staging' := by
    rw [hframe] at hj
    exact congrArg JournalWriter.staging hj
  have hyctx (k : CtxId) : y.ctx k = x.ctx k := by rw [hl]; rfl
  have hystaging : y.journal.staging = b.journal.staging := by rw [hl, hx]; rfl
  refine ⟨ep, b.journal.demands ++ l, staging, timer, mem, ?_, ?_, ?_, fun k => ?_, fun hcap hdue => ?_⟩
  · rw [hframe, hl, hx]
    rfl
  · rw [hslots, hl, hx]
    rfl
  · rw [hsame, hlen, hystaging]
  · rw [hserved.ctx, hyctx, hctx]
  · have hcapturing : x.capturing c = false := by
      rw [hx, ← hcap]
      unfold Blocks.capturing
      rw [List.any_map]
      refine congrArg (fun p => b.track.any p) (funext fun e => ?_)
      simp [toRestore_ctx, toRestore_capturing]
    have hy := hnone hcapturing
    have hnot : burstDue cfg y = false := by
      rw [hy, hx]
      exact hdue
    rw [burstCheck_notDue hnot] at hframe
    rw [← hystaging, hframe]

end Sys2Proof.Rounds


/-! SUPPORT. The event in which QUIESCE ends (R112 to R114, R117). -/

namespace Sys2Proof.Rounds

open Sys2Proof.Machine Sys2Proof.Safety Sys2Proof.Laws Sys2Proof.Arrivals Sys2Proof.Expiries

variable {cfg : Image} {b b' w x y z : Blocks} {s t : State} {e : TrackEntry} {c k : CtxId} {i : StreamId} {m : RollbackMode}
  {r r' : Rollback} {n : Epoch} {mem mem' : MemoryPort}

/-! ## The entries that are left -/

theorem settledTrack_retireOnly (c : CtxId) (l : List TrackEntry) :
    settledTrack c .retireOnly l = l.filter fun e => !e.undisclosed c := by
  unfold settledTrack
  simp only [reduceCtorEq, false_and, if_false, List.map_id']
  exact List.filter_congr fun e _ => by simp [TrackEntry.undisclosed]

theorem settledTrack_restore (c : CtxId) (l : List TrackEntry) :
    settledTrack c .restore l = (l.filter fun e => !e.undisclosed c).map (toRestore c) := by
  unfold settledTrack
  simp only [true_and]
  exact congrArg (List.map (toRestore c)) (List.filter_congr fun e _ => by simp [TrackEntry.undisclosed])

theorem settledTrack_other (hk : k ≠ c) (l : List TrackEntry) :
    (settledTrack c m l).filter (fun e => decide (e.ctx = k)) = l.filter fun e => decide (e.ctx = k) := by
  have hkept : (l.filter fun e => !e.undisclosed c).filter (fun e => decide (e.ctx = k)) = l.filter fun e => decide (e.ctx = k) := by
    rw [List.filter_filter]
    refine List.filter_congr fun e _ => ?_
    by_cases hek : e.ctx = k
    · simp [hek, TrackEntry.undisclosed, hk]
    · simp [hek]
  cases m with
  | retireOnly => rw [settledTrack_retireOnly, hkept]
  | restore =>
    rw [settledTrack_restore, List.filter_map]
    have hsame : (fun e => decide (e.ctx = k)) ∘ toRestore c = fun e => decide (e.ctx = k) :=
      funext fun e => by simp only [Function.comp_apply, toRestore_ctx]
    rw [hsame, hkept]
    refine (List.map_congr_left fun e he => ?_).trans (List.map_id _)
    exact if_neg fun h => hk ((of_decide_eq_true (List.mem_filter.1 he).2).symm.trans h.1)

/-! ## What the end of QUIESCE leaves -/

/-- The lines of a rollback at the end of QUIESCE, with what the port has been asked for (R113, R114, R117). -/
def linesSettled (cfg : Image) (c : CtxId) (m : RollbackMode) (b : Blocks) (r : Rollback) (mem : MemoryPort) : Prop :=
  (m = .retireOnly → r.phase = .retire ∧ r.slots = [])
  ∧ (m = .restore → (∀ e ∈ settledTrack c m b.track, e.ctx = c → e.state = .restored) → r.phase = .retire ∧ r.slots = [])
  ∧ (m = .restore → (∃ e ∈ settledTrack c m b.track, e.ctx = c ∧ e.state ≠ .restored) → r.phase = .restore
    ∧ (∀ e ∈ settledTrack c m b.track, e.ctx = c → e.state = .capturing → ∀ p, e.pos = some p →
      ⟨e.line, p, stagedData b.journal e.capture, .idle⟩ ∈ r.slots)
    ∧ (∀ e ∈ settledTrack c m b.track, e.ctx = c → e.state = .restoring → e.pos.isSome = true →
      (∃ x ∈ r.slots, x.line = e.line) ∨ 8 ≤ r.slots.length)
    ∧ ∀ x ∈ r.slots, x.op = .read →
      inPort mem (.lineRead (slotLine cfg (x.pos.advance cfg.ringN 1).idx)) (.restoreRead c x.line) = true
      ∧ ∃ e ∈ settledTrack c m b.track, e.ctx = c ∧ e.line = x.line ∧ e.state = .restoring ∧ e.pos = some x.pos)

theorem linesSettled_mono (hport : ∀ op l, inPort mem op (.restoreRead c l) = true → inPort mem' op (.restoreRead c l) = true)
    (h : linesSettled cfg c m b r mem) : linesSettled cfg c m b r mem' := by
  obtain ⟨honly, hall, hsome⟩ := h
  refine ⟨honly, hall, fun hm he => ?_⟩
  obtain ⟨hphase, hcopied, hslotted, hreads⟩ := hsome hm he
  exact ⟨hphase, hcopied, hslotted, fun x hx hop => ⟨hport _ _ (hreads x hx hop).1, (hreads x hx hop).2⟩⟩

/-- The journal of blocks with the reservations of the lost captures released. -/
def lostReleased (c : CtxId) (b : Blocks) : Blocks :=
  b.modJournal fun j => { j with reserved := j.reserved - 2 * (lostCaptures c b).length }

/-- From blocks b, in which the rollback of context c is in QUIESCE, to blocks w QUIESCE has ended. -/
structure QuiesceEnded (cfg : Image) (c : CtxId) (m : RollbackMode) (b w : Blocks) : Prop where
  stream : ∀ i, w.stream i = b.stream i
  other : ∀ k, k ≠ c → w.ctx k = b.ctx k
  held : w.held = b.held
  slots : w.mem.slots = b.mem.slots
  notice : w.journal.notice = b.journal.notice
  track : w.track = settledTrack c m b.track
  ctx : ∃ r, w.ctx c = { b.ctx c with rollback := some r } ∧ r.mode = m ∧ r.linesRestored = 0
    ∧ linesSettled cfg c m b r w.mem
    ∧ (b.journal.writing = true → r.phase = .retire → ∀ n, (b.ctx c).epoch = some n →
      Asked cfg (lostReleased c b) w .retire c n)

theorem QuiesceEnded.quiet (h : QuiesceEnded cfg c m b w) (hk : k ≠ c) (hb : ctxQuiet b k) : ctxQuiet w k := by
  refine ctxQuiet_entries hb (h.other k hk) ?_ ?_ (restoreOutstanding_congr h.slots k) h.notice
  · unfold Blocks.heldCount
    rw [h.held]
  · unfold Blocks.entriesOf
    rw [h.track, settledTrack_other hk]

/-- While QUIESCE does not end, the rollback does not go on. -/
theorem contextStep_quiesce (hr : (b.ctx c).rollback = some r) (hstate : (b.ctx c).state = .rollback)
    (hphase : r.phase = .quiesce) (hdue : quiesceDue b c = false) : contextStep cfg b c = b := by
  have hin : rollbackIn b c .restore = none := by
    unfold rollbackIn
    rw [hr]
    exact if_neg fun h => by rw [hphase] at h; cases h.2
  refine ctxQuiet.contextStep ⟨?_, hdue, ?_, ?_⟩
  · simp [drainDue, hstate]
  · unfold nextRestore
    rw [hin]
  · unfold retireDue
    rw [hin]
    rfl

/-- The end of QUIESCE in mode RESTORE: the lines are settled, and phase RESTORE goes on at once. -/
theorem contextStep_settleRestore (hr : (b.ctx c).rollback = some r) (hstate : (b.ctx c).state = .rollback)
    (hmode : r.mode = .restore) (hdue : quiesceDue b c = true) :
    contextStep cfg b c = restoreStep cfg c (settleRestore cfg c (dropCaptures cfg c b)) := by
  have hsettle : settleLines cfg c b = settleRestore cfg c (dropCaptures cfg c b) := by
    unfold settleLines
    simp [hr, hmode]
  unfold contextStep
  rw [hstate]
  dsimp only
  unfold rollbackStep restoreStep
  rw [if_pos hdue, hsettle]

/-- The end of QUIESCE in mode RETIRE_ONLY: phase RETIRE is entered at once. -/
theorem contextStep_retireOnly (hr : (b.ctx c).rollback = some r) (hstate : (b.ctx c).state = .rollback)
    (hmode : r.mode = .retireOnly) (hdue : quiesceDue b c = true) (hx : ((dropCaptures cfg c b).ctx c).rollback = some r) :
    contextStep cfg b c = enterRetire c (dropCaptures cfg c b) := by
  have hsettle : settleLines cfg c b = enterRetire c (dropCaptures cfg c b) := by
    unfold settleLines
    simp [hr, hmode]
  obtain ⟨_, _, _, _, hctx⟩ := enterRetire_frame hx
  have hin : rollbackIn (enterRetire c (dropCaptures cfg c b)) c .restore = none := by
    unfold rollbackIn
    rw [hctx, if_pos rfl]
    exact if_neg fun h => by cases h.2
  have hfill : fillSlots cfg c Config.restoreSlots (enterRetire c (dropCaptures cfg c b)) = enterRetire c (dropCaptures cfg c b) := by
    show fillSlots cfg c (7 + 1) _ = _
    unfold fillSlots nextRestore
    rw [hin]
  have hnot : retireDue (enterRetire c (dropCaptures cfg c b)) c = false := by
    unfold retireDue
    rw [hin]
    rfl
  unfold contextStep
  rw [hstate]
  dsimp only
  unfold rollbackStep
  dsimp only
  rw [if_pos hdue, hsettle, hfill, hnot]
  rfl

end Sys2Proof.Rounds


/-! SUPPORT. What the end of QUIESCE leaves, by the mode of the rollback (R112 to R114, R117). -/

namespace Sys2Proof.Rounds

open Sys2Proof.Machine Sys2Proof.Safety Sys2Proof.Laws Sys2Proof.Arrivals Sys2Proof.Expiries

variable {cfg : Image} {b b' w x y z : Blocks} {s t : State} {e : TrackEntry} {c k : CtxId} {i : StreamId} {m : RollbackMode}
  {r r' : Rollback} {n : Epoch}

theorem burstBusy_slots (hstaging : w.journal.staging = b.journal.staging) (hslots : w.mem.slots = b.mem.slots) :
    burstBusy w = burstBusy b := by
  unfold burstBusy JournalWriter.burstInFlight MemoryPort.ops
  rw [hstaging, hslots]

theorem toRestore_cases (c : CtxId) (e : TrackEntry) : (toRestore c e).state = .restoring ∧ e.state = .logged ∨ toRestore c e = e := by
  unfold toRestore
  split
  · rename_i h
    exact .inl ⟨rfl, h.2⟩
  · exact .inr rfl

/-- With every line RESTORED at the end of QUIESCE, every entry was, but for the captures that are lost. -/
theorem restored_of_settled {l : List TrackEntry} (h : ∀ e ∈ settledTrack c .restore l, e.ctx = c → e.state = .restored)
    (he : e ∈ l.filter fun e => !e.undisclosed c) (hc : e.ctx = c) : e.state = .restored := by
  rw [settledTrack_restore] at h
  have hrestored := h (toRestore c e) (List.mem_map_of_mem he) ((toRestore_ctx c e).trans hc)
  rcases toRestore_cases c e with ⟨hstate, _⟩ | hsame
  · rw [hstate] at hrestored
    cases hrestored
  · rwa [hsame] at hrestored

theorem settledSlots_nil (h : ∀ e ∈ b.track, e.ctx = c → e.state = .restored) : settledSlots b c = [] := by
  refine List.filterMap_eq_nil_iff.2 fun e he => ?_
  obtain ⟨hmem, hc⟩ := List.mem_filter.1 he
  simp [h e hmem (of_decide_eq_true hc)]

theorem mem_settledSlots {p : RingPtr} (he : e ∈ b.track) (hc : e.ctx = c) (hstate : e.state = .capturing) (hp : e.pos = some p) :
    (⟨e.line, p, stagedData b.journal e.capture, .idle⟩ : RestoreSlot) ∈ settledSlots b c := by
  refine List.mem_filterMap.2 ⟨e, List.mem_filter.2 ⟨he, decide_eq_true hc⟩, ?_⟩
  simp [hstate, hp]

theorem settledSlots_idle {v : RestoreSlot} (h : v ∈ settledSlots b c) : v.op = .idle := by
  obtain ⟨e, _, he⟩ := List.mem_filterMap.1 h
  split at he
  · cases he
    rfl
  · cases he

theorem capturing_false (h : ∀ e ∈ b.track, e.ctx = c → e.state = .restored) : b.capturing c = false := by
  refine List.any_eq_false.2 fun e he => ?_
  by_cases hc : e.ctx = c
  · simp [h e he hc]
  · simp [hc]

/-! ## Mode RETIRE_ONLY -/

theorem retireOnly_ended (hidle : ∀ i, idleStream (b.stream i) = true) (hr : (b.ctx c).rollback = some ⟨.retireOnly, .quiesce, [], 0⟩)
    (hstate : (b.ctx c).state = .rollback) (hdue : quiesceDue b c = true) :
    QuiesceEnded cfg c .retireOnly b (contextStep cfg b c) := by
  obtain ⟨q, cq, p, a, mem, v, hframe, hempty, hslots, hformat, hstreams⟩ := dropCaptures_frame (cfg := cfg) (c := c) hidle
  have hxctx (k : CtxId) : (dropCaptures cfg c b).ctx k = b.ctx k := by
    rw [hframe]
    rfl
  have hxr : ((dropCaptures cfg c b).ctx c).rollback = some ⟨.retireOnly, .quiesce, [], 0⟩ := by rw [hxctx, hr]
  rw [contextStep_retireOnly hr hstate rfl hdue hxr]
  obtain ⟨ep, mq, hretire, hmq, hctx⟩ := enterRetire_frame hxr
  generalize enterRetire c (dropCaptures cfg c b) = w at *
  generalize dropCaptures cfg c b = x at *
  refine ⟨fun i => ?_, fun k hk => ?_, ?_, ?_, ?_, ?_, ⟨.retireOnly, .retire, [], 0⟩, ?_, rfl, rfl, ?_, fun hw _ n he => ?_⟩
  · rw [hretire, hframe]
    exact hstreams i
  · rw [hctx, if_neg hk, hxctx]
  · rw [hretire, hframe]
  · rw [hretire, hframe]
    exact hslots
  · rw [hretire, hframe]
  · rw [hretire, hframe, settledTrack_retireOnly]
  · rw [hctx, if_pos rfl, hxctx]
  · exact ⟨fun _ => ⟨rfl, rfl⟩, fun h => (by cases h), fun h => (by cases h)⟩
  · have hq : mq = [⟨.retire, c⟩] := hmq (by rw [hframe]; exact hw)
    have hep : (w.ctx c).epoch = some n := by
      rw [hctx, if_pos rfl, hxctx]
      exact he
    have hstaging : w.journal.staging = b.journal.staging := by rw [hretire, hframe]
    have hwslots : w.mem.slots = b.mem.slots := by
      rw [hretire, hframe]
      exact hslots
    have hbusy := burstBusy_slots hstaging hwslots
    rw [hframe, hq] at hretire
    have hj : w.journal = { b.journal with
      captureQueue := cq, reserved := b.journal.reserved - 2 * (lostCaptures c b).length, pause := p, anchor := a
      markerQueue := b.journal.markerQueue ++ [⟨.retire, c⟩] } := by rw [hretire]
    refine ⟨?_, ?_, fun h => ?_, ?_, ?_, ?_, ?_, ?_, hep, fun hb _ => ⟨hstaging, hbusy.trans hb⟩⟩
    all_goals rw [hj]
    · exact hw
    · rfl
    · exact hempty h
    · rfl
    · rfl
    · rfl
    · exact hformat
    · rfl

end Sys2Proof.Rounds


/-! SUPPORT. The end of QUIESCE in mode RESTORE (R112 to R114, R117). -/

namespace Sys2Proof.Rounds

open Sys2Proof.Machine Sys2Proof.Safety Sys2Proof.Laws Sys2Proof.Arrivals Sys2Proof.Expiries

variable {cfg : Image} {b b' w x y z : Blocks} {s t : State} {e : TrackEntry} {c k : CtxId} {i : StreamId} {m : RollbackMode}
  {r r' : Rollback} {n : Epoch}

/-- The lines at the end of QUIESCE in mode RESTORE, by the step of phase RESTORE that follows. -/
theorem linesSettled_of (htrack : y.track = settledTrack c .restore b.track)
    (hcopied : ∀ e ∈ b.track.filter (fun e => !e.undisclosed c), e.ctx = c → e.state = .capturing → ∀ p, e.pos = some p →
      (⟨e.line, p, stagedData b.journal e.capture, .idle⟩ : RestoreSlot) ∈ r.slots)
    (hidle : ∀ v ∈ r.slots, v.op = .idle) (hempty : allRestored y c → r.slots = [])
    (hretire : allRestored y c → r' = { r with phase := .retire })
    (hrestore : ¬allRestored y c → r'.phase = .restore
      ∧ (∃ new, r'.slots = r.slots ++ new ∧ ∀ v ∈ new, slotReads cfg c y w.mem v)
      ∧ (8 ≤ r'.slots.length ∨ unslotted y c r' = [])) : linesSettled cfg c .restore b r' w.mem := by
  have hall : allRestored y c ↔ ∀ e ∈ settledTrack c .restore b.track, e.ctx = c → e.state = .restored := by
    unfold allRestored
    rw [htrack]
  refine ⟨fun h => (by cases h), fun _ h => ?_, fun _ h => ?_⟩
  · rw [hretire (hall.2 h)]
    exact ⟨rfl, hempty (hall.2 h)⟩
  · obtain ⟨e, he, hec, hnot⟩ := h
    obtain ⟨hphase, ⟨new, hnew, hread⟩, hfull⟩ := hrestore fun h => hnot (hall.1 h e he hec)
    refine ⟨hphase, fun e he hec hstate p hp => ?_, fun e he hec hstate hpos => ?_, fun v hv hop => ?_⟩
    · rw [hnew]
      refine List.mem_append_left _ ?_
      rw [settledTrack_restore] at he
      obtain ⟨e₀, he₀, rfl⟩ := List.mem_map.1 he
      rcases toRestore_cases c e₀ with ⟨hrestoring, _⟩ | hsame
      · rw [hrestoring] at hstate
        cases hstate
      · rw [hsame] at hec hstate hp ⊢
        exact hcopied e₀ he₀ hec hstate p hp
    · rcases hfull with h | h
      · exact .inr h
      · exact .inl (slotted_of_unslotted_nil h (by rw [htrack]; exact he) hec hstate hpos)
    · rw [hnew] at hv
      rcases List.mem_append.1 hv with hv | hv
      · rw [hidle v hv] at hop
        cases hop
      · obtain ⟨_, hat, hport⟩ := hread v hv
        refine ⟨hport, ?_⟩
        unfold restoringAt at hat
        rwa [htrack] at hat

/-- What dropping the captures and settling the lines leave (R113). -/
theorem settled_frame (hidle : ∀ i, idleStream (b.stream i) = true) (hr : (b.ctx c).rollback = some r) :
    ∃ q ep cq l staging timer p a mem v, settleRestore cfg c (dropCaptures cfg c b) = { b with
      req := q, epochs := ep, mem := mem, events := v, track := settledTrack c .restore b.track
      journal := { b.journal with
        captureQueue := cq, reserved := b.journal.reserved - 2 * (lostCaptures c b).length, pause := p, anchor := a
        demands := l, staging := staging, groupTimer := timer } }
    ∧ (b.journal.captureQueue = [] → cq = []) ∧ mem.slots = b.mem.slots ∧ a.formatCount = b.journal.anchor.formatCount
    ∧ (∀ i, q.streams[i] = b.stream i) ∧ staging.length = b.journal.staging.length
    ∧ ((∀ e ∈ settledTrack c .restore b.track, e.ctx = c → e.state = .restored) → burstDue cfg b = false →
      staging = b.journal.staging)
    ∧ ∃ slots, (∀ k, (settleRestore cfg c (dropCaptures cfg c b)).ctx k = if k = c then
        { b.ctx c with rollback := some { r with phase := .restore, slots := slots } } else b.ctx k)
      ∧ (∀ e ∈ b.track.filter (fun e => !e.undisclosed c), e.ctx = c → e.state = .capturing → ∀ p, e.pos = some p →
        (⟨e.line, p, stagedData b.journal e.capture, .idle⟩ : RestoreSlot) ∈ slots)
      ∧ (∀ v ∈ slots, v.op = .idle)
      ∧ ((∀ e ∈ settledTrack c .restore b.track, e.ctx = c → e.state = .restored) → slots = []) := by
  obtain ⟨q, cq, p, a, mem, v, hframe, hempty, hslots, hformat, hstreams⟩ := dropCaptures_frame (cfg := cfg) (c := c) hidle
  have hxctx (k : CtxId) : (dropCaptures cfg c b).ctx k = b.ctx k := by
    rw [hframe]
    rfl
  have hxdata (id : Nat) : stagedData (dropCaptures cfg c b).journal id = stagedData b.journal id := by
    rw [hframe]
    rfl
  have hxtrack : (dropCaptures cfg c b).track = b.track.filter fun e => !e.undisclosed c := by rw [hframe]
  have hxstaging : (dropCaptures cfg c b).journal.staging = b.journal.staging := by rw [hframe]
  have hxdue : burstDue cfg (dropCaptures cfg c b) = burstDue cfg b := by
    have hbusy : burstBusy (dropCaptures cfg c b) = burstBusy b := burstBusy_slots hxstaging (by rw [hframe]; exact hslots)
    unfold burstDue
    rw [hbusy, hframe]
    rfl
  have hrestored (h : ∀ e ∈ settledTrack c .restore b.track, e.ctx = c → e.state = .restored) :
      ∀ e ∈ (dropCaptures cfg c b).track, e.ctx = c → e.state = .restored := fun e he hec => by
    rw [hxtrack] at he
    exact restored_of_settled h he hec
  obtain ⟨ep, l, staging, timer, mem', hsettle, hslots', hlen, hctx, hsame⟩ :=
    settleRestore_frame (cfg := cfg) (b := dropCaptures cfg c b) (c := c) (r := r) (by rw [hxctx, hr])
  generalize settleRestore cfg c (dropCaptures cfg c b) = y at *
  generalize dropCaptures cfg c b = x at *
  refine ⟨q, ep, cq, l, staging, timer, p, a, mem', v, ?_, hempty, ?_, hformat, hstreams, ?_, fun h hdue => ?_, settledSlots x c,
    fun k => ?_, fun e he hec hstate p hp => ?_, fun v hv => settledSlots_idle hv, fun h => settledSlots_nil (hrestored h)⟩
  · rw [hsettle, hxtrack, ← settledTrack_restore, hframe]
  · rw [hslots', hframe]
    exact hslots
  · rw [hlen, hxstaging]
  · rw [hsame (capturing_false (hrestored h)) (hxdue.trans hdue), hxstaging]
  · rw [hctx, hxctx, hxctx]
  · rw [← hxdata]
    exact mem_settledSlots (by rw [hxtrack]; exact he) hec hstate hp

theorem restore_ended (hidle : ∀ i, idleStream (b.stream i) = true) (hr : (b.ctx c).rollback = some ⟨.restore, .quiesce, [], 0⟩)
    (hstate : (b.ctx c).state = .rollback) (hn : b.journal.notice = false) (hdue : quiesceDue b c = true) :
    QuiesceEnded cfg c .restore b (contextStep cfg b c) := by
  rw [contextStep_settleRestore hr hstate rfl hdue]
  obtain ⟨q, ep, cq, l, staging, timer, p, a, mem, v, hframe, hempty, hslots, hformat, hstreams, hlen, hsame, slots, hctx, hcopied,
    hidleSlots, hnone⟩ := settled_frame (cfg := cfg) hidle hr
  have hyc := (hctx c).trans (if_pos rfl)
  have hwent := restoreStep_went (cfg := cfg) (b := settleRestore cfg c (dropCaptures cfg c b)) (c := c)
    (r := ⟨.restore, .restore, slots, 0⟩) (by rw [hframe]; exact hn) (by rw [hyc]) (by rw [hyc]; exact hstate) rfl
  generalize restoreStep cfg c (settleRestore cfg c (dropCaptures cfg c b)) = w at *
  generalize settleRestore cfg c (dropCaptures cfg c b) = y at *
  obtain ⟨ep', mq, mem', hwframe, hmq⟩ := hwent.frame
  obtain ⟨r', hr', hmode, hlines, hretire, hrestore⟩ := hwent.ctx
  have htrack : y.track = settledTrack c .restore b.track := by rw [hframe]
  have hall : allRestored y c ↔ ∀ e ∈ settledTrack c .restore b.track, e.ctx = c → e.state = .restored := by
    unfold allRestored
    rw [htrack]
  have hyslots : y.mem.slots = b.mem.slots := by rw [hframe]; exact hslots
  refine ⟨fun i => ?_, fun k hk => ?_, ?_, hwent.slots.trans hyslots, ?_, ?_, r', ?_, hmode, hlines, ?_, fun hw hphase n he => ?_⟩
  · rw [hwframe, hframe]
    exact hstreams i
  · rw [hwent.other k hk, hctx, if_neg hk]
  · rw [hwframe, hframe]
  · rw [hwframe, hframe]
  · rw [hwframe, htrack]
  · rw [hr', hyc]
  · exact linesSettled_of htrack hcopied hidleSlots (fun h => hnone (hall.1 h)) hretire hrestore
  · have hdone : allRestored y c := by
      by_contra hnot
      obtain ⟨hphase', _⟩ := hrestore hnot
      rw [hphase] at hphase'
      cases hphase'
    have hq : mq = [⟨.retire, c⟩] := hmq (by rw [hframe]; exact hw) hdone
    have hep : (w.ctx c).epoch = some n := by
      rw [hr', hyc]
      exact he
    have hwslots : w.mem.slots = b.mem.slots := hwent.slots.trans hyslots
    have hj : w.journal = { b.journal with
        captureQueue := cq, reserved := b.journal.reserved - 2 * (lostCaptures c b).length, pause := p, anchor := a
        demands := l, staging := staging, groupTimer := timer, markerQueue := b.journal.markerQueue ++ [⟨.retire, c⟩] } := by
      rw [hwframe, hframe, hq]
    have hburst (hbd : burstBusy b = false) (hdd : burstDue cfg b = false) :
        w.journal.staging = b.journal.staging ∧ burstBusy w = false := by
      have hst : w.journal.staging = b.journal.staging := by
        rw [hj]
        exact hsame (hall.1 hdone) hdd
      exact ⟨hst, (burstBusy_slots hst hwslots).trans hbd⟩
    refine ⟨?_, ?_, fun h => ?_, ?_, ?_, ?_, ?_, ?_, hep, hburst⟩
    all_goals rw [hj]
    · exact hw
    · rfl
    · exact hempty h
    · rfl
    · rfl
    · rfl
    · exact hformat
    · exact hlen

/-- QUIESCE ends in a part with no requests (R112 to R114, R117). -/
theorem quiesce_ended (hidle : ∀ i, idleStream (b.stream i) = true) (hr : (b.ctx c).rollback = some ⟨m, .quiesce, [], 0⟩)
    (hstate : (b.ctx c).state = .rollback) (hn : b.journal.notice = false) (hdue : quiesceDue b c = true) :
    QuiesceEnded cfg c m b (contextStep cfg b c) := by
  cases m with
  | restore => exact restore_ended hidle hr hstate hn hdue
  | retireOnly => exact retireOnly_ended hidle hr hstate hdue

end Sys2Proof.Rounds


/-! SUPPORT. O34: a rollback begins (R97, R98, R110 to R117). -/

namespace Sys2Proof.Rounds

open Sys2Proof.Machine Sys2Proof.Safety Sys2Proof.Laws Sys2Proof.Arrivals Sys2Proof.Expiries

variable {cfg : Image} {b b' w x y z : Blocks} {s t : State} {c k : CtxId} {i : StreamId} {m : RollbackMode} {e : HeldEntry}
  {r r' : Rollback} {n : Epoch} {q : Byte} {tag : StreamId → Tag}

/-! ## Held entries -/

theorem asIssued_loss {e e' : HeldEntry} (h : asIssued e = asIssued e') : e.loss = e'.loss := by
  have hloss := congrArg HeldEntry.loss h
  exact hloss

theorem heldAtRollback_other (c : CtxId) (l : List HeldEntry) :
    (heldAtRollback c l).filter (fun e => decide (e.ctx ≠ c)) = l.filter fun e => decide (e.ctx ≠ c) := by
  have hsame : (fun e : HeldEntry => decide (e.ctx ≠ c)) ∘ flaggedEntry c = fun e => decide (e.ctx ≠ c) :=
    funext fun e => by simp only [Function.comp_apply, flaggedEntry_ctx]
  unfold heldAtRollback
  rw [List.filter_map, hsame, List.filter_filter]
  have hkept : l.filter (fun e => decide (e.ctx ≠ c) && !e.unissuedOf c) = l.filter fun e => decide (e.ctx ≠ c) :=
    List.filter_congr fun e _ => by
      by_cases hc : e.ctx = c
      · simp [hc]
      · simp [hc, HeldEntry.unissuedOf]
  rw [hkept]
  refine (List.map_congr_left fun e he => ?_).trans (List.map_id _)
  exact if_neg fun h => of_decide_eq_true (List.mem_filter.1 he).2 h.1

/-- A held entry that a context in ROLLBACK keeps is ISSUED, with its loss flag set (R97, R98). -/
theorem heldAtRollback_flagged {l : List HeldEntry} (he : e ∈ heldAtRollback c l) (hc : e.ctx = c) :
    e.state = .issued ∧ e.loss = true := by
  obtain ⟨h, hh, rfl⟩ := List.mem_map.1 he
  rw [flaggedEntry_ctx] at hc
  have hissued : h.state = .issued := by
    have hkept := (List.mem_filter.1 hh).2
    simpa [HeldEntry.unissuedOf, hc] using hkept
  unfold flaggedEntry
  rw [if_pos ⟨hc, hissued⟩]
  exact ⟨hissued, rfl⟩

theorem filter_asIssued {l l' : List HeldEntry} (h : l.map asIssued = l'.map asIssued) :
    (l.filter fun e => decide (e.ctx ≠ c)).map asIssued = (l'.filter fun e => decide (e.ctx ≠ c)).map asIssued := by
  have hfilter (l : List HeldEntry) : (l.filter fun e => decide (e.ctx ≠ c)).map asIssued =
      (l.map asIssued).filter fun e => decide (e.ctx ≠ c) := by
    rw [List.filter_map]
    rfl
  rw [hfilter, hfilter, h]

/-! ## The event -/

/-- The rollback record and the entries when a rollback has begun (R111 to R117). -/
def rollbackStands (cfg : Image) (c : CtxId) (m : RollbackMode) (b : Blocks) (r : Rollback) (t : State) : Prop :=
  r.mode = m ∧ r.linesRestored = 0 ∧ (quiescent b c → settles cfg b c m r t)
    ∧ (¬quiescent b c → r.phase = .quiesce ∧ r.slots = [] ∧ t.blocks.track = b.track)

/-- What the event in which a rollback begins leaves. -/
structure RollbackLeaves (cfg : Image) (c : CtxId) (m : RollbackMode) (b : Blocks) (t : State) : Prop where
  ctx : ∃ r, t.blocks.ctx c = { b.ctx c with
    state := .rollback, idleTimer := none, fault := none, waiters := [], mgmtWaiter := false, rollback := some r }
    ∧ rollbackStands cfg c m b r t
  other : ∀ k, k ≠ c → t.blocks.ctx k = b.ctx k
  stream : ∀ i, t.blocks.stream i = afterDiscard i (b.held.entries.filter fun h => h.unissuedOf c) (told .aborted c b i)
  flagged : ∀ e ∈ t.blocks.held.entries, e.ctx = c → e.state = .issued ∧ e.loss = true
  kept : (t.blocks.held.entries.filter fun e => decide (e.ctx ≠ c)).map asIssued =
    (b.held.entries.filter fun e => decide (e.ctx ≠ c)).map asIssued

/-- The rest of the event, once the contexts have gone on from blocks z to blocks w. -/
theorem begun_grown (hz : ∀ i, idleStream (z.stream i) = true) (hn : z.journal.notice = false)
    (hstep : contextStep cfg z c = w) (hquiet : ∀ k, k ≠ c → ctxQuiet z k) (hafter : ∀ k, k ≠ c → ctxQuiet w k)
    (hstream : ∀ i, w.stream i = z.stream i) (hnotice : w.journal.notice = z.journal.notice)
    (ht : t.blocks = finishEvent cfg z) : Grown (serveBuffer cfg Config.stagingCapacity w) t.blocks := by
  have hcontexts := contexts_one (cfg := cfg) hquiet (by rw [hstep]; exact hafter)
  have hserved := serveBuffer_served cfg Config.stagingCapacity w
  have hidle (i : StreamId) : idleStream ((serveBuffer cfg Config.stagingCapacity w).stream i) = true := by
    rw [hserved.stream, hstream]
    exact hz i
  have hstand := standBy_idle hidle
  rw [ht]
  exact finishEvent_grown (by rw [hcontexts, hstep]) hstand.notDue hstand.noFresh (by rw [hserved.notice, hnotice, hn])

/-- What the event leaves of a part whose rollback is settled from blocks z, in which it begins, to blocks w. -/
theorem begun_settles (hbegun : RollbackBegun c m b z) (hw : b.journal.writing = true) (hserve : serveOne cfg b = none)
    (hended : QuiesceEnded cfg c m z w) (hgrown : Grown (serveBuffer cfg Config.stagingCapacity w) t.blocks) :
    ∃ r, t.blocks.ctx c = { b.ctx c with
      state := .rollback, idleTimer := none, fault := none, waiters := [], mgmtWaiter := false, rollback := some r }
      ∧ r.mode = m ∧ r.linesRestored = 0 ∧ settles cfg b c m r t := by
  obtain ⟨q, ep, mem, hframe, hslots⟩ := hbegun.frame
  have hctx := (hbegun.ctx c).trans (if_pos rfl)
  have hserved := serveBuffer_served cfg Config.stagingCapacity w
  have hj : z.journal = b.journal := by rw [hframe]
  have htrack : z.track = b.track := by rw [hframe]
  have hzslots : z.mem.slots = b.mem.slots := by rw [hframe]; exact hslots
  obtain ⟨r, hr, hmode, hlines, hsettled, hasked⟩ := hended.ctx
  have hlines' : linesSettled cfg c m b r t.blocks.mem := by
    have hmono := linesSettled_mono (mem' := t.blocks.mem)
      (fun op l h => hgrown.port op _ (fun _ => Owner.noConfusion) (hserved.inPort h)) hsettled
    unfold linesSettled at hmono ⊢
    rwa [htrack, hj] at hmono
  refine ⟨r, ?_, hmode, hlines, ?_, fun hphase n he => ?_, hlines'⟩
  · rw [hgrown.ctx, hserved.ctx, hr, hctx]
    rfl
  · rw [hgrown.grants.track, hserved.track, hended.track, htrack]
  · have hserve' : serveOne cfg (lostReleased c z) = none := by
      refine serveOne_none_iff.2 ?_
      have hnone := serveOne_none_iff.1 hserve
      rw [← hj] at hnone
      exact hnone
    have hask := markerAsked_of (s := t) (b := lostReleased c z) (by rw [← hj] at hw; exact hw) hserve'
      (hasked (by rw [hj]; exact hw) hphase n (by rw [hctx]; exact he)) hgrown
    have hlost : lostReleased c z = z.modJournal fun j => { j with reserved := j.reserved - 2 * (lostCaptures c b).length } := by
      unfold lostReleased lostCaptures
      rw [htrack]
    have hbusy (f : JournalWriter → JournalWriter) : burstBusy (z.modJournal f) = burstBusy (b.modJournal f) := by
      refine burstBusy_slots ?_ hzslots
      rw [Blocks.modJournal_journal, Blocks.modJournal_journal, hj]
    have hdue (f : JournalWriter → JournalWriter) : burstDue cfg (z.modJournal f) = burstDue cfg (b.modJournal f) := by
      unfold burstDue
      rw [hbusy, Blocks.modJournal_journal, Blocks.modJournal_journal, hj]
    rw [hlost] at hask
    refine markerAsked_congr (by rw [Blocks.modJournal_journal, hj]; rfl) (by rw [Blocks.modJournal_journal, hj]; rfl)
      (by rw [Blocks.modJournal_journal, hj]; rfl) (by rw [Blocks.modJournal_journal, hj]; rfl)
      (by rw [Blocks.modJournal_journal, hj]; rfl) (by rw [Blocks.modJournal_journal, hj]; rfl)
      (fun hidle hnot => ⟨by rw [Blocks.modJournal_journal, hj]; rfl, (hbusy _).trans hidle, (hdue _).trans hnot⟩) hask

end Sys2Proof.Rounds


/-! SUPPORT. O34: ABORT and FORCE_RETIRE by the state of the context (R29, R110, R122). -/

namespace Sys2Proof.Rounds

open Sys2Proof.Machine Sys2Proof.Safety Sys2Proof.Laws Sys2Proof.Arrivals Sys2Proof.Expiries

variable {cfg : Image} {b b' w x y z : Blocks} {s t : State} {c k : CtxId} {i : StreamId} {m : RollbackMode} {q : Byte}
  {tag : StreamId → Tag}

/-- What the event in which a rollback begins leaves, in a part whose requests at most wait for the context's commit. -/
theorem enterRollback_leaves (hs : ∀ i, attends b c i) (hready : b.journal.state = .ready) (hn : b.journal.notice = false)
    (hheld : Held cfg b) (ht : t.blocks = finishEvent cfg (enterRollback cfg c m b)) : RollbackLeaves cfg c m b t := by
  have hbegun := enterRollback_begun (cfg := cfg) (m := m) hs
  generalize enterRollback cfg c m b = z at *
  obtain ⟨q, ep, mem, hframe, _⟩ := hbegun.frame
  have hctx := (hbegun.ctx c).trans (if_pos rfl)
  have hidle := hbegun.idle hs
  have hzn : z.journal.notice = false := by rw [hframe]; exact hn
  have hr : (z.ctx c).rollback = some ⟨m, .quiesce, [], 0⟩ := by rw [hctx]; rfl
  have hstate : (z.ctx c).state = .rollback := by rw [hctx]; rfl
  have hquiet (k : CtxId) (hk : k ≠ c) : ctxQuiet z k := hbegun.quiet hk (hheld.context k)
  have hentries : z.held.entries = heldAtRollback c b.held.entries := by rw [hframe]
  have hsplit : ∃ w, Grown (serveBuffer cfg Config.stagingCapacity w) t.blocks ∧ (∀ i, w.stream i = z.stream i)
      ∧ (∀ k, k ≠ c → w.ctx k = z.ctx k) ∧ w.held = z.held
      ∧ ∃ r, t.blocks.ctx c = { b.ctx c with
        state := .rollback, idleTimer := none, fault := none, waiters := [], mgmtWaiter := false, rollback := some r }
        ∧ rollbackStands cfg c m b r t := by
    by_cases hdue : quiescent b c
    · have hended := quiesce_ended (cfg := cfg) hidle hr hstate hzn (hbegun.quiesceDue_iff.2 hdue)
      have hgrown := begun_grown hidle hzn rfl hquiet (fun k hk => hended.quiet hk (hquiet k hk)) hended.stream hended.notice ht
      obtain ⟨r, hc, hmode, hlines, hsettles⟩ := begun_settles hbegun (by simp [JournalWriter.writing, hready, hn])
        hheld.buffer hended hgrown
      exact ⟨contextStep cfg z c, hgrown, hended.stream, hended.other, hended.held, r, hc, hmode, hlines, fun _ => hsettles,
        fun h => absurd hdue h⟩
    · have hstep : contextStep cfg z c = z := contextStep_quiesce hr hstate rfl
        (Bool.eq_false_iff.2 fun h => hdue (hbegun.quiesceDue_iff.1 h))
      have hgrown := begun_grown hidle hzn hstep hquiet hquiet (fun _ => rfl) rfl ht
      have hserved := serveBuffer_served cfg Config.stagingCapacity z
      refine ⟨z, hgrown, fun _ => rfl, fun _ _ => rfl, rfl, ⟨m, .quiesce, [], 0⟩, ?_, rfl, rfl, fun h => absurd h hdue,
        fun _ => ⟨rfl, rfl, ?_⟩⟩
      · rw [hgrown.ctx, hserved.ctx, hctx]
        rfl
      · rw [hgrown.grants.track, hserved.track, hframe]
  obtain ⟨w, hgrown, hstream, hother, hwheld, hrecord⟩ := hsplit
  have hserved := serveBuffer_served cfg Config.stagingCapacity w
  have hxheld : (serveBuffer cfg Config.stagingCapacity w).held.entries = heldAtRollback c b.held.entries := by
    rw [hserved.held, hwheld, hentries]
  refine ⟨hrecord, fun k hk => ?_, fun i => ?_, fun e he hc => ?_, ?_⟩
  · rw [hgrown.ctx, hserved.ctx, hother k hk, hbegun.ctx, if_neg hk]
  · rw [hgrown.stream, hserved.stream, hstream, hbegun.stream]
  · obtain ⟨e', he', hsame, hissued⟩ := hgrown.issued e he
    rw [hxheld] at he'
    obtain ⟨hstate', hloss⟩ := heldAtRollback_flagged he' ((asIssued_ctx hsame).trans hc)
    exact ⟨hissued.elim (fun h => h.trans hstate') id, (asIssued_loss hsame).symm.trans hloss⟩
  · rw [filter_asIssued hgrown.grants.entries, hxheld, heldAtRollback_other]

theorem startWork_eq (q : Byte) (st : MgmtStatus) (s : State) (f : Blocks → Blocks) :
    startWork q st s f = respond q st .empty (after s (finishEvent s.mgmt.active (f s.blocks))) := by
  unfold startWork
  rfl

/-- The rollback of a context begins with a management command that answers STARTED. -/
theorem startRollback_leaves (hrest : atRest s = true) (hs : ∀ i, attends s.blocks c i) (hready : s.blocks.journal.state = .ready) :
    ∃ t, startWork q .started s (enterRollback s.mgmt.active c m) = t
      ∧ t.mgmt = { s.mgmt with response := ⟨q, .started, .empty⟩ } ∧ RollbackLeaves s.mgmt.active c m s.blocks t := by
  obtain ⟨_, hn, hst, _⟩ := (atRest_iff s).1 hrest
  have hleaves (b : Blocks) (hb : b = finishEvent s.mgmt.active (enterRollback s.mgmt.active c m s.blocks)) :
      RollbackLeaves s.mgmt.active c m s.blocks (respond q .started .empty (after s b)) :=
    enterRollback_leaves hs hready hn (held_of_still hst) hb
  rw [startWork_eq]
  exact ⟨_, rfl, rfl, hleaves _ rfl⟩

/-- In a part with no requests, too, what the rollback leaves of the streams is known. -/
theorem RollbackLeaves.alone_stream (h : RollbackLeaves cfg c m b t) (hidle : ∀ i, idleStream (b.stream i) = true) (i : StreamId) :
    t.blocks.stream i = afterDiscard i (b.held.entries.filter fun h => decide (h.ctx = c) && decide (h.state ≠ .issued))
      (b.stream i) := by
  rw [h.stream, told_idle_eq (hidle i)]
  rfl

theorem exec_abort (hrest : atRest s = true) : exec (.abort q [ctxByte c]) s = .next
    (if (s.blocks.ctx c).state ≠ .idle ∧ s.blocks.journal.state ≠ .ready then respond q .refusedState .empty s
    else abortContext q c s) := by
  obtain ⟨hup, hn, _⟩ := (atRest_iff s).1 hrest
  refine congrArg Host.Outcome.next ((Port.managed_up hup _).trans ?_)
  unfold takeAbort
  rw [Port.parseCtx_ctxByte]
  exact Port.untilNotice_before hn q _

theorem exec_forceRetire (hrest : atRest s = true) : exec (.forceRetire q [ctxByte c]) s = .next
    (if (s.blocks.ctx c).state = .faulted ∧ s.blocks.journal.state = .ready then
      startWork q .started s (enterRollback s.mgmt.active c .retireOnly)
    else respond q .refusedState .empty s) := by
  obtain ⟨hup, hn, _⟩ := (atRest_iff s).1 hrest
  refine congrArg Host.Outcome.next ((Port.managed_up hup _).trans ?_)
  unfold takeForceRetire
  rw [Port.parseCtx_ctxByte]
  exact Port.untilNotice_before hn q _

theorem exec_abort_ready (hrest : atRest s = true) (hready : s.blocks.journal.state = .ready) :
    exec (.abort q [ctxByte c]) s = .next (abortContext q c s) := by
  rw [exec_abort hrest, if_neg fun h => h.2 hready]

theorem abortContext_starts (h : (s.blocks.ctx c).state = .opened ∨ (s.blocks.ctx c).state = .draining
    ∨ (s.blocks.ctx c).state = .faulted) : abortContext q c s = startWork q .started s (enterRollback s.mgmt.active c .restore) := by
  unfold abortContext
  rcases h with h | h | h
  · rw [h]
  · rw [h]
  · rw [h]

/-- Settles O34. -/
theorem rollbackBeginsByTheContextsState : Obligations.RollbackBeginsByTheContextsState := by
  refine ⟨fun q c tag s hwait hready hstate => ?_, fun q c s halone => ?_⟩
  · have hattend := attends_commitsWait hwait
    obtain ⟨hrest, hw, _⟩ := hwait
    obtain ⟨t, ht, hmgmt, hleaves⟩ := startRollback_leaves (q := q) (m := .restore) hrest hattend hready
    obtain ⟨r, hctx, _⟩ := hleaves.ctx
    refine ⟨t, ?_, hmgmt, by rw [hctx], by rw [hctx], by rw [hctx], fun i hi => ?_⟩
    · rw [exec_abort_ready hrest hready, abortContext_starts (.inr (.inl hstate)), ht]
    · have htold := told_waiter (st := .aborted) hi (hw i hi).2
      refine ⟨?_, ?_⟩
      · rw [hleaves.stream]
        exact idleStream_afterDiscard (told_idle (hattend i)) _
      · rw [hleaves.stream]
        exact htold
  · obtain ⟨hrest, hidle⟩ := (alone_iff s).1 halone
    dsimp only
    refine ⟨fun h => ?_, fun hnot hjournal => ?_, fun hready h => ?_, fun hready h => ?_, fun hready h => ?_, fun hready h => ?_,
      fun h => ?_⟩
    · rw [exec_abort hrest, if_neg fun hbad => hbad.1 h]
      unfold abortContext
      rw [h]
    · rw [exec_abort hrest, if_pos ⟨hnot, hjournal⟩]
    · rw [exec_abort_ready hrest hready]
      unfold abortContext
      rw [h]
    · rw [exec_abort_ready hrest hready]
      unfold abortContext
      rw [h]
    · obtain ⟨t, ht, hmgmt, hleaves⟩ := startRollback_leaves (q := q) (m := .restore) hrest (fun i => .inl (hidle i)) hready
      obtain ⟨r, hctx, hmode, hlines, hsettles, hwaits⟩ := hleaves.ctx
      exact ⟨t, r, by rw [exec_abort_ready hrest hready, abortContext_starts h, ht], hmgmt, hctx, hmode, hlines, hleaves.other,
        hleaves.alone_stream hidle, hsettles, hwaits, hleaves.flagged, hleaves.kept⟩
    · obtain ⟨t, ht, hmgmt, hleaves⟩ := startRollback_leaves (q := q) (m := .retireOnly) hrest (fun i => .inl (hidle i)) hready
      obtain ⟨r, hctx, hmode, hlines, hsettles, hwaits⟩ := hleaves.ctx
      exact ⟨t, r, by rw [exec_forceRetire hrest, if_pos ⟨h, hready⟩, ht], hmgmt, hctx, hmode, hlines, hleaves.other,
        hleaves.alone_stream hidle, hsettles, hwaits, hleaves.flagged, hleaves.kept⟩
    · rw [exec_forceRetire hrest, if_neg fun hboth => h.elim (fun hj => hj hboth.2) fun hf => hf hboth.1]

end Sys2Proof.Rounds


/-! SUPPORT. O60: the law of service is not inductive where a stale anchor write waits at the Memory Port. -/

namespace Sys2Proof.Rounds

open Sys2Proof.Machine Sys2Proof.Safety Sys2Proof.Laws

variable {cfg : Image} {b : Blocks}

/-- The law of service holds the law of the anchor writes (R76, R78). -/
theorem serviceLaw_anchor (h : serviceLaw cfg b = true) : anchorLaw b = true := by
  unfold serviceLaw at h
  simp only [Bool.and_eq_true] at h
  obtain ⟨⟨⟨⟨_, hanchor⟩, _⟩, _⟩, _⟩ := h
  exact hanchor

/-- Before the notice two anchor writes at the port break the law. -/
theorem anchorLaw_false (hn : b.journal.notice = false) (h : 1 < (anchorOwners b.mem).length) : anchorLaw b = false := by
  unfold anchorLaw
  simp only [hn, Bool.false_or, Bool.and_eq_false_iff, decide_eq_false_iff_not]
  exact .inl (by omega)

/-! ## The counterexample -/

/-- An image with a ring of 1,024 slots at address 0. -/
def ringImage : Image := { Config.defaults with journal := ⟨0, 1024, .auto, .auto, .auto, 8, 20⟩ }

/-- A port with every operation slot taken, so that nothing is granted, and with a request that waits under the owner of
an anchor write that FORMAT has left to end (R84). No part gives a waiting request that owner, but no law excludes it
outside READY, FORMATTING and RECOVERING. -/
def crowdedPort : MemoryPort :=
  { MemoryPort.powerUp with
    waiting := [⟨.lineRead 0, .anchor, .staleAnchor, 0⟩]
    slots := Vector.replicate 32 (some ⟨.lineRead 0, .passThrough, .dropped, 0, 0⟩) }

/-- An UNFORMATTED part with that port, and with FORMAT at the front of its queue. -/
def staleWaiting : State :=
  { State.reset with
    mgmt := { Management.reset with active := ringImage }
    blocks := { Blocks.reset with mem := crowdedPort }
    pending := [.format 0 []] }

/-- The part when FORMAT has been taken. -/
def staleFormatted : State := takeFormat 0 [] (staleWaiting.withQueue [])

theorem step_staleWaiting : step staleWaiting = .next staleFormatted :=
  congrArg Host.Outcome.next (Port.managed_up (s := staleWaiting.withQueue []) rfl _)

theorem serviceLaw_staleWaiting : serviceLaw staleWaiting.mgmt.active staleWaiting.blocks = true := by decide +kernel

/-- FORMAT withdraws the waiting anchor writes but not that request, and asks for copy A besides (R84, R134). -/
theorem anchorOwners_staleFormatted :
    anchorOwners staleFormatted.blocks.mem = [.staleAnchor, .anchor .formatA] := by decide +kernel

theorem notice_staleFormatted : staleFormatted.blocks.journal.notice = false := by decide +kernel

theorem anchorLaw_staleFormatted : anchorLaw staleFormatted.blocks = false := by
  refine anchorLaw_false notice_staleFormatted ?_
  rw [anchorOwners_staleFormatted]
  exact Nat.one_lt_two

/-- Refutes O60: a request that waits as a stale anchor write is kept by FORMAT, which asks for an anchor write of its
own, so that two stand at the port. -/
theorem not_stepKeepsServiceLaw : ¬ Obligations.StepKeepsServiceLaw := by
  intro hkeeps
  have hctxs : ctxsLaw staleWaiting.blocks = true := by decide +kernel
  have htrack : trackLaw staleWaiting.mgmt.active staleWaiting.blocks = true := by decide +kernel
  have hconfig : configLaw staleWaiting.mgmt = true := by decide +kernel
  have hservice := hkeeps staleWaiting staleFormatted hctxs htrack hconfig serviceLaw_staleWaiting step_staleWaiting
  have hanchor := serviceLaw_anchor hservice
  rw [anchorLaw_staleFormatted] at hanchor
  cases hanchor

end Sys2Proof.Rounds
